-- ==== Sys2Proof/Word.lean ====
section
/-!
DEFINITION. The word types of the part: registers are 64 bits wide, memory is byte-addressed and
little-endian (spec/00_scope.md, Numbers, units and time; Register conventions).
-/

namespace Sys2Proof

/-- One byte of memory, of a packet or of a mailbox area. -/
abbrev Byte := BitVec 8

/-- A 64-bit register, table word or packet header word. -/
abbrev W64 := BitVec 64

/-- A 32-bit vector register, FP32 datum or check value. -/
abbrev W32 := BitVec 32

end Sys2Proof
end

