-- ==== Sys2Proof/Syntax.lean ====
section
/-!
DEFINITION. The commands the block takes, one constructor for each row of spec/opcode_table.json.
-/

namespace Sys2Proof

/-- A route to control space: 0 host port, 1 fabric VC6, 2 I3C (R423). -/
abbrev Route := Fin 3

/-- The two spaces of the host port (R394). -/
inductive Bar where
  | bar0 | bar2
deriving DecidableEq, Repr

/-- A register write as it arrives: its route, where it goes and its bytes (Table MGT-6). `contiguous`
is false for non-contiguous byte enables. -/
structure Access where
  route : Route := 0
  bar : Bar := .bar0
  addr : Nat := 0
  data : List Byte := []
  contiguous : Bool := true
deriving DecidableEq, Repr

/-- An error check's verdict on one memory word: good, corrected, or uncorrectable. -/
inductive MemErr where
  | good | ce | ue
deriving DecidableEq, Repr

/-- What the analogue part of a link's receivers reports with one training frame, a bit for each
lane: the inverted marker (R67), the receiver adapted (R70), the PRBS13 filler free of error
(Table LAN-3), and the lanes deskewed within the buffer's reach (R62). `preset` and `taps` are what
the lanes' receivers ask of the partner. -/
structure TrainObs where
  inverted : Nat := 0
  adapted : Nat := 0
  fillerOk : Nat := 0
  deskewed : Nat := 0
deriving DecidableEq, Repr

/-- An endpoint of the switch (R110): a slice, or the control dies. -/
inductive Endpoint where
  | slice (n : Fin 64)
  | control
deriving DecidableEq, Repr

/-- The key of a tracked stream (R109). -/
structure StreamKey where
  dev : BitVec 12 := 0
  port : Byte := 0
  stream : BitVec 16 := 0
deriving DecidableEq, Repr

/-- The key of a fabric mailbox (R379). -/
structure MboxKey where
  dev : BitVec 12 := 0
  port : Byte := 0
deriving DecidableEq, Repr

/-- A verdict of the array's checksums (R249): good, a difference that the re-execution does not
show again, or one that it does. -/
inductive MmaCheck where
  | good | once | twice
deriving DecidableEq, Repr

/-- A request at a memory hub (R276, R277): the device address, what is written (none reads the
64-byte half-granule), and the ECC verdict on that half-granule. -/
structure DramReq where
  addr : Nat := 0
  write : Option (List Byte) := none
  err : MemErr := .good
deriving DecidableEq, Repr

/-- A slice or a link in its lifecycle (R299). -/
inductive LifeUnit where
  | slice (n : Fin 64)
  | link (l : Fin 48)
deriving DecidableEq, Repr

/-- An event of a detector that no other command stands for (bridge CRC, die heartbeat, lockstep
comparison, slice-memory SECDED): its source, its subject's die, slice and link, and detail word 4. -/
structure HwEvent where
  src : BitVec 10 := 0
  die : Option (Fin 32) := none
  slice : Option (Fin 64) := none
  link : Option (Fin 48) := none
  d4 : W64 := 0
deriving DecidableEq, Repr


/-- The commands of the block: one constructor for each row of spec/opcode_table.json, with the
operands the row's rule needs (the table gives none, log entry 1). -/
inductive Instr where
  /-- REGISTER_WRITE (R7) -/
  | registerWrite (a : Access)
  /-- SLOT_BOUNDARY (R26) -/
  | slotBoundary
  /-- ALIGN_GO (R35) -/
  | alignGo (rt : Route) (v : W64)
  /-- SYNC_REQ (R36) -/
  | syncReq (l : Fin 48) (t2 : W64) (t3 : W64)
  /-- SYNC_RSP (R36) -/
  | syncRsp (l : Fin 48) (t4 : W64)
  /-- ANNOUNCE (R36) -/
  | announce (l : Fin 48)
  /-- SYNC_INTERVAL_EXPIRY (R38) -/
  | syncIntervalExpiry
  /-- SCHEDULE_WINDOW_WRITE (R47) -/
  | scheduleWindowWrite (rt : Route) (n : Fin 64) (off : BitVec 20) (data : List Byte)
  /-- BANK_LOAD (R47) -/
  | bankLoad
  /-- BANK_CHECK (R48) -/
  | bankCheck
  /-- PHASE_NEXT_WRITE (R51) -/
  | phaseNextWrite (rt : Route) (d : Fin 64) (v : W64)
  /-- SWAP_ARM (R51) -/
  | swapArm (rt : Route) (d : Fin 64) (slot : BitVec 56)
  /-- SWAP_DISARM (R54) -/
  | swapDisarm (rt : Route) (d : Fin 64)
  /-- SWAP_WAKE_START (R53) -/
  | swapWakeStart (d : Fin 64)
  /-- PHASE_SWAP (R57) -/
  | phaseSwap (d : Fin 64)
  /-- LINK_IDLE_ENTRY (R53) -/
  | linkIdleEntry (l : Fin 48)
  /-- TRAINING_FRAME (R67) -/
  | trainingFrame (l : Fin 48) (words : List W64) (obs : TrainObs)
  /-- EQ_TIMEOUT (R70) -/
  | eqTimeout (l : Fin 48)
  /-- TRAIN_TIMEOUT (R71) -/
  | trainTimeout (l : Fin 48)
  /-- LOS_ASSERT (R74) -/
  | losAssert (l : Fin 48) (ln : Fin 8)
  /-- LOS_DEASSERT (R79) -/
  | losDeassert (l : Fin 48) (ln : Fin 8)
  /-- CDR_LOL (R73) -/
  | cdrLol (l : Fin 48) (ln : Fin 8) (on : Bool)
  /-- PLL_LOL (R73) -/
  | pllLol (l : Fin 48) (ln : Fin 8) (on : Bool)
  /-- FEC_SYM (R75) -/
  | fecSym (l : Fin 48) (ln : Fin 8)
  /-- REF_TRACK (R64) -/
  | refTrack (l : Fin 48) (ln : Fin 8) (ppm : BitVec 8)
  /-- IDLE_ENTER (R79) -/
  | idleEnter (l : Fin 48)
  /-- WAKE_FAIL (R80) -/
  | wakeFail (l : Fin 48)
  /-- PATTERN_SELECT (R81) -/
  | patternSelect (rt : Route) (l : Fin 48) (ln : Fin 8) (v : W64)
  /-- PRBS_CLEAR (R82) -/
  | prbsClear (rt : Route) (l : Fin 48) (ln : Fin 8) (v : W64)
  /-- PRBS_SYNC (R82) -/
  | prbsSync (l : Fin 48) (ln : Fin 8) (bits : List Bool)
  /-- INJECT_GO (R83) -/
  | injectGo (rt : Route) (l : Fin 48) (ln : Fin 8) (v : W64)
  /-- PERIODIC_INJECTION (R83) -/
  | periodicInjection (l : Fin 48) (ln : Fin 8)
  /-- AUTO_MARGIN_SCAN (R84) -/
  | autoMarginScan (l : Fin 48) (ln : Fin 8) (height : BitVec 8) (width : BitVec 6)
  /-- MARGIN_GO (R85) -/
  | marginGo (rt : Route) (l : Fin 48) (ln : Fin 8) (v : W64)
  /-- MARGIN_DONE (R85) -/
  | marginDone (l : Fin 48) (ln : Fin 8) (errors : Nat)
  /-- BLOCK_RECEIVE (R104) -/
  | blockReceive (l : Fin 48) (lanes : List (List Byte))
  /-- REPLAY_TIMEOUT (R105) -/
  | replayTimeout (l : Fin 48)
  /-- LINK_DOWN (R108) -/
  | linkDown (l : Fin 48)
  /-- LINK_RETRAIN (R108) -/
  | linkRetrain (l : Fin 48)
  /-- CAPS_RECORD (R118) -/
  | capsRecord (l : Fin 48) (sentNs : Nat) (rxNs : Nat)
  /-- CAPS_TIMEOUT (R118) -/
  | capsTimeout (l : Fin 48)
  /-- PACKET_INGRESS (R125) -/
  | packetIngress (inp : Fin 113)
  /-- EGRESS_START (R123) -/
  | egressStart (l : Fin 48) (err : MemErr)
  /-- OUTPUT_ARBITRATION (R139) -/
  | outputArbitration (l : Fin 48)
  /-- DRAIN_END (R133) -/
  | drainEnd (d : Fin 64)
  /-- DRAIN_STUCK (R134) -/
  | drainStuck (d : Fin 64)
  /-- SWX_GO (R149) -/
  | swxGo (rt : Route) (v : W64)
  /-- ZENITH_CLEAR (R149) -/
  | zenithClear (rt : Route) (v : W64)
  /-- ROUTING_TABLE_WRITE (R128) -/
  | routingTableWrite (rt : Route) (d : Fin 64) (off : BitVec 17) (data : List Byte)
  /-- MGMT_ROUTE_WRITE (R130) -/
  | mgmtRouteWrite (rt : Route) (off : BitVec 15) (data : List Byte)
  /-- WRITE (R102) -/
  | writeC (ep : Endpoint)
  /-- READ_REQ (R102) -/
  | readReq (ep : Endpoint)
  /-- READ_RSP (R114) -/
  | readRsp (ep : Endpoint)
  /-- CONTRIB (R158) -/
  | contrib (n : Fin 64)
  /-- MCAST (R454) -/
  | mcast (n : Fin 64)
  /-- ZENITH (R170) -/
  | zenith (n : Fin 64)
  /-- MGMT_CMD (R379) -/
  | mgmtCmd
  /-- MGMT_RSP (R114) -/
  | mgmtRsp (ep : Endpoint)
  /-- NACK (R115) -/
  | nack (ep : Endpoint)
  /-- CREDIT (R160) -/
  | credit (ep : Endpoint)
  /-- E2E_TIMEOUT (R114) -/
  | e2eTimeout (ep : Endpoint) (txn : Nat)
  /-- STREAM_ENTRY_EXPIRY (R110) -/
  | streamEntryExpiry (ep : Endpoint) (key : StreamKey)
  /-- DESC_OPEN (R155) -/
  | descOpen
  /-- DESCRIPTOR_WINDOW_WRITE (R183) -/
  | descriptorWindowWrite (rt : Route) (n : Fin 64) (off : BitVec 17) (data : List Byte)
  /-- GROUP_ENTRY_WRITE (R174) -/
  | groupEntryWrite (rt : Route) (d : Fin 64) (off : BitVec 11) (data : List Byte)
  /-- TICKET_TAKE (R175) -/
  | ticketTake
  /-- TREE_NODE_COMPLETE (R161) -/
  | treeNodeComplete (n : Fin 64) (desc : Fin 512) (chunk : Nat) (level : Nat) (node : Nat)
  /-- LATE_LIMIT_EXPIRY (R178) -/
  | lateLimitExpiry (n : Fin 64) (desc : Fin 512) (chunk : Nat)
  /-- MEMBER_EXCLUDE (R389) -/
  | memberExclude
  /-- MEMBER_REPLACE (R389) -/
  | memberReplace
  /-- MEMBER_REPLACE_EFFECT (R389) -/
  | memberReplaceEffect (d : Fin 64)
  /-- TENSOR_TABLE_WRITE (R186) -/
  | tensorTableWrite (rt : Route) (d : Fin 64) (off : BitVec 19) (data : List Byte)
  /-- TENSOR_LOAD (R186) -/
  | tensorLoad
  /-- PST_GO (R187) -/
  | pstGo (rt : Route) (d : Fin 64) (v : W64)
  /-- PAUSE (R208) -/
  | pause (rt : Route) (d : Fin 64) (v : W64)
  /-- PAUSE_EFFECT (R208) -/
  | pauseEffect (d : Fin 64)
  /-- RESOLVE (R209) -/
  | resolve (rt : Route) (d : Fin 64) (v : W64)
  /-- ROLLBACK (R210) -/
  | rollback (rt : Route) (d : Fin 64) (v : W64)
  /-- HSET_WORD_WRITE (R199) -/
  | hsetWordWrite (rt : Route) (d : Fin 64) (h : Fin 256) (w : Fin 8) (v : W64)
  /-- OUTPUT_FORMAT_WRITE (R203) -/
  | outputFormatWrite (rt : Route) (d : Fin 64) (w : Fin 12) (v : W64)
  /-- FACTOR_LATCH (R197) -/
  | factorLatch (d : Fin 64) (t : BitVec 14)
  /-- UPDATE_COMPLETE (R195) -/
  | updateComplete (n : Fin 64)
  /-- UPDATE_TIMEOUT (R194) -/
  | updateTimeout (n : Fin 64)
  /-- STREAM_START (R236) -/
  | streamStart (n : Fin 64) (st : Fin 4)
  /-- INSTRUCTION_COMPLETE (R237) -/
  | instructionComplete (n : Fin 64) (st : Fin 4)
  /-- SEMAPHORE_WAIT_PASS (R242) -/
  | semaphoreWaitPass (n : Fin 64) (st : Fin 4)
  /-- MERIDIAN_WAIT_PASS (R243) -/
  | meridianWaitPass (n : Fin 64) (st : Fin 4)
  /-- PROGRAM_WATCHDOG (R256) -/
  | programWatchdog (n : Fin 64) (st : Fin 4)
  /-- NOP (R240) -/
  | nop (n : Fin 64) (st : Fin 4)
  /-- END (R236) -/
  | endC (n : Fin 64) (st : Fin 4)
  /-- SWAIT (R240) -/
  | swait (n : Fin 64) (st : Fin 4)
  /-- SADD (R240) -/
  | sadd (n : Fin 64) (st : Fin 4)
  /-- MWAIT (R243) -/
  | mwait (n : Fin 64) (st : Fin 4)
  /-- FENCE (R240) -/
  | fence (n : Fin 64) (st : Fin 4)
  /-- NFSIG (R253) -/
  | nfsig (n : Fin 64) (st : Fin 4)
  /-- LAR (R240) -/
  | lar (n : Fin 64) (st : Fin 4)
  /-- AADD (R240) -/
  | aadd (n : Fin 64) (st : Fin 4)
  /-- LOOP (R240) -/
  | loop (n : Fin 64) (st : Fin 4)
  /-- ADD (R245) -/
  | addC (n : Fin 64)
  /-- SUB (R245) -/
  | subC (n : Fin 64)
  /-- AND (R245) -/
  | andC (n : Fin 64)
  /-- OR (R245) -/
  | orC (n : Fin 64)
  /-- XOR (R245) -/
  | xorC (n : Fin 64)
  /-- SHL (R245) -/
  | shl (n : Fin 64)
  /-- SHR (R245) -/
  | shr (n : Fin 64)
  /-- SAR (R245) -/
  | sar (n : Fin 64)
  /-- MUL (R245) -/
  | mulC (n : Fin 64)
  /-- MULHU (R245) -/
  | mulhu (n : Fin 64)
  /-- DIVU (R244) -/
  | divu (n : Fin 64)
  /-- REMU (R244) -/
  | remu (n : Fin 64)
  /-- SLT (R245) -/
  | slt (n : Fin 64)
  /-- SLTU (R245) -/
  | sltu (n : Fin 64)
  /-- ADDI (R245) -/
  | addi (n : Fin 64)
  /-- ANDI (R245) -/
  | andi (n : Fin 64)
  /-- ORI (R245) -/
  | ori (n : Fin 64)
  /-- XORI (R245) -/
  | xori (n : Fin 64)
  /-- SHLI (R245) -/
  | shli (n : Fin 64)
  /-- SHRI (R245) -/
  | shri (n : Fin 64)
  /-- LI (R245) -/
  | li (n : Fin 64)
  /-- LUI (R245) -/
  | lui (n : Fin 64)
  /-- LD8 (R245) -/
  | ld8 (n : Fin 64)
  /-- LD16 (R245) -/
  | ld16 (n : Fin 64)
  /-- LD32 (R245) -/
  | ld32 (n : Fin 64)
  /-- LD64 (R245) -/
  | ld64 (n : Fin 64)
  /-- ST8 (R245) -/
  | st8 (n : Fin 64)
  /-- ST16 (R245) -/
  | st16 (n : Fin 64)
  /-- ST32 (R245) -/
  | st32 (n : Fin 64)
  /-- ST64 (R245) -/
  | st64 (n : Fin 64)
  /-- LDF (R245) -/
  | ldf (n : Fin 64)
  /-- STF (R245) -/
  | stf (n : Fin 64)
  /-- BEQ (R245) -/
  | beq (n : Fin 64)
  /-- BNE (R245) -/
  | bne (n : Fin 64)
  /-- BLT (R245) -/
  | blt (n : Fin 64)
  /-- BGE (R245) -/
  | bge (n : Fin 64)
  /-- BLTU (R245) -/
  | bltu (n : Fin 64)
  /-- BGEU (R245) -/
  | bgeu (n : Fin 64)
  /-- JAL (R245) -/
  | jal (n : Fin 64)
  /-- JALR (R245) -/
  | jalr (n : Fin 64)
  /-- POST (R235) -/
  | post (n : Fin 64)
  /-- RDFEAT (R245) -/
  | rdfeat (n : Fin 64)
  /-- RDSYS (R245) -/
  | rdsys (n : Fin 64)
  /-- MWAITR (R243) -/
  | mwaitr (n : Fin 64)
  /-- DRAW (R245) -/
  | draw (n : Fin 64)
  /-- RDSEM (R245) -/
  | rdsem (n : Fin 64)
  /-- FADD (R245) -/
  | fadd (n : Fin 64)
  /-- FSUB (R245) -/
  | fsub (n : Fin 64)
  /-- FMUL (R245) -/
  | fmul (n : Fin 64)
  /-- FDIV (R245) -/
  | fdiv (n : Fin 64)
  /-- FSQRT (R245) -/
  | fsqrt (n : Fin 64)
  /-- FMA (R245) -/
  | fma (n : Fin 64)
  /-- FMIN (R245) -/
  | fmin (n : Fin 64)
  /-- FMAX (R245) -/
  | fmax (n : Fin 64)
  /-- I2F (R245) -/
  | i2f (n : Fin 64)
  /-- F2I (R245) -/
  | f2i (n : Fin 64)
  /-- FEQ (R245) -/
  | feq (n : Fin 64)
  /-- FLT (R245) -/
  | flt (n : Fin 64)
  /-- FLE (R245) -/
  | fle (n : Fin 64)
  /-- TLOAD (R247) -/
  | tload (n : Fin 64)
  /-- CLOAD (R247) -/
  | cload (n : Fin 64)
  /-- CZERO (R247) -/
  | czero (n : Fin 64)
  /-- MMA (R248) -/
  | mma (n : Fin 64) (check : MmaCheck)
  /-- CSTORE (R247) -/
  | cstore (n : Fin 64)
  /-- VLD (R251) -/
  | vld (n : Fin 64)
  /-- VST (R252) -/
  | vst (n : Fin 64)
  /-- VBCAST (R251) -/
  | vbcast (n : Fin 64)
  /-- VRNG (R251) -/
  | vrng (n : Fin 64)
  /-- VADD (R251) -/
  | vadd (n : Fin 64)
  /-- VSUB (R251) -/
  | vsub (n : Fin 64)
  /-- VMUL (R251) -/
  | vmul (n : Fin 64)
  /-- VFMA (R251) -/
  | vfma (n : Fin 64)
  /-- VDIV (R251) -/
  | vdiv (n : Fin 64)
  /-- VSQRT (R251) -/
  | vsqrt (n : Fin 64)
  /-- VMIN (R251) -/
  | vmin (n : Fin 64)
  /-- VMAX (R251) -/
  | vmax (n : Fin 64)
  /-- VABS (R251) -/
  | vabs (n : Fin 64)
  /-- VNEG (R251) -/
  | vneg (n : Fin 64)
  /-- VSIGN (R251) -/
  | vsign (n : Fin 64)
  /-- VCMPLT (R251) -/
  | vcmplt (n : Fin 64)
  /-- VCMPEQ (R251) -/
  | vcmpeq (n : Fin 64)
  /-- VSEL (R251) -/
  | vsel (n : Fin 64)
  /-- VTID (R251) -/
  | vtid (n : Fin 64)
  /-- VIADD (R251) -/
  | viadd (n : Fin 64)
  /-- VAND (R251) -/
  | vand (n : Fin 64)
  /-- VOR (R251) -/
  | vor (n : Fin 64)
  /-- VXOR (R251) -/
  | vxor (n : Fin 64)
  /-- VSHL (R251) -/
  | vshl (n : Fin 64)
  /-- VSHR (R251) -/
  | vshr (n : Fin 64)
  /-- VI2F (R251) -/
  | vi2f (n : Fin 64)
  /-- VF2I (R251) -/
  | vf2i (n : Fin 64)
  /-- VRED (R253) -/
  | vred (n : Fin 64)
  /-- VMASK (R251) -/
  | vmask (n : Fin 64)
  /-- VSTU (R251) -/
  | vstu (n : Fin 64)
  /-- COPY (R254) -/
  | copy (n : Fin 64)
  /-- COPY2D (R254) -/
  | copy2d (n : Fin 64)
  /-- FILL (R254) -/
  | fill (n : Fin 64)
  /-- CKFEED (R342) -/
  | ckfeed (n : Fin 64)
  /-- CKGET (R342) -/
  | ckget (n : Fin 64)
  /-- CKPUT (R342) -/
  | ckput (n : Fin 64)
  /-- TREE (R255) -/
  | tree (n : Fin 64)
  /-- STOP_ARM (R263) -/
  | stopArm (rt : Route) (n : Fin 64) (v : W64)
  /-- SLICE_HALT (R264) -/
  | sliceHalt (n : Fin 64)
  /-- RESUME (R266) -/
  | resume (rt : Route) (n : Fin 64) (v : W64)
  /-- NONFINITE_CLEAR (R253) -/
  | nonfiniteClear (rt : Route) (n : Fin 64) (e : Fin 2) (v : W64)
  /-- DEBUG_WINDOW_ACCESS (R265) -/
  | debugWindowAccess (rt : Route) (n : Fin 64) (off : BitVec 20) (write : Option (List Byte)) (size : Nat)
  /-- PROGRAM_IMAGE_WRITE (R262) -/
  | programImageWrite (rt : Route) (n : Fin 64) (off : BitVec 19) (data : List Byte)
  /-- DRAM_ACCESS (R277) -/
  | dramAccess (rq : DramReq)
  /-- PATROL_SCRUB (R279) -/
  | patrolScrub (h : Fin 4) (err : MemErr)
  /-- MEM_RETIRE (R280) -/
  | memRetire (rt : Route) (v : W64)
  /-- RELOCATION_DONE (R282) -/
  | relocationDone (stack : Fin 16)
  /-- REFRESH_WINDOW (R275) -/
  | refreshWindow (group : Fin 16)
  /-- STAGING_SCRUB (R284) -/
  | stagingScrub (n : Fin 64) (addr : BitVec 26) (err : MemErr)
  /-- BUFFER_REQUEST (R287) -/
  | bufferRequest (owner : Fin 259) (size : Nat)
  /-- BUFFER_RELEASE (R288) -/
  | bufferRelease (owner : Fin 259) (pool : Fin 65) (cls : Fin 4) (buf : Nat)
  /-- POOL_STARVED (R287) -/
  | poolStarved (owner : Fin 259)
  /-- POOL_LEAK (R290) -/
  | poolLeak (owner : Fin 259)
  /-- ZEROING_DONE (R295) -/
  | zeroingDone (d : Fin 64)
  /-- SLC_CTRL_ENABLE (R299) -/
  | slcCtrlEnable (rt : Route) (n : Fin 64)
  /-- SLC_CTRL_DISABLE (R299) -/
  | slcCtrlDisable (rt : Route) (n : Fin 64)
  /-- LNK_LIFE_ENABLE (R299) -/
  | lnkLifeEnable (rt : Route) (l : Fin 48)
  /-- LNK_LIFE_DISABLE (R305) -/
  | lnkLifeDisable (rt : Route) (l : Fin 48) (force : Bool)
  /-- SLICE_ENABLE (R300) -/
  | sliceEnable
  /-- SLICE_DISABLE (R299) -/
  | sliceDisable
  /-- LINK_ENABLE (R300) -/
  | linkEnable
  /-- LINK_DISABLE (R305) -/
  | linkDisable
  /-- STARTING_DONE (R301) -/
  | startingDone (n : Fin 64)
  /-- SLICE_REACHES_OFF (R302) -/
  | sliceReachesOff (n : Fin 64)
  /-- LINK_REACHES_OFF (R304) -/
  | linkReachesOff (l : Fin 48)
  /-- DRAIN_TIMEOUT (R302) -/
  | drainTimeout (unit : LifeUnit)
  /-- TWN_GO (R315) -/
  | twnGo (rt : Route) (v : W64)
  /-- PAIRING (R315) -/
  | pairing
  /-- TWIN_RECORD (R313) -/
  | twinRecord
  /-- HEARTBEAT_TIMEOUT (R316) -/
  | heartbeatTimeout
  /-- PRESENCE_LOSS (R316) -/
  | presenceLoss (deasserted : Bool)
  /-- RELEASE_RECORD (R321) -/
  | releaseRecord (n : Fin 64)
  /-- UPDATE_RECORD (R321) -/
  | updateRecord (n : Fin 64)
  /-- EXCL_RECORD (R325) -/
  | exclRecord (n : Fin 64)
  /-- RERUN_DONE (R323) -/
  | rerunDone (n : Fin 64)
  /-- SIG_WAIT_EXPIRY (R322) -/
  | sigWaitExpiry (n : Fin 64)
  /-- MIRROR_WRITE (R327) -/
  | mirrorWrite (n : Fin 64)
  /-- TAKEOVER_REQUEST (R328) -/
  | takeoverRequest (rt : Route) (d : Fin 64) (v : W64)
  /-- MIRROR_TAKEOVER (R328) -/
  | mirrorTakeover (d : Fin 64)
  /-- RESILVER_DONE (R329) -/
  | resilverDone (d : Fin 64)
  /-- FOLLOW_EXIT (R326) -/
  | followExit (n : Fin 64)
  /-- SPARE_REMAP (R330) -/
  | spareRemap (n : Fin 64)
  /-- FAULT_EVENT (R347) -/
  | faultEvent (evs : List HwEvent)
  /-- RECORD_WRITE (R351) -/
  | recordWrite
  /-- DIE_FENCED (R355) -/
  | dieFenced (die : Fin 32)
  /-- DIE_FENCE_FAIL (R355) -/
  | dieFenceFail (die : Fin 32)
  /-- ORDERLY_STOP_END (R361) -/
  | orderlyStopEnd
  /-- SAFE_ENTRY (R362) -/
  | safeEntry
  /-- COLLECTOR_PARITY (R360) -/
  | collectorParity (off : BitVec 16)
  /-- FLT_FORCE (R358) -/
  | fltForce (rt : Route) (i : Fin 16) (v : W64)
  /-- FLT_FW_REPORT (R359) -/
  | fltFwReport (v : W64)
  /-- FLT_ACTION_WRITE (R354) -/
  | fltActionWrite (rt : Route) (src : Fin 1024) (v : W64)
  /-- CLEAR_SOURCE (R363) -/
  | clearSource (rt : Route) (v : W64)
  /-- CLEAR_ALL (R363) -/
  | clearAll (rt : Route) (v : W64)
  /-- CLEAR_FIRST (R348) -/
  | clearFirst (rt : Route) (v : W64)
  /-- CLEAR_DROPPED (R363) -/
  | clearDropped (rt : Route) (v : W64)
  /-- RING_TAIL_WRITE (R353) -/
  | ringTailWrite (rt : Route) (v : W64)
  /-- PARITY_TEST (R360) -/
  | parityTest (rt : Route) (v : W64)
  /-- CHK_COUNT_CLEAR (R363) -/
  | chkCountClear (rt : Route) (v : W64)
  /-- MBX_DOORBELL_GO (R378) -/
  | mbxDoorbellGo (rt : Route) (m : Fin 16) (v : W64)
  /-- HELLO (R385) -/
  | hello
  /-- GET_INFO (R387) -/
  | getInfo
  /-- SENSOR_READ (R387) -/
  | sensorRead
  /-- SENSOR_WRITE (R404) -/
  | sensorWrite
  /-- REG_READ (R388) -/
  | regRead
  /-- REG_WRITE (R388) -/
  | regWrite
  /-- FW_STAGE (R401) -/
  | fwStage
  /-- FW_COMMIT (R401) -/
  | fwCommit
  /-- RESET (R402) -/
  | resetC
  /-- SLEEP (R413) -/
  | sleep
  /-- WAKE (R413) -/
  | wake
  /-- WAKE_COMPLETE (R413) -/
  | wakeComplete
  /-- WAKE_HOST (R415) -/
  | wakeHost
  /-- THRESH_WRITE (R406) -/
  | threshWrite
  /-- THRESHOLD_ENTRY_WRITE (R406) -/
  | thresholdEntryWrite (rt : Route) (i : Fin 48) (v : W64)
  /-- MAILBOX_EXPIRY (R379) -/
  | mailboxExpiry (key : MboxKey)
  /-- BOOT_ROM (R398) -/
  | bootRom
  /-- BOOT_CONFIRM (R399) -/
  | bootConfirm (v : W64)
  /-- BOOT_FALLBACK (R399) -/
  | bootFallback
  /-- FW_KICK (R402) -/
  | fwKick (rt : Route) (v : W64)
  /-- FW_WATCHDOG (R402) -/
  | fwWatchdog
  /-- RESTART_COMPLETE (R390) -/
  | restartComplete
  /-- SENSOR_SAMPLE (R405) -/
  | sensorSample (i : Fin 256) (x : Option (BitVec 16))
  /-- SENSOR_RAW_WRITE (R404) -/
  | sensorRawWrite (i : Fin 256) (raw : BitVec 16)
  /-- SENSOR_FAIL (R404) -/
  | sensorFail (i : Fin 256)
  /-- PWR_VSET_WRITE (R409) -/
  | pwrVsetWrite (rt : Route) (g : Fin 8) (v : W64)
  /-- WAKE_REASON_CLEAR (R415) -/
  | wakeReasonClear (rt : Route) (v : W64)
  /-- WAKE_N_REASSERT (R415) -/
  | wakeNReassert
  /-- HOST_LINK_TRAINING_START (R416) -/
  | hostLinkTrainingStart
  /-- FSTOP_SAMPLE (R417) -/
  | fstopSample (a : Bool) (b : Bool)
  /-- FSTOP_DISC_FAULT (R417) -/
  | fstopDiscFault
  /-- REF_OK_SET (R439) -/
  | refOkSet
  /-- REF_LOSS (R439) -/
  | refLoss
  /-- DOMAIN_APERTURE_ACCESS (R427) -/
  | domainApertureAccess (rt : Route) (off : BitVec 22) (write : Option (List Byte)) (size : Nat)
  /-- STAGING_APERTURE_ACCESS (R428) -/
  | stagingApertureAccess (rt : Route) (off : BitVec 22) (write : Option (List Byte)) (size : Nat)
  /-- VAUX_POWER_UP (R446) -/
  | vauxPowerUp
  /-- VAUX_UNDERVOLTAGE (R438) -/
  | vauxUndervoltage
  /-- VIN_MAIN_UNDERVOLTAGE (R438) -/
  | vinMainUndervoltage
  /-- VIN_MAIN_OVERVOLTAGE (R438) -/
  | vinMainOvervoltage
  /-- PORST_N_ASSERT (R442) -/
  | porstNAssert
  /-- CONTROL_DIE_RELEASE (R450) -/
  | controlDieRelease (bootSel : Bool)
  /-- START_UP_STEP (R446) -/
  | startUpStep (ok : Bool) (bad : List Nat)
  /-- PERST_N (R393) -/
  | perstN (asserted : Bool)
  /-- FUNCTION_LEVEL_RESET (R393) -/
  | functionLevelReset
  /-- ENTDAA (R443) -/
  | entdaa (da : BitVec 7)
  /-- RSTDAA (R443) -/
  | rstdaa
  /-- SETNEWDA (R443) -/
  | setnewda (da : BitVec 7)
  /-- GETPID (R443) -/
  | getpid
  /-- GETBCR (R443) -/
  | getbcr
  /-- GETDCR (R443) -/
  | getdcr
  /-- GETMRL (R443) -/
  | getmrl
  /-- GETMWL (R443) -/
  | getmwl
  /-- ENEC (R443) -/
  | enec (events : Byte)
  /-- DISEC (R443) -/
  | disec (events : Byte)
  /-- GETSTATUS (R443) -/
  | getstatus
  /-- EXTEST (R445) -/
  | extest (cells : List Bool)
  /-- IDCODE (R445) -/
  | idcode
  /-- SAMPLE_PRELOAD (R445) -/
  | samplePreload (cells : List Bool)
  /-- CLAMP (R445) -/
  | clamp
  /-- HIGHZ (R445) -/
  | highz
  /-- BYPASS (R445) -/
  | bypass (ir : BitVec 8)
  /-- VIN_MAIN_IN_RANGE (R411) -/
  | vinMainInRange (mv : BitVec 16)
  /-- I3C_PRIVATE_WRITE (R380) -/
  | i3cPrivateWrite (data : List Byte)
  /-- CHANNEL_INTERFACE_LOST (R281) -/
  | channelInterfaceLost (stack : Fin 16) (chan : Nat)
  /-- MER_NOW_READ (R34) -/
  | merNowRead (rt : Route) (peer : MboxKey) (half : Option Bool)
deriving DecidableEq, Repr

end Sys2Proof
end

