-- ==== Sys2Proof/Config.lean ====
section
/-!
DEFINITION. The values that the spec leaves open, as constants without a body: nothing can be proved
of them, so a claim that speaks of one holds whatever it is (log entry 4).
-/

namespace Sys2Proof.Config

/-- A value the spec does not state, by the step's own counter and an index within the step. -/
opaque freeWord : Nat → Nat → BitVec 64

/-- An FP32 or vector-register value the spec does not state. -/
opaque freeVec : Nat → Nat → BitVec 32

/-- The random half of the I3C Provisional ID (R443), by the counter at the dynamic address
assignment. -/
opaque i3cRandom : Nat → BitVec 32

/-- Whether a firmware image's key is one of the fused ones and not among the revoked, its signature
verifies and its body has the hash of its header (R397: ECDSA with SHA-384, whose arithmetic and whose
fused keys the spec takes from outside). -/
opaque imageSigned : List Nat → List Byte → Bool

end Sys2Proof.Config
end

