-- ==== Sys2Proof/Machine/Bits.lean ====
section
/-!
DEFINITION. Bit fields of 64-bit words, bytes against words (little-endian), and the sparse tables
that hold registers, windows and memories in one canonical form: keys strictly rising, no entry
equal to what an unlisted key reads as.
-/

namespace Sys2Proof.Machine

/-- The low `w` bits of a natural number. -/
def low (w n : Nat) : Nat := n % 2 ^ w

/-- The addition of `k` to a count of `w` bits that saturates at all ones. -/
def satAdd (w n k : Nat) : Nat := min (n + k) (2 ^ w - 1)

/-- A bit field: its low bit and its width. -/
structure Fld where
  lo : Nat
  w : Nat
deriving DecidableEq, Repr

/-- A field of a register at a BAR0 byte address. -/
structure FRef where
  addr : Nat
  lo : Nat
  w : Nat
deriving DecidableEq, Repr

/-- Read a field of a word. -/
def getFld (x : W64) (lo w : Nat) : Nat := (x.toNat >>> lo) % 2 ^ w

/-- Write a field of a word; the value is taken modulo the field. -/
def setFld (x : W64) (lo w : Nat) (v : Nat) : W64 :=
  let m : W64 := BitVec.ofNat 64 ((2 ^ w - 1) <<< lo)
  (x &&& ~~~m) ||| (BitVec.ofNat 64 ((v % 2 ^ w) <<< lo))

/-- A field of a natural number that stands for a wide word. -/
def nfld (x lo w : Nat) : Nat := (x >>> lo) % 2 ^ w

/-- Bit `i` of a number. -/
def nbit (x i : Nat) : Bool := (x >>> i) % 2 == 1

/-- 1 for true, 0 for false. -/
def b2n (b : Bool) : Nat := if b then 1 else 0

/-- The two's complement reading of the low `w` bits. -/
def sext (w x : Nat) : Int := if (x % 2 ^ w) * 2 ≥ 2 ^ w then (x % 2 ^ w : Nat) - (2 ^ w : Nat) else (x % 2 ^ w : Nat)

/-- The `w`-bit two's complement encoding of an integer. -/
def ofInt (w : Nat) (i : Int) : Nat := (i % (2 ^ w : Nat)).toNat

/-- `n` bytes of a number, little-endian. -/
def toBytes : Nat → Nat → List Byte
  | 0, _ => []
  | n + 1, x => BitVec.ofNat 8 x :: toBytes n (x / 256)

/-- The number that little-endian bytes spell. -/
def ofBytes : List Byte → Nat
  | [] => 0
  | b :: bs => b.toNat + 256 * ofBytes bs

/-- The little-endian number in `n` bytes of a list from offset `o` (absent bytes read 0). -/
def leAt (bs : List Byte) (o n : Nat) : Nat := ofBytes ((bs.drop o).take n)

/-- Bytes zero-padded or cut to length `n`. -/
def fitBytes (n : Nat) (bs : List Byte) : List Byte := (bs ++ List.replicate n 0).take n

/-- A sparse table: entries in rising key order, none equal to what its key reads as unlisted. -/
abbrev Tbl (α : Type) := List (Nat × α)

/-- Read a sparse table; an unlisted key reads as its default. -/
def tblGet {α : Type} (dflt : Nat → α) : Tbl α → Nat → α
  | [], k => dflt k
  | (j, v) :: t, k => if k = j then v else tblGet dflt t k

/-- Remove a key. -/
def tblDel {α : Type} (t : Tbl α) (k : Nat) : Tbl α := t.filter (fun e => decide (e.1 ≠ k))

/-- Insert or replace a key. -/
def tblIns {α : Type} : Tbl α → Nat → α → Tbl α
  | [], k, x => [(k, x)]
  | (j, v) :: t, k, x =>
    if k = j then (k, x) :: t else if k < j then (k, x) :: (j, v) :: t else (j, v) :: tblIns t k x

/-- Write a sparse table in canonical form: writing what the key reads as unlisted removes it. -/
def tblPut {α : Type} [DecidableEq α] (dflt : Nat → α) (t : Tbl α) (k : Nat) (x : α) : Tbl α :=
  if x = dflt k then tblDel t k else tblIns t k x

/-- The canonical form, as a check: keys strictly above a bound and rising, no default entry. -/
def tblWfFrom {α : Type} [DecidableEq α] (dflt : Nat → α) : Option Nat → Tbl α → Bool
  | _, [] => true
  | b, (j, v) :: t =>
    (match b with
     | none => true
     | some i => decide (i < j)) && decide (v ≠ dflt j) && tblWfFrom dflt (some j) t

/-- The canonical form of a sparse table. -/
def tblWf {α : Type} [DecidableEq α] (dflt : Nat → α) (t : Tbl α) : Bool := tblWfFrom dflt none t

/-- Update one entry of a sparse table by a function of what it reads as. -/
def tblMod {α : Type} [DecidableEq α] (dflt : Nat → α) (t : Tbl α) (k : Nat) (f : α → α) : Tbl α :=
  tblPut dflt t k (f (tblGet dflt t k))

/-- Fold a state change over a list of indices, in the list's order. -/
def forEach {σ ι : Type} (l : List ι) (s : σ) (f : σ → ι → σ) : σ := l.foldl f s

/-- Apply a function `n` times. -/
def iter {α : Type} (f : α → α) : Nat → α → α
  | 0, x => x
  | n + 1, x => iter f n (f x)

/-- Update the elements of a list that satisfy a test. -/
def updWhere {α : Type} (p : α → Bool) (f : α → α) (l : List α) : List α :=
  l.map (fun x => if p x then f x else x)

/-- Update the first element of a list that satisfies a test. -/
def updFirst {α : Type} (p : α → Bool) (f : α → α) : List α → List α
  | [] => []
  | x :: t => if p x then f x :: t else x :: updFirst p f t

/-- Remove the first element of a list that satisfies a test. -/
def dropFirst {α : Type} (p : α → Bool) : List α → List α
  | [] => []
  | x :: t => if p x then t else x :: dropFirst p t

/-- The set bits of a mask below `n`, rising. -/
def bitsOf (n m : Nat) : List Nat := (List.range n).filter (nbit m)

/-- The mask with the given bits set. -/
def maskOf (l : List Nat) : Nat := l.foldl (fun m i => m ||| (1 <<< i)) 0

/-- The number of set bits below `n`. -/
def popCount (n m : Nat) : Nat := (bitsOf n m).length

/-- The number of trailing steps `⌈log2 n⌉`, the least `k` with `n ≤ 2^k`. -/
def clog2 (n : Nat) : Nat := if n ≤ 1 then 0 else Nat.log2 (n - 1) + 1

/-- Ceiling division. -/
def cdiv (a b : Nat) : Nat := (a + b - 1) / b

/-- Minimum of a list with a default for the empty list. -/
def listMin (d : Nat) : List Nat → Nat
  | [] => d
  | x :: t => t.foldl min x

/-- Maximum of a list, 0 for the empty list. -/
def listMax (l : List Nat) : Nat := l.foldl max 0

end Sys2Proof.Machine
end

