-- ==== Sys2Proof/Machine/Arith.lean ====
section
/-!
DEFINITION. Exact arithmetic of the number formats (spec/08_number_formats.md): decoding, rounding to
nearest even, the default and the strict mode, NaN payloads, the FP32 operations, conversion with
round to nearest or stochastic rounding, block scales, and the generator of R227.
-/

namespace Sys2Proof.Machine

/-! ## Formats (Table FMT-1) -/

/-- The element formats. -/
inductive Fmt where
  | fp32 | bf16 | fp16 | t8 | t4
deriving DecidableEq, Repr

/-- Bits of the significand with its leading one. -/
def Fmt.prec : Fmt → Nat
  | .fp32 => 24 | .bf16 => 8 | .fp16 => 11 | .t8 => 4 | .t4 => 2

/-- Exponent of the smallest subnormal step. -/
def Fmt.qmin : Fmt → Int
  | .fp32 => -149 | .bf16 => -133 | .fp16 => -24 | .t8 => -9 | .t4 => -1

/-- Largest exponent field of a finite value. -/
def Fmt.emax : Fmt → Nat
  | .fp32 => 254 | .bf16 => 254 | .fp16 => 30 | .t8 => 15 | .t4 => 3

def Fmt.ebits : Fmt → Nat
  | .fp32 => 8 | .bf16 => 8 | .fp16 => 5 | .t8 => 4 | .t4 => 2

def Fmt.bits : Fmt → Nat
  | .fp32 => 32 | .bf16 => 16 | .fp16 => 16 | .t8 => 8 | .t4 => 4

/-- The formats that flush subnormals in the default mode (R221). -/
def Fmt.long : Fmt → Bool
  | .fp32 => true | .bf16 => true | _ => false

/-- The IEEE formats, with infinities and NaN payloads. -/
def Fmt.ieee : Fmt → Bool
  | .t8 => false | .t4 => false | _ => true

/-- The canonical NaN (R220), and the NaN codes of T8 and T4. -/
def Fmt.nan : Fmt → Nat
  | .fp32 => 0x7FC0_0000 | .bf16 => 0x7FC0 | .fp16 => 0x7E00 | .t8 => 0x80 | .t4 => 0x8

/-- A decoded value: a NaN keeps its FP32 pattern; a finite value is (-1)^s x m x 2^e with m > 0. -/
inductive FV where
  | nan (bits : Nat)
  | inf (s : Bool)
  | zero (s : Bool)
  | fin (s : Bool) (m : Nat) (e : Int)
deriving DecidableEq, Repr

def cNaN : Nat := 0x7FC0_0000

/-- Exponent of the leading bit: floor(log2 m). -/
def topBit (m : Nat) : Nat := Nat.log2 m

/-- m x 2^k rounded toward zero for an integer k, and whether bits were lost. -/
def shiftTrunc (m : Nat) (k : Int) : Nat × Bool :=
  if 0 ≤ k then (m * 2 ^ k.toNat, false) else (m / 2 ^ (-k).toNat, m % 2 ^ (-k).toNat != 0)

/-- m x 2^k rounded to the nearest integer, ties to even. -/
def shiftRne (m : Nat) (k : Int) : Nat :=
  if 0 ≤ k then m * 2 ^ k.toNat
  else
    let d := 2 ^ (-k).toNat
    let q := m / d
    let r := m % d
    if 2 * r > d ∨ (2 * r = d ∧ q % 2 = 1) then q + 1 else q

/-! ## Decoding (R216, R217, R220, R222) -/

/-- Decode a code of a format; `strict` keeps long-format subnormals. -/
def decodeFmt (f : Fmt) (strict : Bool) (x : Nat) : FV :=
  let mb := f.prec - 1
  let s := nbit x (f.bits - 1)
  let ex := (x >>> mb) % 2 ^ f.ebits
  let m := x % 2 ^ mb
  if !f.ieee then
    (if x % 2 ^ f.bits = f.nan then .nan cNaN
     else if ex = 0 then (if m = 0 then .zero false else .fin s m f.qmin)
     else .fin s (m + 2 ^ mb) (f.qmin + ex - 1))
  else if ex = f.emax + 1 then
    (if m = 0 then .inf s
     else if strict then .nan ((b2n s) <<< 31 + 0x7F80_0000 + (m <<< (23 - mb)) ||| 0x40_0000)
     else .nan cNaN)
  else if ex = 0 then
    (if m = 0 then .zero s else if f.long && !strict then .zero s else .fin s m f.qmin)
  else .fin s (m + 2 ^ mb) (f.qmin + ex - 1)

/-! ## Encoding (R223, R224) -/

/-- Encode k x 2^q that lies on the grid of a format, with q its step; none on overflow. -/
def packGrid (f : Fmt) (k : Nat) (q : Int) : Option Nat :=
  let mb := f.prec - 1
  let (k, q) := if k = 2 ^ f.prec then (2 ^ mb, q + 1) else (k, q)
  if k < 2 ^ mb then some k
  else
    let ex := (q - f.qmin + 1).toNat
    if f.emax < ex then none else some (ex <<< mb + (k - 2 ^ mb))

/-- Put a sign on a magnitude code; T8 and T4 have no negative zero. -/
def withSign (f : Fmt) (s : Bool) (c : Nat) : Nat :=
  if c = 0 ∧ !f.ieee then 0 else c + (b2n s) <<< (f.bits - 1)

/-- The code of an infinity, or of an overflow, by Table FMT-5 or IEEE 754. -/
def overflowCode (f : Fmt) (ovfNan : Bool) (s : Bool) : Nat :=
  if f.ieee then withSign f s ((f.emax + 1) <<< (f.prec - 1))
  else if ovfNan then f.nan
  else withSign f s (if f = .t8 then 0x7F else 0x7)

/-- The step of a format's grid at a magnitude m x 2^e. -/
def gridStep (f : Fmt) (m : Nat) (e : Int) : Int := max (e + topBit m - (f.prec - 1 : Nat)) f.qmin

/-- A NaN in a format (R220): canonical, or in strict mode the payload shortened. -/
def nanCode (f : Fmt) (strict : Bool) (bits : Nat) : Nat :=
  if !f.ieee || !strict then f.nan
  else withSign f (nbit bits 31) ((f.emax + 1) <<< (f.prec - 1) + nfld bits (24 - f.prec) (f.prec - 1))

/-- Round a value to nearest even into a format. -/
def encodeFmt (f : Fmt) (strict ovfNan : Bool) (v : FV) : Nat :=
  match v with
  | .nan b => nanCode f strict b
  | .inf s => overflowCode f ovfNan s
  | .zero s => withSign f s 0
  | .fin s m e =>
    if f.long && !strict then
      let q := e + topBit m - (f.prec - 1 : Nat)
      let k := shiftRne m (e - q)
      if (if k = 2 ^ f.prec then q + 1 else q) < f.qmin then withSign f s 0
      else match packGrid f k q with
        | some c => withSign f s c
        | none => overflowCode f ovfNan s
    else
      let q := gridStep f m e
      match packGrid f (shiftRne m (e - q)) q with
      | some c => withSign f s c
      | none => overflowCode f ovfNan s

/-- Stochastic rounding of a value with the 16 bits R (R226). -/
def encodeStoch (f : Fmt) (strict ovfNan : Bool) (v : FV) (r : Nat) : Nat :=
  match v with
  | .fin s m e =>
    let q := gridStep f m e
    let (lo, _) := shiftTrunc m (e - q)
    let (w, _) := shiftTrunc m (e - q + 16)
    let fr := w - lo * 65536
    match packGrid f (if r < fr then lo + 1 else lo) q with
    | some c => withSign f s c
    | none => overflowCode f ovfNan s
  | v => encodeFmt f strict ovfNan v

/-- Decode FP32 bits, and write a value as FP32. -/
def f32 (strict : Bool) (x : Nat) : FV := decodeFmt .fp32 strict x
def toF32 (strict : Bool) (v : FV) : Nat := encodeFmt .fp32 strict false v

/-! ## FP32 operations (R229) -/

def invalid : FV := .nan cNaN

/-- The first NaN operand, else the result. -/
def firstNan (ops : List FV) (r : FV) : FV :=
  match ops.find? (fun v => match v with | .nan _ => true | _ => false) with
  | some v => v
  | none => r

def FV.neg : FV → FV
  | .nan b => .nan b
  | .inf s => .inf (!s)
  | .zero s => .zero (!s)
  | .fin s m e => .fin (!s) m e

/-- Signed integer significands at a common exponent. -/
def sgn (s : Bool) (m : Nat) : Int := if s then -(m : Int) else m

/-- Exact sum of two finite nonzero values. -/
def addFin (s1 : Bool) (m1 : Nat) (e1 : Int) (s2 : Bool) (m2 : Nat) (e2 : Int) : FV :=
  let e := min e1 e2
  let v := sgn s1 (m1 * 2 ^ (e1 - e).toNat) + sgn s2 (m2 * 2 ^ (e2 - e).toNat)
  if v = 0 then .zero false else .fin (decide (v < 0)) v.natAbs e

def addV (a b : FV) : FV :=
  firstNan [a, b] (match a, b with
    | .inf s, .inf t => if s = t then .inf s else invalid
    | .inf s, _ => .inf s
    | _, .inf t => .inf t
    | .zero s, .zero t => .zero (s && t)
    | .zero _, v => v
    | v, .zero _ => v
    | .fin s m e, .fin t n f => addFin s m e t n f
    | v, _ => v)

def mulV (a b : FV) : FV :=
  firstNan [a, b] (match a, b with
    | .inf s, .inf t => .inf (s != t)
    | .inf _, .zero _ => invalid
    | .zero _, .inf _ => invalid
    | .inf s, .fin t _ _ => .inf (s != t)
    | .fin s _ _, .inf t => .inf (s != t)
    | .zero s, .zero t => .zero (s != t)
    | .zero s, .fin t _ _ => .zero (s != t)
    | .fin s _ _, .zero t => .zero (s != t)
    | .fin s m e, .fin t n f => .fin (s != t) (m * n) (e + f)
    | v, _ => v)

/-- a x b + c, exact before its one rounding. -/
def fmaV (a b c : FV) : FV := firstNan [a, b, c] (addV (mulV a b) c)

/-- A quotient with a sticky low bit: enough bits that one rounding is correct. -/
def divV (a b : FV) : FV :=
  firstNan [a, b] (match a, b with
    | .inf _, .inf _ => invalid
    | .zero _, .zero _ => invalid
    | .inf s, .zero t => .inf (s != t)
    | .inf s, .fin t _ _ => .inf (s != t)
    | .zero s, .inf t => .zero (s != t)
    | .zero s, .fin t _ _ => .zero (s != t)
    | .fin s _ _, .inf t => .zero (s != t)
    | .fin s _ _, .zero t => .inf (s != t)
    | .fin s m e, .fin t n f =>
      let w := m * 2 ^ 64
      .fin (s != t) (2 * (w / n) + b2n (w % n != 0)) (e - f - 65)
    | v, _ => v)

/-- Integer square root, by bits from 2^63 down. -/
def isqrt (n : Nat) : Nat :=
  (List.range 64).foldl (fun r i => let k := r + 2 ^ (63 - i); if k * k ≤ n then k else r) 0

def sqrtV (a : FV) : FV :=
  match a with
  | .nan b => .nan b
  | .inf false => .inf false
  | .inf true => invalid
  | .zero s => .zero s
  | .fin true _ _ => invalid
  | .fin false m e =>
    let (m, e) := if e % 2 = 0 then (m, e) else (2 * m, e - 1)
    let w := m * 2 ^ 64
    let r := isqrt w
    .fin false (2 * r + b2n (r * r != w)) (e / 2 - 33)

/-- Order of numbers: -1, 0 or 1; the zeros are equal. -/
def cmpV (a b : FV) : Int :=
  let v (x : FV) : Int × Nat × Int := match x with
    | .inf s => (if s then -2 else 2, 0, 0)
    | .fin s m e => (if s then -1 else 1, m, e)
    | _ => (0, 0, 0)
  let (sa, ma, ea) := v a
  let (sb, mb, eb) := v b
  if sa ≠ sb then (if sa < sb then -1 else 1)
  else if sa = 0 ∨ sa = 2 ∨ sa = -2 then 0
  else
    let e := min ea eb
    let x := sgn (decide (sa < 0)) (ma * 2 ^ (ea - e).toNat)
    let y := sgn (decide (sb < 0)) (mb * 2 ^ (eb - e).toNat)
    if x < y then -1 else if x = y then 0 else 1

def FV.isNan : FV → Bool
  | .nan _ => true
  | _ => false

def FV.signed : FV → Bool
  | .inf s => s
  | .zero s => s
  | .fin s _ _ => s
  | .nan b => nbit b 31

/-- min and max order -0 below +0. -/
def minV (a b : FV) : FV :=
  firstNan [a, b] (if cmpV a b < 0 ∨ (cmpV a b = 0 ∧ a.signed) then a else b)
def maxV (a b : FV) : FV :=
  firstNan [a, b] (if 0 < cmpV a b ∨ (cmpV a b = 0 ∧ !a.signed) then a else b)

def fadd (st : Bool) (a b : Nat) : Nat := toF32 st (addV (f32 st a) (f32 st b))
def fsub (st : Bool) (a b : Nat) : Nat :=
  toF32 st (firstNan [f32 st a, f32 st b] (addV (f32 st a) (f32 st b).neg))
def fmul (st : Bool) (a b : Nat) : Nat := toF32 st (mulV (f32 st a) (f32 st b))
def fdiv (st : Bool) (a b : Nat) : Nat := toF32 st (divV (f32 st a) (f32 st b))
def fsqrt (st : Bool) (a : Nat) : Nat := toF32 st (sqrtV (f32 st a))
def ffma (st : Bool) (a b c : Nat) : Nat := toF32 st (fmaV (f32 st a) (f32 st b) (f32 st c))
def fminimum (st : Bool) (a b : Nat) : Nat := toF32 st (minV (f32 st a) (f32 st b))
def fmaximum (st : Bool) (a b : Nat) : Nat := toF32 st (maxV (f32 st a) (f32 st b))

/-- abs and negate change only the sign bit; a NaN by R220. -/
def fabs (st : Bool) (a : Nat) : Nat :=
  match f32 st a with
  | .nan b => if st then b % 2 ^ 31 else cNaN
  | v => toF32 st v % 2 ^ 31
def fneg (st : Bool) (a : Nat) : Nat :=
  match f32 st a with
  | .nan b => if st then b ^^^ 2 ^ 31 else cNaN
  | v => toF32 st v ^^^ 2 ^ 31

/-- sign (R229): +1.0, -1.0 or +0. -/
def fsign (st : Bool) (a : Nat) : Nat :=
  match f32 st a with
  | .nan b => if st then b else cNaN
  | .zero _ => 0
  | v => if v.signed then 0xBF80_0000 else 0x3F80_0000

def feq (st : Bool) (a b : Nat) : Bool :=
  let x := f32 st a; let y := f32 st b
  !x.isNan && !y.isNan && cmpV x y = 0
def flt (st : Bool) (a b : Nat) : Bool :=
  let x := f32 st a; let y := f32 st b
  !x.isNan && !y.isNan && cmpV x y < 0
def fle (st : Bool) (a b : Nat) : Bool :=
  let x := f32 st a; let y := f32 st b
  !x.isNan && !y.isNan && cmpV x y ≤ 0

/-- NaN or infinity (R230). -/
def nonFinite (x : Nat) : Bool := nfld x 23 8 == 255

/-- A signed integer to FP32, one rounding. -/
def i2f (st : Bool) (i : Int) : Nat :=
  if i = 0 then 0 else toF32 st (.fin (decide (i < 0)) i.natAbs 0)

/-- FP32 to a signed integer of `w` bits: truncation, saturating; a NaN gives 0 (the instruction's own
rule says so where it differs). -/
def f2i (st : Bool) (w : Nat) (x : Nat) : Int :=
  let lo : Int := -(2 ^ (w - 1) : Nat)
  let hi : Int := (2 ^ (w - 1) : Nat) - 1
  match f32 st x with
  | .nan _ => 0
  | .inf s => if s then lo else hi
  | .zero _ => 0
  | .fin s m e =>
    let v := sgn s (shiftTrunc m e).1
    if v < lo then lo else if hi < v then hi else v

/-! ## Block scales (R218, R225) -/

/-- A value times 2^k. -/
def FV.scale (k : Int) : FV → FV
  | .fin s m e => .fin s m (e + k)
  | v => v

/-- The block scale of 32 FP32 inputs for T8 or T4. -/
def blockScale (f : Fmt) (vs : List FV) : Nat :=
  let emax : Int := if f = .t8 then 8 else 2
  if vs.any FV.isNan then 0xFF
  else
    let mags := vs.filter (fun v => match v with | .fin _ _ _ => true | _ => false)
    match mags with
    | [] => 127
    | v :: t =>
      let a := t.foldl (fun b x =>
        let pos (y : FV) : FV := match y with | .fin _ m e => .fin false m e | y => y
        if cmpV (pos b) (pos x) < 0 then x else b) v
      match a with
      | .fin _ m e =>
        let x := e + topBit m - emax
        let max_ : FV := if f = .t8 then .fin false 480 0 else .fin false 6 0
        let x := if 0 < cmpV (.fin false m (e - x)) max_ then x + 1 else x
        (min (max (x + 127) 0) 254).toNat
      | _ => 127

/-! ## The generator (R227) -/

def m64 (x : Nat) : Nat := x % 2 ^ 64

def mix64 (z : Nat) : Nat :=
  let z := z ^^^ (z >>> 32)
  let z := m64 (z * 0xA3B1_9535_4A39_B70D)
  let z := z ^^^ (z >>> 29)
  let z := m64 (z * 0xE7C2_8F1D_5B04_C2A9)
  z ^^^ (z >>> 32)

/-- draw(seed, step, tensor, index, stream). -/
def draw (seed step tensor index stream : Nat) : Nat :=
  let c0 := index % 2 ^ 40 + (tensor % 2 ^ 14) <<< 40 + (stream % 256) <<< 54
  let h := mix64 (m64 seed ^^^ m64 (step % 2 ^ 32 * 0xC3A5_7E19_B24D_0F61))
  let h := mix64 (h ^^^ m64 (c0 * 0x9B27_D4E1_5A3C_86F5))
  mix64 (m64 (h + 0x4E8D_2B71_C6F0_A93B))

/-- The 16 bits R of stochastic rounding out of a draw; stepping A1 took another field for T4 (R228). -/
def stochBits (stepA1 : Bool) (f : Fmt) (d : Nat) : Nat :=
  if stepA1 && f = .t4 then nfld d 17 16 else nfld d 16 16

/-! ## Chunks in memory (R219) -/

/-- Bytes of CE elements (Table FMT-4). -/
def chunkBytes (f : Fmt) (scaled : Bool) (ce : Nat) : Nat :=
  ce * f.bits / 8 + (if scaled ∧ !f.ieee then 16 * cdiv ce 512 else 0)

/-- Pack codes of a format, in element order. -/
def packCodes (f : Fmt) : List Nat → List Byte
  | [] => []
  | [c] => if f = .t4 then [BitVec.ofNat 8 (c % 16)] else toBytes (f.bits / 8) c
  | c :: d :: t => if f = .t4 then BitVec.ofNat 8 (c % 16 + d % 16 * 16) :: packCodes f t
                   else toBytes (f.bits / 8) c ++ toBytes (f.bits / 8) d ++ packCodes f t

/-- Element `i` of bytes in a format. -/
def codeAt (f : Fmt) (bs : List Byte) (i : Nat) : Nat :=
  if f = .t4 then (leAt bs (i / 2) 1 >>> (4 * (i % 2))) % 16 else leAt bs (i * (f.bits / 8)) (f.bits / 8)

/-- Convert a chunk of FP32 codes into a format: plain or with block scales, by nearest even or with
the stochastic bits of each element. -/
def convertChunk (f : Fmt) (scaled strict ovfNan : Bool) (stoch : Option (Nat → Nat)) (xs : List Nat) : List Byte :=
  let vs := xs.map (f32 strict)
  let conv (i : Nat) (v : FV) : Nat :=
    match stoch with
    | none => encodeFmt f strict ovfNan v
    | some r => encodeStoch f strict ovfNan v (r i)
  if scaled ∧ !f.ieee then
    let nb := cdiv xs.length 32
    let scales := (List.range nb).map (fun b => blockScale f ((vs.drop (32 * b)).take 32))
    let codes := (List.range vs.length).map (fun i =>
      let e := scales.getD (i / 32) 127
      if e = 0xFF then f.nan else conv i ((vs.getD i (.zero false)).scale (127 - e)))
    packCodes f codes ++ fitBytes (16 * cdiv xs.length 512) (scales.map (BitVec.ofNat 8))
  else packCodes f ((List.range vs.length).map (fun i => conv i (vs.getD i (.zero false))))

/-- Decode CE elements of a chunk to FP32 codes. -/
def decodeChunk (f : Fmt) (scaled strict : Bool) (ce : Nat) (bs : List Byte) : List Nat :=
  (List.range ce).map (fun i =>
    let v := decodeFmt f strict (codeAt f bs i)
    if scaled ∧ !f.ieee then
      let e := leAt bs (ce * f.bits / 8 + i / 32) 1
      if e = 0xFF then cNaN else toF32 strict (v.scale (e - 127 : Int))
    else toF32 strict v)

end Sys2Proof.Machine
end

