-- ==== Sys2Proof/Machine/State.lean ====
section
/-!
DEFINITION. The state of the block: every register and window word (`bar0`, keyed by BAR0 byte
address), every memory, and every piece of state without an address that the chapters of spec/ give
the device, as plain data; with the queue of waiting commands and the state right after reset.
INVENTORY.md lists each piece with its rule.
-/

namespace Sys2Proof.Machine

/-- No command of this model stops the block with a fault: every error of the part is an event of
its fault collector (R346), a next state. `internal` is raised by nobody. Safe. -/
inductive Fault where
  | internal
deriving DecidableEq, Repr

/-- `notModelled` is answered by an arm of `exec` whose command has no meaning yet. Safe. -/
inductive Refusal where
  | notModelled (mnemonic : String)
deriving DecidableEq, Repr

/-- What the part is by its fuses (R1, R12, R397, R420). -/
structure Fuse where
  /-- grade -M (1.40 GHz) instead of -X -/
  gradeM : Bool := false
  /-- stepping A1 instead of B0 -/
  stepA1 : Bool := false
  svnMin : Nat := 0
  serial : Nat := 0
  /-- array dies retired by factory test (R12) -/
  retired : List Nat := []
  /-- indices 0-3 of signing-key hashes revoked by fuse (R397) -/
  revoked : List Nat := []
deriving DecidableEq, Repr

/-- A packet: the header of Table LNK-2, the payload and the tail of Table LNK-4. -/
structure Pkt where
  typ : Nat := 0
  vc : Nat := 0
  epoch : Nat := 0
  dstDev : Nat := 0
  dstPort : Nat := 0
  srcDev : Nat := 0
  srcPort : Nat := 0
  len : Nat := 0
  domain : Nat := 0
  ticket : Nat := 0
  stream : Nat := 0
  alive : Nat := 0
  addr : Nat := 0
  chkSel : Nat := 0
  isFirst : Bool := false
  isLast : Bool := false
  ackReq : Bool := false
  reissue : Bool := false
  reform : Bool := false
  opTag : Nat := 0
  contrib : Nat := 0
  chunk : Nat := 0
  hopLocal : Bool := false
  hdrCheck : Nat := 0
  payload : List Byte := []
  check : Nat := 0
  poison : Bool := false
  code : Nat := 0
deriving DecidableEq, Repr

/-- A packet as an endpoint or a switch input holds it: with the input by which it came (R122) and
whether its payload check passed at the ingress (R336). -/
structure InPkt where
  pkt : Pkt := {}
  inp : Nat := 0
  chkOk : Bool := true
  /-- under a SEND or MCAST entry of the schedule: the egress mask the entry names (R126) -/
  mask : Option Nat := none
deriving DecidableEq, Repr

/-- The subject of a fault record (Table FLT-8, words 2 and 3). -/
structure Subj where
  domain : Option Nat := none
  slice : Option Nat := none
  link : Option Nat := none
  port : Option Nat := none
  lanes : Nat := 0
  stack : Option Nat := none
  stream : Option Nat := none
  die : Option Nat := none
  opTag : Option Nat := none
  chunk : Nat := 0
deriving DecidableEq, Repr

/-- An event with its stamp (R346). -/
structure Event where
  src : Nat := 0
  subj : Subj := {}
  /-- detail words 4 to 7 of Table FLT-9 -/
  d4 : Nat := 0
  d5 : Nat := 0
  d6 : Nat := 0
  d7 : Nat := 0
  slot : Nat := 0
  cyc : Nat := 0
  forced : Bool := false
  fw : Bool := false
  /-- another event had the same stamp -/
  same : Bool := false
  /-- severity, level and reaction from the source's entry at raising (Table FLT-8) -/
  sev : Nat := 0
  level : Nat := 0
  react : Nat := 0
deriving DecidableEq, Repr

/-- A source waiting to be recorded (R351): its first event and how many it stands for. -/
structure PendSrc where
  src : Nat := 0
  first : Event := {}
  count : Nat := 0
deriving DecidableEq, Repr

/-- The fault collector's state without an address (R346-R362). -/
structure Flt where
  inflight : List Event := []
  pend : List PendSrc := []
  /-- source last written; 1,023 after reset (R351) -/
  lastSrc : Nat := 1023
  afterDrop : Bool := false
  /-- reaction codes and events whose reactions are due at the next boundary (R355) -/
  due : List (Nat × Event) := []
  /-- source that asks for the safe state (R355, R360) -/
  safeReq : Option Nat := none
  /-- slot of boundary B of an orderly stop (R361) -/
  orderlyAt : Option Nat := none
  orderlySrc : Nat := 0
  /-- slot in which the entry of the safe state started, and the source that caused it (R362) -/
  safeAt : Option Nat := none
  /-- the safe-state steps already done (R362) -/
  safeStep : Nat := 0
  cutOff : Nat := 0
  parityTest : Bool := false
  /-- collector word (FLT block offset) that fails parity -/
  badWord : Option Nat := none
  /-- fences waiting for the die's confirmation (R355) -/
  fencing : List Nat := []
  /-- fenced dies since the last device reset (Table MGT-5) -/
  fenced : List Nat := []
  /-- MSI-X vectors already sent in this slot (R357) -/
  msixSent : List Nat := []
  /-- sources (with a key) that raise at most once in a slot and have raised in this one -/
  onceSlot : List (Nat × Nat) := []
deriving DecidableEq, Repr

/-- One measured exchange with the parent (R36). -/
structure SyncSample where
  offset : Int := 0
  delay : Int := 0
  count : Nat := 0
deriving DecidableEq, Repr

/-- What a neighbour last announced of itself (R35, R36). -/
structure Neighbour where
  link : Nat := 0
  dev : Nat := 0
  depth : Nat := 0
  aligned : Bool := false
  root : Bool := false
deriving DecidableEq, Repr

/-- Meridian logic without an address (R34-R40). -/
structure Mer where
  /-- slots since power-up: the time base of every limit given in slots (model's own, log entry 2) -/
  slots : Nat := 0
  /-- ALIGN_GO accepted -/
  goDone : Bool := false
  /-- the count advances at each boundary -/
  counting : Bool := false
  /-- the root starts its count at 0 in the next slot (R35) -/
  startNext : Bool := false
  samples : List SyncSample := []
  /-- position of the slot edge in steps of 62.5 ps (R36) -/
  edge : Int := 0
  /-- remaining offset in units of 1/65,536 slot while slewing (R38) -/
  slew : Option Int := none
  neighbours : List Neighbour := []
  /-- slot in which the last exchange with the parent started -/
  lastSync : Nat := 0
  /-- exchange in progress: link and t1 -/
  asked : Option (Nat × Nat) := none
  /-- device number of the root this device descends from (R40) -/
  rootDev : Option Nat := none
  /-- SYNC packets delivered to the Meridian logic (R126) -/
  rx : List InPkt := []
  /-- latched high half of MER_NOW per requester: route, and the fabric peer's key (R34) -/
  latch : List ((Nat × Nat) × Nat) := []
deriving DecidableEq, Repr

/-- Receive and transmit state of one lane (R64-R85). -/
structure LaneSt where
  /-- last control word with a good CHECK, and how many consecutive frames carried it -/
  word : Nat := 0
  same : Nat := 0
  /-- transmit taps c(-2), c(-1), c(+1), c(+2) in 1/64 (R68) -/
  tapM2 : Int := 0
  tapM1 : Int := 0
  tapP1 : Int := 0
  tapP2 : Int := 0
  /-- TAP_STS of the next frame -/
  tapSts : Nat := 0
  /-- own receiver adapted (R70) -/
  adapted : Bool := false
  /-- consecutive frames with error-free filler (Table LAN-3, LOCK) -/
  filler : Nat := 0
  /-- own lane deskewed -/
  deskewed : Bool := false
  /-- consecutive ALIGN_READY frames received (R91) -/
  readyRx : Nat := 0
  /-- FEC_SYM window (R75): symbols corrected in the window, and the raised flag -/
  fecWin : Nat := 0
  fecHeld : Bool := false
  fecFrom : Nat := 0
  /-- slot at which a tracked offset above 10 ppm began (R64), and whether it has been raised -/
  refSince : Option Nat := none
  refRaised : Bool := false
  /-- pattern checker: consecutive good bits, errors of the last 1,024 bits (1 = error), bits below 2^20 -/
  chkGood : Nat := 0
  chkWin : List Bool := []
  chkBits : Nat := 0
  /-- received bits that predict the next one (checker register) -/
  chkReg : Nat := 0
  chkPos : Nat := 0
  /-- pattern generator register (R81) -/
  genReg : Nat := 0
  /-- scans in a row below the margin thresholds (R84) -/
  lowScans : Nat := 0
  /-- slot of the last automatic scan -/
  lastScan : Nat := 0
  /-- symbols being inverted by the injector now -/
  injecting : Nat := 0
deriving DecidableEq, Repr

/-- A block kept for replay: its sequence number, its packet and whether it was sent (R104). -/
structure TxBlock where
  bseq : Nat := 0
  pkts : List Pkt := []
deriving DecidableEq, Repr

/-- State of one link without an address (R66-R119). -/
structure LinkSt where
  lanes : Tbl LaneSt := []
  /-- rates removed from RATE_CAP after a failed EQ (R70) -/
  removed : Nat := 0
  /-- slot in which EQ was entered at the present rate; slot in which training or retune began -/
  eqSince : Nat := 0
  trainSince : Nat := 0
  /-- the rate chosen in DETECT, one-hot (R69) -/
  rate : Nat := 0
  /-- the state of Table LAN-3 that a retune is in: EQ, LOCK or ALIGN (R78) -/
  sub : Nat := 0
  /-- cause met while training that only the bound turns into a failure (R71) -/
  hint : Nat := 0
  /-- frames sent with ALIGN_READY set -/
  readyTx : Nat := 0
  /-- slot in which the idle counter started (R76) -/
  idleSince : Nat := 0
  wakeSince : Nat := 0
  /-- waking by fast exit or retune began in idle, so UP returns without CAPS (R77) -/
  fromIdle : Bool := false
  /-- link held up for its partner's wake until the next idle decision (R79) -/
  partnerWoken : Bool := false
  /-- idle decision waiting for output and replay buffers to empty (R53) -/
  idleDue : Bool := false
  squelched : Bool := true
  -- link replay (R104-R108)
  txBseq : Nat := 0
  stored : List TxBlock := []
  /-- stored blocks from this one on are still to be re-sent -/
  attempts : Nat := 0
  episodeFirst : Option Nat := none
  episodeNs : Nat := 0
  attemptNs : Nat := 0
  nakAck : Option Nat := none
  expect : Nat := 0
  /-- a block has been accepted since UP: ACK is no longer 0xFFFF (Table LNK-1) -/
  anyGood : Bool := false
  nakState : Bool := false
  nakNs : Nat := 0
  /-- descrambler state of each lane; empty at a stream's start (R90) -/
  scr : List Nat := []
  /-- the next block is the first of its stream (R91) -/
  firstBlock : Bool := false
  -- per-hop credits (R103)
  lastCred : List Nat := []
  credits : List Nat := []
  returned : List Nat := []
  -- capability exchange (R118)
  capsSince : Nat := 0
  capsSeq : Nat := 0
  capsEcho : Nat := 0
  /-- header words 1 to 6 of a CAPS block received and not yet taken -/
  capsRx : List Nat := []
  capsLast : List Nat := []
  capsSame : Nat := 0
  capsCred : List Nat := []
  rttMin : Nat := 0
  rttCount : Nat := 0
  capsDone : Bool := false
  -- flit stream (R94, R95)
  partial_ : List Byte := []
  resync : Bool := false
  rxq : List InPkt := []
  /-- slot at which AUTO_RETRAIN restarts training (R108) -/
  retrainAt : Option Nat := none
  /-- the trained rate is below the domains' reservations: no scheduled traffic (R297) -/
  resvOver : Bool := false
  /-- the link is DRAINING since this slot (R304) -/
  drainSince : Nat := 0
deriving DecidableEq, Repr

/-- A packet in an output buffer (R139, R141). -/
structure OutPkt where
  pkt : Pkt := {}
  inp : Nat := 0
  slotIn : Nat := 0
  chkOk : Bool := true
  /-- an uncorrectable buffer error poisons the packet (R141) -/
  ue : Bool := false
deriving DecidableEq, Repr

/-- One link output: its buffer in order of entry, the packet and the Zenith flit chosen next, the
deficits and the round pointer of R140. -/
structure OutSt where
  q : List OutPkt := []
  cur : Option OutPkt := none
  zcur : Option OutPkt := none
  deficit : List Nat := [0, 0, 0, 0, 0, 0, 0, 0]
  ptr : Nat := 0
deriving DecidableEq, Repr

/-- Switch state without an address (R122-R146). -/
structure Sw where
  go : Bool := false
  /-- packets offered by the slices (inputs 48-111) and the control dies (112), by input -/
  tx : Tbl (List InPkt) := []
  out : Tbl OutSt := []
  /-- packets delivered: slice n at n, control dies at 64 -/
  rx : Tbl (List InPkt) := []
  /-- slot of the swap that started each domain's draining (R133) -/
  drainFrom : Tbl Nat := []
  /-- source ports with an open ZENITH chunk: (device, port) (R146) -/
  zenithOpen : List (Nat × Nat) := []
  /-- routing-table word addresses whose parity is bad (R148) -/
  badParity : List Nat := []
  /-- unscheduled units each slice has sent into link outputs in this slot (R307, SLC_QUOTA) -/
  txUsed : Tbl Nat := []
deriving DecidableEq, Repr

/-- What has left the device, newest first (the model's own observation list, log entry 7). -/
inductive Sent where
  | packet (port : Nat) (p : Pkt)
  /-- a training frame: the control words of the eight lanes -/
  | frame (link : Nat) (words : List Nat)
  /-- a CAPS block: header words 1 to 6 -/
  | caps (link : Nat) (words : List Nat)
  | msix (vector : Nat)
  | ibi (byte : Nat)
  | i3c (bytes : List Byte)
  | reply (route mbox : Nat) (bytes : List Byte)
  | unsupported (route : Nat) (addr : Nat)
  | readData (route : Nat) (value : Nat)
  | jtag (bits : Nat)
  /-- a memory hub's answer to a request: device address, bytes and poison -/
  | hub (addr : Nat) (bytes : List Byte) (poison : Bool)
  /-- the pool manager's answer to a requester: owner, status and the buffer (pool, class, number) -/
  | buffer (owner : Nat) (status : Nat) (buf : Option (Nat × Nat × Nat))
deriving DecidableEq, Repr

/-- The host port without an address (R393, R414-R416). -/
structure HostPort where
  /-- PERST_N asserted -/
  perst : Bool := true
  /-- the LTSSM has left Detect since PERST_N was deasserted -/
  training : Bool := false
  /-- a host is connected to the port (log entry 13) -/
  connected : Bool := true
deriving DecidableEq, Repr

/-- The header of a bank (Table MER-4), given with BANK_CHECK. -/
structure BankHdr where
  kind : Nat := 0
  period : Nat := 0
  repeat_ : Nat := 0
  linkUse : Nat := 0
deriving DecidableEq, Repr

/-- Meridian state of one domain without an address (R41-R57). -/
structure DomMer where
  /-- slot at which the live bank's first period started -/
  start : Nat := 0
  /-- the live bank's last repeat has ended and MER_TABLE_END has been raised -/
  ended : Bool := false
  /-- the boundary after the present slot is a step boundary -/
  mark : Bool := false
  /-- slot from which every slice of the domain executes each entry as IDLE (R55) -/
  forcedFrom : Option Nat := none
  /-- the bank that a BANK_CHECK now running names (R47) -/
  checking : Option Nat := none
deriving DecidableEq, Repr

/-- A stream entry of an endpoint's alive screen (R110): bit i of `seen` and `prog` stands for the
value H - i; `adv` is how far H has moved since the entry was created. -/
structure AliveEnt where
  dev : Nat := 0
  port : Nat := 0
  stream : Nat := 0
  h : Nat := 0
  seen : Nat := 0
  prog : Nat := 0
  adv : Nat := 0
  last : Nat := 0
deriving DecidableEq, Repr

/-- A cached reply (R113). -/
structure CachedReply where
  dev : Nat := 0
  port : Nat := 0
  stream : Nat := 0
  alive : Nat := 0
  rsp : Pkt := {}
deriving DecidableEq, Repr

/-- An open transaction of an endpoint (R114): its request, the link its request left on, its timer
in microseconds, and whether it has been re-issued. -/
structure Txn where
  ep : Nat := 0
  req : Pkt := {}
  hop : Option Nat := none
  timer : Nat := 50
  reissued : Bool := false
deriving DecidableEq, Repr

/-- A completed transaction, with its status. -/
structure TxnDone where
  ep : Nat := 0
  req : Pkt := {}
  code : Nat := 0
  data : List Byte := []
deriving DecidableEq, Repr

/-- End-to-end transport state (R109-R116); endpoints are slice n at n, the control dies at 64. -/
structure Net where
  alive : Tbl (List AliveEnt) := []
  cache : Tbl (List CachedReply) := []
  txns : List Txn := []
  /-- transactions completed and not yet taken by the logic that issued them -/
  done : List TxnDone := []
  /-- next ALIVE of each stream an endpoint sends, by endpoint x 65,536 + stream -/
  nextAlive : Tbl Nat := []
deriving DecidableEq, Repr

/-- DRAM state without an address (R275-R282). -/
structure MemSt where
  /-- half-granules (device address / 64) marked poisoned (R278) -/
  poison : Tbl Bool := []
  /-- retired frames and the spare each is redirected to (R280) -/
  retired : Tbl (Option Nat) := []
  /-- half-granules corrected since the scrub period began -/
  ceSeen : List Nat := []
  /-- uncorrectable errors of each stack since the scrub period began; retirements attributed to it -/
  ueCount : Tbl Nat := []
  retCount : Tbl Nat := []
  /-- next granule of the patrol scrubber (R279) -/
  scrubPos : Nat := 0
  /-- the stack that is or was relocated, the used frames as ranges at its failure, and the
  relocation frames as ranges (R282) -/
  reloc : Option Nat := none
  used : List (Nat × Nat) := []
  relocAt : List (Nat × Nat) := []
  /-- half-granules of the relocated stack refilled since -/
  filled : Tbl Bool := []
  /-- refresh group in its window, and the window's end in nanoseconds; requests it holds (R275) -/
  refresh : Option (Nat × Nat) := none
  held : List DramReq := []
  /-- DRAM is in self-refresh (R362) -/
  selfRefresh : Bool := false
  /-- staging words (slice x 36 MiB / 32 + offset / 32) with an uncorrectable error (R284) -/
  stagePoison : Tbl Bool := []
deriving DecidableEq, Repr

/-- A held buffer (R286): pool 0-63 the slice's, 64 the management pool; its class and number, its
owner, when it was taken (own count and Meridian slot), and whether POOL_LEAK has named it. -/
structure HeldBuf where
  pool : Nat := 0
  cls : Nat := 0
  idx : Nat := 0
  owner : Nat := 0
  since : Nat := 0
  slot : Nat := 0
  aged : Bool := false
deriving DecidableEq, Repr

/-- A requester that waits for a buffer (R287). -/
structure Waiter where
  owner : Nat := 0
  size : Nat := 0
  since : Nat := 0
deriving DecidableEq, Repr

/-- The pool manager: held buffers, and the wait list of each slice and (64) the management pool. -/
structure Pools where
  held : List HeldBuf := []
  waiters : Tbl (List Waiter) := []
deriving DecidableEq, Repr

/-- The state of one chunk record (R189). -/
structure ChunkSt where
  stamp : Nat := 0
  prev : Nat := 0
  cur : Bool := false
deriving DecidableEq, Repr

/-- An owned chunk: its tensor, its local index and its global number. -/
structure ChunkId where
  t : Nat := 0
  k : Nat := 0
  g : Nat := 0
deriving DecidableEq, Repr

/-- What a step accumulates between two step boundaries (R196-R198, R206): per global chunk the sum
of squares and the slice that placed it, per tensor the partial, global and factor, the tensors
skipped, the open linked operations and whether one was abandoned. -/
structure StepAcc where
  sumsq : Tbl (Option (Nat × Nat)) := []
  partials : Tbl (Option Nat) := []
  globals : Tbl (Option Nat) := []
  factors : Tbl (Option Nat) := []
  skipped : List Nat := []
  linked : List Nat := []
  any : Bool := false
  /-- an operation of the step has been abandoned -/
  lost : Bool := false
deriving DecidableEq, Repr

/-- The parameter store of one domain without an address (R184-R211). -/
structure PstDom where
  chunks : Tbl ChunkSt := []
  /-- active hyperparameter sets, by 8 x set + word (R199) -/
  hset : Tbl W64 := []
  /-- busy gradient slots, and the chunk each holds (R191) -/
  busy : Tbl (Option ChunkId) := []
  acc : StepAcc := {}
  /-- of operations that opened after the boundary at which the step became PENDING -/
  nxt : StepAcc := {}
  /-- a pause waits for the next step boundary (R208) -/
  pauseDue : Bool := false
  /-- that boundary has come, and the pause waits for a PENDING step to be decided (R208) -/
  pauseNow : Bool := false
  /-- step fingerprint accumulated so far (R374) -/
  fp : Nat := 0
deriving DecidableEq, Repr

/-- An update program that runs on a slice (R194): its chunk (the first one of a whole tensor), the
chunks it updates, its start, and whether it is a user's program. -/
structure RunUpd where
  d : Nat := 0
  job : ChunkId := {}
  chunks : List ChunkId := []
  since : Nat := 0
  user : Bool := false
  faulted : Bool := false
deriving DecidableEq, Repr

/-- The update dispatcher of a slice (R193, R194): its queue, what runs, and whether an UPDATE entry
is active. -/
structure UpdSt where
  queue : List ChunkId := []
  running : Option RunUpd := none
  active : Bool := false
deriving DecidableEq, Repr

/-- A run of elements (or bytes) held from an offset on. -/
structure Seg where
  off : Nat := 0
  data : List Nat := []
deriving DecidableEq, Repr

/-- Something a slice is to send of a chunk: kind 0 the partial to the ring successor, 1 a copy along
the ring, 2 copies down the edge; CONTRIB as sent (R157, R168); its bytes; whether the signatures agree
or need not (R169); how many of its packets are on their way, and the links already served. -/
structure OutObj where
  kind : Nat := 0
  contrib : Nat := 0xFFF
  bytes : List Byte := []
  ok : Bool := false
  sent : Nat := 0
  doneMask : Nat := 0
  done : Bool := false
  poison : Bool := false
  /-- received on VC4, so sent onward on VC4 (R165) -/
  vc4 : Bool := false
deriving DecidableEq, Repr

/-- One chunk of an open operation (R161-R168). -/
structure ChunkOp where
  leaves : Tbl (List Seg) := []
  part : List Seg := []
  /-- bytes received in MCAST packets, by CONTRIB (15 for 0xFFF) -/
  vars : Tbl (List Seg) := []
  varsDone : List Nat := []
  /-- slots (own count) of the first arrival and of the window's end; Meridian slot of the first input -/
  first : Option Nat := none
  firstMer : Nat := 0
  nodes : Tbl (Option (List Nat)) := []
  /-- the hop's addition is done -/
  summed : Bool := false
  result : Option (List Nat) := none
  placed : Bool := false
  srcRead : Bool := false
  reform : Bool := false
  partVc4 : Bool := false
  /-- sources of ZENITH packets by leaf: device x 256 + port, and the input (R170) -/
  zsrc : Tbl (Option (Nat × Nat × Bool)) := []
  outs : List OutObj := []
  complete : Bool := false
  /-- slot in which the slice sent its EXCL record, and what it reported missing (R325) -/
  exclSent : Option (Nat × Nat) := none
  /-- a staging word of the chunk's place has an uncorrectable error: it is not completed (R284) -/
  stuck : Bool := false
deriving DecidableEq, Repr

/-- A sender of a dynamic operation (R160): device, port, the link its packets arrived by with LOCAL
set, and the highest chunk it may send. -/
structure Sender where
  dev : Nat := 0
  port : Nat := 0
  via : Option Nat := none
  limit : Nat := 0
deriving DecidableEq, Repr

/-- A contribution held in a pool buffer until its window opens (Table COL-4, row 7). -/
structure Early where
  x : InPkt := {}
  link : Nat := 0
  from_ : Nat := 0
  pool : Nat := 0
  cls : Nat := 0
  idx : Nat := 0
deriving DecidableEq, Repr

/-- An open operation of a slice without its descriptor words (R152-R181). -/
structure OpSt where
  order : Nat := 0
  /-- opened by a FIRST entry -/
  sched : Bool := false
  /-- its LAST entry has ended -/
  late : Bool := false
  /-- step it is linked to; committed step at its opening (R204, R211) -/
  step : Option Nat := none
  committed : Nat := 0
  chunks : Tbl ChunkOp := []
  /-- lowest chunk whose place is not yet freed -/
  low : Nat := 0
  /-- leaves excluded by MEMBER_EXCLUDE -/
  oper : List Nat := []
  /-- contributors excluded: leaf and the first chunk without it -/
  excluded : List (Nat × Nat) := []
  senders : List Sender := []
  succCredit : Nat := 0
  /-- edge link of each contributor's leaf, where one has been seen -/
  linkOf : Tbl (Option Nat) := []
  early : List Early := []
  /-- ACCEPT windows of this opening: link, first chunk, and the last slot once closed -/
  windows : List (Nat × Nat × Option Nat) := []
  /-- last SEND and MCAST entries met: link and VC, mask and VC -/
  lastSend : Option (Nat × Nat) := none
  lastMcast : Option (Nat × Nat) := none
deriving DecidableEq, Repr

/-- An active schedule entry of a slice (R42): its index in the live bank, its last slot, and what is
left of its UNITS in this slot. -/
structure ActiveEnt where
  idx : Nat := 0
  last : Nat := 0
  budget : Nat := 0
deriving DecidableEq, Repr

/-- The sequencer of a slice without an address (R42, R43, R45). -/
structure SeqSt where
  joined : Bool := false
  /-- this period's entries run as IDLE (R55, R208) -/
  idle : Bool := false
  active : List ActiveEnt := []
  /-- the mark log: value and Meridian count, newest first (Table MER-3) -/
  marks : List (Nat × Nat) := []
deriving DecidableEq, Repr

/-- A slice record of the twin (Table TWN-2). -/
structure TwinRec where
  kind : Nat := 0
  attempt : Nat := 0
  checks : Bool := false
  variant : Nat := 0
  opTag : Nat := 0
  chunk : Nat := 0
  value : Nat := 0
  ticket : Nat := 0
  local_ : Nat := 0
  step : Nat := 0
deriving DecidableEq, Repr

/-- Something held for comparison (R320): a chunk's object, or a record update; its own signature and
checks at the first attempt and at the re-run; when its record was sent; whether it left uncompared. -/
structure HeldObj where
  n : Nat := 0
  d : Nat := 0
  update : Bool := false
  opTag : Nat := 0
  chunk : Nat := 0
  variant : Nat := 0
  kind : Nat := 0
  ticket : Nat := 0
  job : ChunkId := {}
  step : Nat := 0
  sig : Nat := 0
  checks : Bool := false
  attempt : Nat := 0
  sig1 : Nat := 0
  checks1 : Bool := false
  twin0 : Option (Nat × Bool) := none
  twin1 : Option (Nat × Bool) := none
  since : Nat := 0
  firstMer : Nat := 0
  left : Bool := false
deriving DecidableEq, Repr

/-- The twin's last HELLO (Table TWN-1). -/
structure Hello where
  dev : Nat := 0
  side : Nat := 0
  solo : Bool := false
  sig : Nat := 0
deriving DecidableEq, Repr

/-- The twin's record of a domain (Table TWN-1, DOMAIN). -/
structure TwinDom where
  mode : Nat := 0
  primary : Bool := false
  shard : Nat := 0
  prog : Nat := 0
deriving DecidableEq, Repr

/-- A re-silver in progress (R329): the domain, whether this device is the source, the next record and
the next byte of the rest to copy, the bytes sent or taken and the bytes in all, and its first slot. -/
structure Silver where
  d : Nat := 0
  source : Bool := false
  rec_ : Nat := 0
  byte : Nat := 0
  done : Nat := 0
  total : Nat := 0
  since : Nat := 0
deriving DecidableEq, Repr

/-- The twin logic without an address (R313-R332). -/
structure TwinSt where
  hello : Option Hello := none
  /-- this device has been SOLO, as its HELLO says -/
  solo : Bool := false
  lastHb : Nat := 0
  presMiss : Nat := 0
  lost : Option Nat := none
  links : Nat := 0
  slices : Nat := 0
  doms : Tbl (Option TwinDom) := []
  /-- what was last reported in LINKS and SLICES records, and domains to report -/
  toldLinks : Option Nat := none
  toldSlices : Option Nat := none
  tellDoms : List Nat := []
  /-- links of the twin for which this device forwards (R324) -/
  fill : Nat := 0
  /-- domains whose records differ between the twins, and slices SOLO after a decision of R323 -/
  diff : List Nat := []
  forced : List Nat := []
  /-- a HELLO with SOLO set is due (R317) -/
  helloNext : Bool := false
  /-- pairing with a SOLO twin, or as one: whether this device is the source of the copy (R329) -/
  revive : Option Bool := none
  /-- slices in FOLLOW and the causes that hold them there: 1 re-silver, 2 stack, 4 link die; 16 while
  the slice is in FOLLOW (R326) -/
  follow : Tbl Nat := []
  /-- domains whose old primary this device is (R328): it answers CONTRIB with LINK_LOST -/
  nackDoms : List Nat := []
  /-- domains whose takeover waits for the period boundary -/
  takeover : List Nat := []
  silver : List Silver := []
  /-- chunks of each slice with unacknowledged mirror writes: local indices (R327) -/
  unacked : Tbl (List Nat) := []
  /-- record bytes collected by a standby until their chunk state arrives: domain, offset, bytes -/
  collect : List (Nat × Nat × List Byte) := []
  /-- slices of fenced dies awaiting a remap (R330) -/
  remap : List Nat := []
  /-- slices remapped without a twin: refused until the domain has swapped (R330) -/
  bare : List Nat := []
  /-- failed die and the spare that took its place -/
  spares : List (Nat × Nat) := []
deriving DecidableEq, Repr

/-- A start command (R235): binding, the bank it keeps, its argument, and whether the update
dispatcher sent it. -/
structure StartCmd where
  binding : Nat := 0
  bank : Nat := 0
  arg : Nat := 0
  upd : Bool := false
deriving DecidableEq, Repr

/-- A running LOOP (R240): its first and last instruction and the iterations left after this one. -/
structure LoopFr where
  first : Nat := 0
  last : Nat := 0
  left : Nat := 0
deriving DecidableEq, Repr

/-- What a stream waits for: WEN before its next instruction issues, or the wait of the SWAIT, MWAIT
or MWAITR it has issued (R239, R240, R243). -/
inductive StreamWait where
  | before (sem : Nat)
  | sem (s n : Nat)
  | mer (slot : Nat)
deriving DecidableEq, Repr

/-- An instruction issued and not completed (R237): the semaphore it signals, whether it is END, and
its number in the run. -/
structure Flight where
  sen : Option Nat := none
  isEnd : Bool := false
  number : Nat := 0
deriving DecidableEq, Repr

/-- An engine stream without an address (R234-R243, R263). Its PC, ICOUNT, state and queue length are
in SLC_ENG_PC. -/
structure StreamSt where
  queue : List StartCmd := []
  run : Option StartCmd := none
  /-- START slot, and the step and seed latched for draws (R236) -/
  start : Nat := 0
  step : Nat := 0
  seed : Nat := 0
  /-- own slot count at the take, for the watchdog -/
  since : Nat := 0
  /-- a0-a15, or x1-x31 -/
  regs : Tbl W64 := []
  loops : List LoopFr := []
  /-- the program has run past its instruction region -/
  off : Bool := false
  flight : List Flight := []
  wait : Option StreamWait := none
  /-- the WEN wait of the next instruction has passed -/
  woken : Bool := false
  sticky : Bool := false
  /-- draw context of the run: tensor, stream and index base (R251) -/
  rngTensor : Nat := 0
  rngStream : Nat := 0
  rngBase : Nat := 0
  /-- start commands still to pass before the stop's run, and whether this run is the stop's -/
  skip : Option Nat := none
  stopRun : Bool := false
deriving DecidableEq, Repr

/-- An operand tile (R246): its format (0 cleared, then as TLOAD codes it), 16,384 codes and 512
scales; an element not listed is 0, a tile without scales takes 127. -/
structure Tile where
  fmt : Nat := 0
  codes : List Nat := []
  scales : List Nat := []
deriving DecidableEq, Repr

/-- The engines of a slice (R234-R267): streams, semaphores, scalar data memory from 0x1_0000 on,
operand tiles at 8 x array + t, accumulators at 4 x array + c, thread registers and predicates as one
list over the threads, the running values of the program check-value units, and the slot from which
a stop makes every entry IDLE. -/
structure EngSt where
  streams : Tbl StreamSt := []
  sems : Tbl Nat := []
  dmem : Tbl Byte := []
  tiles : Tbl Tile := []
  accs : Tbl (List Nat) := []
  vregs : Tbl (List Nat) := []
  preds : Tbl (List Bool) := []
  checks : Tbl Nat := []
  idleFrom : Option Nat := none
deriving DecidableEq, Repr

/-- Lifecycle of a slice (0-63) or link (64 + number) beside its registers (R298-R305): the transition
due at the next boundary (1 STARTING, 2 DRAINING), the slot in which the present state began, and
whether the clearing of STARTING has ended. -/
structure LifeSt where
  due : Nat := 0
  since : Nat := 0
  ready : Bool := false
deriving DecidableEq, Repr

/-- A mailbox (R378-R385): the minor version and feature bitmap negotiated, whether a HELLO of another
major came last, the identifier cache (REQ_ID, status, first data bytes; oldest first), and the slot
of the last command. -/
structure Mbox where
  minor : Nat := 0
  feats : Nat := 0x14F
  other : Bool := false
  cache : List (Nat × Nat × List Byte) := []
  last : Nat := 0
deriving DecidableEq, Repr

/-- A command waiting for the firmware: its route, its mailbox (0-15 host, 16 I3C, 32 + device x 256 +
port for a fabric key), the packet that brought it, its bytes, and whether it has passed checks 1 to 6
of R383 and is being executed. -/
structure MgmtCmd where
  route : Nat := 0
  box : Nat := 0
  pkt : InPkt := {}
  bytes : List Byte := []
  taken : Bool := false
deriving DecidableEq, Repr

/-- A MEMBER_REPLACE that has not taken effect (R389), with the command that awaits its reply. -/
structure Replace where
  d : Nat := 0
  index : Nat := 0
  link : Nat := 0
  cmd : Option MgmtCmd := none
deriving DecidableEq, Repr

/-- Firmware and its mailboxes (R377-R390, R398-R402): whether the control dies run, whether it is the
boot ROM alone that runs (NO_IMAGE), the mailboxes, the fabric keys that hold one, the commands in order
of receipt, replacements not yet in effect, commands a restart has cut off, and the reply of the I3C
mailbox. -/
structure Fw where
  up : Bool := false
  rom : Bool := false
  boxes : Tbl Mbox := []
  fabric : List Nat := []
  queue : List MgmtCmd := []
  replaces : List Replace := []
  cut : List MgmtCmd := []
  i3cReply : List Byte := []
deriving DecidableEq, Repr

/-- Boot state outside GLB_BOOT: BOOT_SEL as sampled, whether the other image has been booted since
reset (R399), whether the boot ROM may choose now, events Cirrus enters at the next boot (R410, R438):
TEMP_SHUTDOWN and VOLT_FAULT, and the dies that self-test has fenced (Table MGT-5). -/
structure Boot where
  sel : Bool := false
  fell : Bool := false
  choose : Bool := false
  tempRec : Bool := false
  voltRec : Bool := false
  bad : List Nat := []
deriving DecidableEq, Repr

/-- A threshold entry's evaluation (R406): consecutive values beyond LEVEL. -/
structure ThrSt where
  count : Nat := 0
deriving DecidableEq, Repr

/-- Cirrus without an address (R403-R418): the last five samples of a sensor, newest first; its filter
value with 8 fraction bits; the slot of a board sensor's last sample; the threshold counters; whether
the fused throttle is engaged; core rails out of range at their last sample; whether a stop channel has
been asserted ever since reset (R418); the links a wake from SLEEP waits for; and whether the port has
returned to D3cold with wake reasons set (R415). -/
structure CirSt where
  hist : Tbl (List Int) := []
  y : Tbl Int := []
  last : Tbl Nat := []
  thr : Tbl ThrSt := []
  hot : Bool := false
  voltOut : List Nat := []
  hold : Bool := true
  waking : Option (List Nat) := none
  again : Bool := false
deriving DecidableEq, Repr

/-- The I3C target (R443): dynamic address, enabled events (bit 0 interrupt requests), and the draw
of the random half of its Provisional ID. -/
structure I3c where
  addr : Option Nat := none
  events : Nat := 1
  pid : Nat := 0
deriving DecidableEq, Repr

/-- The JTAG port (R445): the instruction in force and the boundary-scan update latches. -/
structure Jtag where
  ir : Nat := 1
  cells : List Bool := []
deriving DecidableEq, Repr


/-- Everything the device holds but the contents of DRAM and staging SRAM. -/
structure Ctl where
  fuse : Fuse := {}
  /-- every register and window word, by BAR0 byte address, where it differs from its reset value -/
  bar0 : Tbl W64 := []
  /-- core cycle within the slot (R346) -/
  cyc : Nat := 0
  flt : Flt := {}
  mer : Mer := {}
  links : Tbl LinkSt := []
  sw : Sw := {}
  host : HostPort := {}
  /-- BAR2: mailbox areas, MSI-X table and PBA, by byte (Table MAP-21) -/
  bar2 : Tbl Byte := []
  /-- bank headers, by 2 x domain + bank -/
  banks : Tbl BankHdr := []
  dom : Tbl DomMer := []
  net : Net := {}
  mem : MemSt := {}
  pools : Pools := {}
  pst : Tbl PstDom := []
  upd : Tbl UpdSt := []
  ops : Tbl OpSt := []
  /-- operations opened so far on the device: the order of opening (R176) -/
  opCount : Nat := 0
  seq : Tbl SeqSt := []
  held : List HeldObj := []
  /-- records of the twin that nothing held has met yet, by slice -/
  twinRecs : List (Nat × TwinRec) := []
  tw : TwinSt := {}
  /-- the engines, by slice -/
  eng : Tbl EngSt := []
  life : Tbl LifeSt := []
  fw : Fw := {}
  boot : Boot := {}
  cir : CirSt := {}
  i3c : I3c := {}
  jtag : Jtag := {}
  /-- contributors excluded by MEMBER_EXCLUDE from operations that open later: domain and index (R389) -/
  opExcl : List (Nat × Nat) := []
  /-- low halves of management-route entries written by 32-bit writes and not yet in effect (R130) -/
  routeLow : Tbl (Option Nat) := []
  /-- the SPI NOR flash, by byte; an erased byte reads 0xFF (log entry 60) -/
  flash : Tbl Byte := []
  sent : List Sent := []
  /-- the model's own counter that selects the next free value (log entry 4) -/
  freeN : Nat := 0
deriving DecidableEq, Repr

/-- The contents of the memories: a byte per address, sparse and canonical; an address nothing has
written reads 0 (log entry 6). DRAM by device address (R268), staging by slice x 36 MiB + offset
(R283). -/
structure Ram where
  dram : Tbl Byte := []
  staging : Tbl Byte := []
deriving DecidableEq, Repr

/-- The device. -/
structure Dev where
  ctl : Ctl := {}
  ram : Ram := {}
deriving DecidableEq, Repr

/-- The state of the block: the device, and the commands that wait, first in, first out. -/
structure State where
  dev : Dev := {}
  pending : List Instr := []
deriving DecidableEq, Repr

/-- The block right after reset (VAUX power-up, R422): every register at the reset value of Tables
MAP-6 to MAP-20, every memory unwritten, no command waiting. -/
def State.reset : State := {}

end Sys2Proof.Machine
end

