-- ==== Sys2Proof/Machine/RegMap.lean ====
section
/-!
DEFINITION. The register map: every control-space register and domain control-area register of the
tables of spec/16_register_map.md (R429, R430), its address, its fields with their access types
(spec/00_scope.md R7) and its value after device reset. The names are the spec's own.
-/

namespace Sys2Proof.Machine

/-- The registers of Tables MAP-6 to MAP-20, and the record ring (R349). -/
inductive RegId where
  | GLB_ID
  | GLB_FEATURES0
  | GLB_FEATURES1
  | GLB_FEATURES2
  | GLB_FEATURES3
  | GLB_DET_SIG
  | GLB_STEPPING
  | GLB_STATE
  | GLB_BOOT
  | MER_NOW
  | MER_CTRL
  | MER_SLOT_CFG
  | MER_SYNC_STATUS
  | MER_PHASE
  | MER_PHASE_NEXT
  | MER_SWAP_AT
  | MER_SWAP_STATUS
  | FLT_FIRST
  | FLT_FIRST_TIME
  | FLT_NEXT
  | FLT_STATUS
  | FLT_CLEAR
  | FLT_PIN_EN
  | FLT_RING_BASE
  | FLT_RING_HEAD
  | FLT_RING_TAIL
  | FLT_DROPPED
  | FLT_NEXT_TIME
  | FLT_FW_REPORT
  | FLT_CTRL
  | FLT_CHK_COUNT
  | FLT_FORCE_ARG
  | FLT_FORCE
  | FLT_ACTION
  | FLT_SRC
  | FLT_RING
  | TWN_STATUS
  | TWN_CTRL
  | TWN_CMP_ERR
  | TWN_SILVER
  | TWN_COUNT
  | TWN_MODE
  | TWN_SLICE
  | CIR_STATUS
  | CIR_FSTOP_CFG
  | CIR_FSTOP_STATUS
  | CIR_CTRL
  | CIR_SENSOR
  | CIR_THRESH
  | PWR_STATE
  | PWR_WAKE_REASON
  | PWR_LIMITS
  | PWR_THROTTLE
  | PWR_VSET
  | MBX_DOORBELL
  | MBX_VERSION
  | MBX_PERM
  | MBX_FABRIC
  | LNK_STATUS
  | LNK_CTRL
  | LNK_TRAIN
  | LNK_RATE
  | LNK_PARTNER
  | LNK_PARTNER_SIG
  | LNK_LIFE
  | LNK_REPLAY_CFG
  | LNK_REPLAY_STAT
  | LNK_SCREEN
  | LANE_STATUS
  | LANE_PRBS_CFG
  | LANE_PRBS_ERR
  | LANE_INJECT
  | LANE_MARGIN
  | LANE_PRBS_USER
  | SWX_CTRL
  | SWX_DISCARD
  | SWX_ZENITH
  | SWX_VC_WEIGHT
  | SWX_EPOCH
  | SWX_FLUSH
  | COL_STAT
  | COL_TICKET
  | COL_SLICE
  | COL_LATE_HIST
  | COL_DESC_STATUS
  | SLC_STATE
  | SLC_CTRL
  | SLC_DOMAIN
  | SLC_QUOTA
  | SLC_SEQ_STATUS
  | SLC_STOP_AT
  | SLC_DBG_PAGE
  | SLC_ENG_PC
  | SLC_NONFINITE
  | MEM_STATUS
  | MEM_ECC
  | MEM_SCRUB
  | MEM_SPARES
  | MEM_RETIRE
  | MEM_DOM_SHARD
  | MEM_DOM_PROG
  | MEM_STAGE
  | MEM_APER_DOM
  | MEM_APER_STAGE
  | POOL_CFG
  | POOL_MGMT
  | POOL_FREE
  | POOL_STAT
  | POOL_AUDIT
  | PST_CTRL
  | PST_LAYOUT
  | PST_SHARD
  | PST_SEED
  | PST_STEP
  | PST_STATUS
  | DOM_ARITH
  | DOM_LINKS
  | DOM_STATE
  | DOM_DET_SIG
  | DOM_STEP_FP
  | DOM_STEP_FP_INFO
  | PST_TAG
  | DOM_RESV
deriving DecidableEq, Repr

/-- The access types of Table SCP-4. -/
inductive Acc where
  | ro | rw | w1c | w1s | wo | rwl
deriving DecidableEq, Repr

/-- A named field with its access type. -/
structure FieldDesc where
  lo : Nat
  w : Nat
  acc : Acc
deriving DecidableEq, Repr

/-- Where a register stands: base, then the count and stride of each of its two indices. -/
structure RegPlace where
  id : RegId
  base : Nat
  n1 : Nat
  s1 : Nat
  n2 : Nat
  s2 : Nat
deriving DecidableEq, Repr

/-- GLB_ID (R420). -/
def GLB_ID.addr : Nat := 0x0
def GLB_ID.PCI_VENDOR : FRef := ⟨0x0, 0, 16⟩
def GLB_ID.PART : FRef := ⟨0x0, 16, 16⟩
def GLB_ID.FAMILY : FRef := ⟨0x0, 32, 8⟩
def GLB_ID.GRADE : FRef := ⟨0x0, 40, 8⟩

/-- GLB_FEATURES0 (R258). -/
def GLB_FEATURES0.addr : Nat := 0x8
def GLB_FEATURES0.SLICES : FRef := ⟨0x8, 0, 8⟩
def GLB_FEATURES0.ARRAYS : FRef := ⟨0x8, 8, 4⟩
def GLB_FEATURES0.ARRAY_ROWS : FRef := ⟨0x8, 12, 8⟩
def GLB_FEATURES0.ARRAY_COLS : FRef := ⟨0x8, 20, 8⟩
def GLB_FEATURES0.VEC_LANES : FRef := ⟨0x8, 32, 12⟩
def GLB_FEATURES0.THREAD_GROUPS : FRef := ⟨0x8, 44, 8⟩
def GLB_FEATURES0.GROUP_THREADS : FRef := ⟨0x8, 52, 12⟩

/-- GLB_FEATURES1 (R258). -/
def GLB_FEATURES1.addr : Nat := 0x10
def GLB_FEATURES1.STAGING_KIB : FRef := ⟨0x10, 0, 16⟩
def GLB_FEATURES1.DMEM_KIB : FRef := ⟨0x10, 16, 16⟩
def GLB_FEATURES1.IMEM_SCALAR_KIB : FRef := ⟨0x10, 32, 8⟩
def GLB_FEATURES1.IMEM_VECTOR_KIB : FRef := ⟨0x10, 40, 8⟩
def GLB_FEATURES1.IMEM_ARRAY_KIB : FRef := ⟨0x10, 48, 8⟩
def GLB_FEATURES1.IMEM_STREAM_KIB : FRef := ⟨0x10, 56, 8⟩

/-- GLB_FEATURES2 (R258). -/
def GLB_FEATURES2.addr : Nat := 0x18
def GLB_FEATURES2.FORMATS : FRef := ⟨0x18, 0, 8⟩
def GLB_FEATURES2.SEMAPHORES : FRef := ⟨0x18, 16, 8⟩
def GLB_FEATURES2.CK_UNITS : FRef := ⟨0x18, 24, 8⟩
def GLB_FEATURES2.DESCRIPTORS : FRef := ⟨0x18, 32, 10⟩
def GLB_FEATURES2.OPERAND_TILES : FRef := ⟨0x18, 48, 4⟩
def GLB_FEATURES2.ACC_TILES : FRef := ⟨0x18, 52, 4⟩

/-- GLB_FEATURES3 (R258). -/
def GLB_FEATURES3.addr : Nat := 0x20
def GLB_FEATURES3.CORE_CYCLES : FRef := ⟨0x20, 0, 12⟩
def GLB_FEATURES3.DRAM_GIB : FRef := ⟨0x20, 16, 16⟩
def GLB_FEATURES3.LINKS : FRef := ⟨0x20, 32, 6⟩
def GLB_FEATURES3.VEC_REGS : FRef := ⟨0x20, 40, 8⟩
def GLB_FEATURES3.ADDR_REGS : FRef := ⟨0x20, 48, 5⟩
def GLB_FEATURES3.BINDINGS : FRef := ⟨0x20, 53, 11⟩

/-- GLB_DET_SIG (R376). -/
def GLB_DET_SIG.addr : Nat := 0x40
def GLB_DET_SIG.ARITH_LEVEL : FRef := ⟨0x40, 0, 8⟩
def GLB_DET_SIG.LIB_MINOR : FRef := ⟨0x40, 16, 8⟩
def GLB_DET_SIG.LIB_MAJOR : FRef := ⟨0x40, 24, 8⟩
def GLB_DET_SIG.MODE : FRef := ⟨0x40, 56, 8⟩

/-- GLB_STEPPING (R420). -/
def GLB_STEPPING.addr : Nat := 0x48
def GLB_STEPPING.STEPPING : FRef := ⟨0x48, 0, 8⟩
def GLB_STEPPING.SVN_MIN : FRef := ⟨0x48, 16, 16⟩
def GLB_STEPPING.SERIAL : FRef := ⟨0x48, 32, 32⟩

/-- GLB_STATE (R420). -/
def GLB_STATE.addr : Nat := 0x50
def GLB_STATE.STAGE : FRef := ⟨0x50, 0, 4⟩
def GLB_STATE.FAIL : FRef := ⟨0x50, 4, 1⟩
def GLB_STATE.FSTOP_HOLD : FRef := ⟨0x50, 5, 1⟩

/-- GLB_BOOT (R420). -/
def GLB_BOOT.addr : Nat := 0x58
def GLB_BOOT.RUNNING : FRef := ⟨0x58, 0, 1⟩
def GLB_BOOT.CONFIRM : FRef := ⟨0x58, 1, 1⟩
def GLB_BOOT.FALLBACK : FRef := ⟨0x58, 2, 1⟩
def GLB_BOOT.NEXT : FRef := ⟨0x58, 3, 2⟩
def GLB_BOOT.VERSION : FRef := ⟨0x58, 32, 32⟩

/-- MER_NOW (R59). -/
def MER_NOW.addr : Nat := 0x10000
def MER_NOW.COUNT : FRef := ⟨0x10000, 0, 56⟩

/-- MER_CTRL (R59). -/
def MER_CTRL.addr : Nat := 0x10008
def MER_CTRL.ROOT : FRef := ⟨0x10008, 0, 1⟩
def MER_CTRL.ALIGN_GO : FRef := ⟨0x10008, 1, 1⟩
def MER_CTRL.PARENT_PIN : FRef := ⟨0x10008, 8, 6⟩
def MER_CTRL.SYNC_INTERVAL : FRef := ⟨0x10008, 16, 4⟩

/-- MER_SLOT_CFG (R59). -/
def MER_SLOT_CFG.addr : Nat := 0x10010
def MER_SLOT_CFG.REF_CYCLES : FRef := ⟨0x10010, 0, 8⟩
def MER_SLOT_CFG.CORE_CYCLES : FRef := ⟨0x10010, 8, 12⟩
def MER_SLOT_CFG.ALARM_PS : FRef := ⟨0x10010, 32, 16⟩

/-- MER_SYNC_STATUS (R59). -/
def MER_SYNC_STATUS.addr : Nat := 0x10018
def MER_SYNC_STATUS.STATE : FRef := ⟨0x10018, 0, 2⟩
def MER_SYNC_STATUS.IS_ROOT : FRef := ⟨0x10018, 2, 1⟩
def MER_SYNC_STATUS.ROOT_CONFLICT : FRef := ⟨0x10018, 3, 1⟩
def MER_SYNC_STATUS.PARENT : FRef := ⟨0x10018, 8, 6⟩
def MER_SYNC_STATUS.DEPTH : FRef := ⟨0x10018, 16, 5⟩
def MER_SYNC_STATUS.OFFSET : FRef := ⟨0x10018, 32, 16⟩
def MER_SYNC_STATUS.LINK_DELAY : FRef := ⟨0x10018, 48, 16⟩

/-- MER_PHASE (R59). -/
def MER_PHASE.addr (d : Nat) : Nat := 0x10020 + d * 0x20
def MER_PHASE.KIND (d : Nat) : FRef := ⟨0x10020 + d * 0x20, 0, 2⟩
def MER_PHASE.BANK (d : Nat) : FRef := ⟨0x10020 + d * 0x20, 2, 1⟩
def MER_PHASE.EPOCH (d : Nat) : FRef := ⟨0x10020 + d * 0x20, 3, 3⟩
def MER_PHASE.VALID_A (d : Nat) : FRef := ⟨0x10020 + d * 0x20, 6, 1⟩
def MER_PHASE.VALID_B (d : Nat) : FRef := ⟨0x10020 + d * 0x20, 7, 1⟩
def MER_PHASE.HELD (d : Nat) : FRef := ⟨0x10020 + d * 0x20, 8, 1⟩
def MER_PHASE.SWAPS (d : Nat) : FRef := ⟨0x10020 + d * 0x20, 32, 32⟩

/-- MER_PHASE_NEXT (R59). -/
def MER_PHASE_NEXT.addr (d : Nat) : Nat := 0x10028 + d * 0x20
def MER_PHASE_NEXT.KIND (d : Nat) : FRef := ⟨0x10028 + d * 0x20, 0, 2⟩

/-- MER_SWAP_AT (R59). -/
def MER_SWAP_AT.addr (d : Nat) : Nat := 0x10030 + d * 0x20
def MER_SWAP_AT.SLOT (d : Nat) : FRef := ⟨0x10030 + d * 0x20, 0, 56⟩

/-- MER_SWAP_STATUS (R59). -/
def MER_SWAP_STATUS.addr (d : Nat) : Nat := 0x10038 + d * 0x20
def MER_SWAP_STATUS.ARMED (d : Nat) : FRef := ⟨0x10038 + d * 0x20, 0, 1⟩
def MER_SWAP_STATUS.WAKING (d : Nat) : FRef := ⟨0x10038 + d * 0x20, 1, 1⟩
def MER_SWAP_STATUS.LAST_STATUS (d : Nat) : FRef := ⟨0x10038 + d * 0x20, 8, 8⟩
def MER_SWAP_STATUS.ABANDONED (d : Nat) : FRef := ⟨0x10038 + d * 0x20, 16, 8⟩
def MER_SWAP_STATUS.LAST_SWAP (d : Nat) : FRef := ⟨0x10038 + d * 0x20, 32, 32⟩

/-- FLT_FIRST (R363). -/
def FLT_FIRST.addr : Nat := 0x20000
def FLT_FIRST.SOURCE : FRef := ⟨0x20000, 0, 10⟩
def FLT_FIRST.SEVERITY : FRef := ⟨0x20000, 10, 2⟩
def FLT_FIRST.LEVEL : FRef := ⟨0x20000, 12, 2⟩
def FLT_FIRST.FORCED : FRef := ⟨0x20000, 14, 1⟩
def FLT_FIRST.VALID : FRef := ⟨0x20000, 15, 1⟩
def FLT_FIRST.CYCLE : FRef := ⟨0x20000, 16, 9⟩
def FLT_FIRST.SAME_CYCLE : FRef := ⟨0x20000, 25, 1⟩
def FLT_FIRST.SUBJECT : FRef := ⟨0x20000, 32, 32⟩

/-- FLT_FIRST_TIME (R363). -/
def FLT_FIRST_TIME.addr : Nat := 0x20008
def FLT_FIRST_TIME.COUNT : FRef := ⟨0x20008, 0, 56⟩

/-- FLT_NEXT (R363). -/
def FLT_NEXT.addr : Nat := 0x20010
def FLT_NEXT.SOURCE : FRef := ⟨0x20010, 0, 10⟩
def FLT_NEXT.SEVERITY : FRef := ⟨0x20010, 10, 2⟩
def FLT_NEXT.LEVEL : FRef := ⟨0x20010, 12, 2⟩
def FLT_NEXT.FORCED : FRef := ⟨0x20010, 14, 1⟩
def FLT_NEXT.VALID : FRef := ⟨0x20010, 15, 1⟩
def FLT_NEXT.CYCLE : FRef := ⟨0x20010, 16, 9⟩
def FLT_NEXT.SAME_CYCLE : FRef := ⟨0x20010, 25, 1⟩
def FLT_NEXT.SUBJECT : FRef := ⟨0x20010, 32, 32⟩

/-- FLT_STATUS (R363). -/
def FLT_STATUS.addr : Nat := 0x20018
def FLT_STATUS.ANY_ACTIVE : FRef := ⟨0x20018, 0, 1⟩
def FLT_STATUS.HIGHEST : FRef := ⟨0x20018, 1, 2⟩
def FLT_STATUS.FAULT_N : FRef := ⟨0x20018, 3, 1⟩
def FLT_STATUS.ORDERLY : FRef := ⟨0x20018, 4, 1⟩
def FLT_STATUS.SAFE : FRef := ⟨0x20018, 5, 1⟩
def FLT_STATUS.PARITY : FRef := ⟨0x20018, 6, 1⟩
def FLT_STATUS.WRITING : FRef := ⟨0x20018, 7, 1⟩
def FLT_STATUS.ACTIVE_COUNT : FRef := ⟨0x20018, 16, 11⟩
def FLT_STATUS.PENDING_COUNT : FRef := ⟨0x20018, 32, 11⟩
def FLT_STATUS.RING_UE : FRef := ⟨0x20018, 48, 16⟩

/-- FLT_CLEAR (R363). -/
def FLT_CLEAR.addr : Nat := 0x20020
def FLT_CLEAR.SOURCE : FRef := ⟨0x20020, 0, 10⟩
def FLT_CLEAR.SRC_GO : FRef := ⟨0x20020, 16, 1⟩
def FLT_CLEAR.ALL : FRef := ⟨0x20020, 17, 1⟩
def FLT_CLEAR.FIRST : FRef := ⟨0x20020, 18, 1⟩
def FLT_CLEAR.DROPPED : FRef := ⟨0x20020, 19, 1⟩

/-- FLT_PIN_EN (R363). -/
def FLT_PIN_EN.addr : Nat := 0x20028
def FLT_PIN_EN.SEV : FRef := ⟨0x20028, 0, 4⟩

/-- FLT_RING_BASE (R363). -/
def FLT_RING_BASE.addr : Nat := 0x20030
def FLT_RING_BASE.ADDR : FRef := ⟨0x20030, 0, 32⟩
def FLT_RING_BASE.ENTRIES : FRef := ⟨0x20030, 32, 16⟩
def FLT_RING_BASE.SIZE : FRef := ⟨0x20030, 48, 8⟩

/-- FLT_RING_HEAD (R363). -/
def FLT_RING_HEAD.addr : Nat := 0x20038
def FLT_RING_HEAD.HEAD : FRef := ⟨0x20038, 0, 9⟩

/-- FLT_RING_TAIL (R363). -/
def FLT_RING_TAIL.addr : Nat := 0x20040
def FLT_RING_TAIL.TAIL : FRef := ⟨0x20040, 0, 9⟩

/-- FLT_DROPPED (R363). -/
def FLT_DROPPED.addr : Nat := 0x20048
def FLT_DROPPED.EVENTS : FRef := ⟨0x20048, 0, 32⟩
def FLT_DROPPED.LAST_SOURCE : FRef := ⟨0x20048, 32, 10⟩

/-- FLT_NEXT_TIME (R363). -/
def FLT_NEXT_TIME.addr : Nat := 0x20050
def FLT_NEXT_TIME.COUNT : FRef := ⟨0x20050, 0, 56⟩

/-- FLT_FW_REPORT (R363). -/
def FLT_FW_REPORT.addr : Nat := 0x20058
def FLT_FW_REPORT.SOURCE : FRef := ⟨0x20058, 0, 6⟩
def FLT_FW_REPORT.DETAIL : FRef := ⟨0x20058, 32, 32⟩

/-- FLT_CTRL (R363). -/
def FLT_CTRL.addr : Nat := 0x20060
def FLT_CTRL.FIRST_MIN : FRef := ⟨0x20060, 0, 2⟩
def FLT_CTRL.PARITY_TEST : FRef := ⟨0x20060, 8, 1⟩

/-- FLT_CHK_COUNT (R363). -/
def FLT_CHK_COUNT.addr : Nat := 0x20068
def FLT_CHK_COUNT.INGRESS : FRef := ⟨0x20068, 0, 16⟩
def FLT_CHK_COUNT.INTERNAL : FRef := ⟨0x20068, 16, 16⟩
def FLT_CHK_COUNT.PLACED : FRef := ⟨0x20068, 32, 16⟩
def FLT_CHK_COUNT.CLEAR : FRef := ⟨0x20068, 48, 1⟩

/-- FLT_FORCE_ARG (R363). -/
def FLT_FORCE_ARG.addr : Nat := 0x200F8
def FLT_FORCE_ARG.DOMAIN : FRef := ⟨0x200F8, 0, 6⟩
def FLT_FORCE_ARG.DOMAIN_V : FRef := ⟨0x200F8, 6, 1⟩
def FLT_FORCE_ARG.SLICE : FRef := ⟨0x200F8, 8, 6⟩
def FLT_FORCE_ARG.SLICE_V : FRef := ⟨0x200F8, 14, 1⟩
def FLT_FORCE_ARG.LINK : FRef := ⟨0x200F8, 16, 6⟩
def FLT_FORCE_ARG.LINK_V : FRef := ⟨0x200F8, 22, 1⟩
def FLT_FORCE_ARG.STACK : FRef := ⟨0x200F8, 24, 4⟩
def FLT_FORCE_ARG.STACK_V : FRef := ⟨0x200F8, 28, 1⟩

/-- FLT_FORCE (R363). -/
def FLT_FORCE.addr (i : Nat) : Nat := 0x20100 + i * 0x8
def FLT_FORCE.FORCE (i : Nat) : FRef := ⟨0x20100 + i * 0x8, 0, 64⟩

/-- FLT_ACTION (R363). -/
def FLT_ACTION.addr (s : Nat) : Nat := 0x21000 + s * 0x8
def FLT_ACTION.SEV (s : Nat) : FRef := ⟨0x21000 + s * 0x8, 0, 2⟩
def FLT_ACTION.PIN (s : Nat) : FRef := ⟨0x21000 + s * 0x8, 2, 1⟩
def FLT_ACTION.IRQ (s : Nat) : FRef := ⟨0x21000 + s * 0x8, 3, 1⟩
def FLT_ACTION.VECTOR (s : Nat) : FRef := ⟨0x21000 + s * 0x8, 4, 6⟩
def FLT_ACTION.REACT (s : Nat) : FRef := ⟨0x21000 + s * 0x8, 12, 4⟩
def FLT_ACTION.LOCK (s : Nat) : FRef := ⟨0x21000 + s * 0x8, 16, 1⟩
def FLT_ACTION.MASK (s : Nat) : FRef := ⟨0x21000 + s * 0x8, 17, 1⟩

/-- FLT_SRC (R363). -/
def FLT_SRC.addr (s : Nat) : Nat := 0x24000 + s * 0x8
def FLT_SRC.ACTIVE (s : Nat) : FRef := ⟨0x24000 + s * 0x8, 0, 1⟩
def FLT_SRC.PENDING (s : Nat) : FRef := ⟨0x24000 + s * 0x8, 1, 1⟩
def FLT_SRC.COUNT (s : Nat) : FRef := ⟨0x24000 + s * 0x8, 16, 16⟩
def FLT_SRC.LAST (s : Nat) : FRef := ⟨0x24000 + s * 0x8, 32, 32⟩

/-- FLT_RING (R349). -/
def FLT_RING.addr (e : Nat) (w : Nat) : Nat := 0x28000 + e * 0x40 + w * 0x8

/-- TWN_STATUS (R335). -/
def TWN_STATUS.addr : Nat := 0x30000
def TWN_STATUS.PAIR : FRef := ⟨0x30000, 0, 3⟩
def TWN_STATUS.PRESENT : FRef := ⟨0x30000, 3, 1⟩
def TWN_STATUS.TLINK_UP : FRef := ⟨0x30000, 4, 2⟩
def TWN_STATUS.CAUSE : FRef := ⟨0x30000, 8, 4⟩
def TWN_STATUS.TWIN_DEV : FRef := ⟨0x30000, 16, 12⟩
def TWN_STATUS.DEGRADED : FRef := ⟨0x30000, 28, 1⟩

/-- TWN_CTRL (R335). -/
def TWN_CTRL.addr : Nat := 0x30008
def TWN_CTRL.LINK0 : FRef := ⟨0x30008, 0, 6⟩
def TWN_CTRL.LINK1 : FRef := ⟨0x30008, 8, 6⟩
def TWN_CTRL.SIDE : FRef := ⟨0x30008, 16, 1⟩
def TWN_CTRL.GO : FRef := ⟨0x30008, 17, 1⟩
def TWN_CTRL.HB_LIMIT : FRef := ⟨0x30008, 24, 8⟩
def TWN_CTRL.SIG_WAIT : FRef := ⟨0x30008, 32, 16⟩

/-- TWN_CMP_ERR (R335). -/
def TWN_CMP_ERR.addr : Nat := 0x30010
def TWN_CMP_ERR.OP_TAG : FRef := ⟨0x30010, 0, 15⟩
def TWN_CMP_ERR.OUTCOME : FRef := ⟨0x30010, 16, 3⟩
def TWN_CMP_ERR.UPDATE : FRef := ⟨0x30010, 19, 1⟩
def TWN_CMP_ERR.DOMAIN : FRef := ⟨0x30010, 20, 6⟩
def TWN_CMP_ERR.CHUNK : FRef := ⟨0x30010, 32, 20⟩
def TWN_CMP_ERR.VALID : FRef := ⟨0x30010, 63, 1⟩

/-- TWN_SILVER (R335). -/
def TWN_SILVER.addr : Nat := 0x30018
def TWN_SILVER.RATE : FRef := ⟨0x30018, 0, 16⟩
def TWN_SILVER.ACTIVE : FRef := ⟨0x30018, 16, 1⟩
def TWN_SILVER.SOURCE : FRef := ⟨0x30018, 17, 1⟩
def TWN_SILVER.DONE_GIB : FRef := ⟨0x30018, 32, 16⟩
def TWN_SILVER.TOTAL_GIB : FRef := ⟨0x30018, 48, 16⟩

/-- TWN_COUNT (R335). -/
def TWN_COUNT.addr : Nat := 0x30020
def TWN_COUNT.CORRECTED : FRef := ⟨0x30020, 0, 16⟩
def TWN_COUNT.SUSPECT : FRef := ⟨0x30020, 16, 16⟩
def TWN_COUNT.DISCARDED : FRef := ⟨0x30020, 32, 16⟩
def TWN_COUNT.LOSSES : FRef := ⟨0x30020, 48, 16⟩

/-- TWN_MODE (R335). -/
def TWN_MODE.addr (d : Nat) : Nat := 0x30100 + d * 0x8
def TWN_MODE.MODE (d : Nat) : FRef := ⟨0x30100 + d * 0x8, 0, 1⟩
def TWN_MODE.PRIMARY (d : Nat) : FRef := ⟨0x30100 + d * 0x8, 1, 1⟩
def TWN_MODE.ACTING (d : Nat) : FRef := ⟨0x30100 + d * 0x8, 2, 1⟩
def TWN_MODE.TAKEOVER (d : Nat) : FRef := ⟨0x30100 + d * 0x8, 3, 1⟩

/-- TWN_SLICE (R335). -/
def TWN_SLICE.addr (n : Nat) : Nat := 0x30400 + n * 0x8
def TWN_SLICE.STATE (n : Nat) : FRef := ⟨0x30400 + n * 0x8, 0, 3⟩
def TWN_SLICE.HELD (n : Nat) : FRef := ⟨0x30400 + n * 0x8, 16, 16⟩

/-- CIR_STATUS (R420). -/
def CIR_STATUS.addr : Nat := 0x40000
def CIR_STATUS.VAUX_OK : FRef := ⟨0x40000, 0, 1⟩
def CIR_STATUS.MAIN_OK : FRef := ⟨0x40000, 1, 1⟩
def CIR_STATUS.REF_OK : FRef := ⟨0x40000, 2, 1⟩
def CIR_STATUS.FW_RESTARTING : FRef := ⟨0x40000, 3, 1⟩
def CIR_STATUS.THROTTLE : FRef := ⟨0x40000, 4, 3⟩
def CIR_STATUS.HOTTEST_DIE : FRef := ⟨0x40000, 8, 5⟩
def CIR_STATUS.LAST_SHUTDOWN : FRef := ⟨0x40000, 16, 1⟩
def CIR_STATUS.FW_RESTARTS : FRef := ⟨0x40000, 32, 16⟩

/-- CIR_FSTOP_CFG (R420). -/
def CIR_FSTOP_CFG.addr : Nat := 0x40008
def CIR_FSTOP_CFG.TDISC_MS : FRef := ⟨0x40008, 0, 7⟩

/-- CIR_FSTOP_STATUS (R420). -/
def CIR_FSTOP_STATUS.addr : Nat := 0x40010
def CIR_FSTOP_STATUS.A : FRef := ⟨0x40010, 0, 1⟩
def CIR_FSTOP_STATUS.B : FRef := ⟨0x40010, 1, 1⟩
def CIR_FSTOP_STATUS.DISC : FRef := ⟨0x40010, 2, 1⟩
def CIR_FSTOP_STATUS.STOPPED : FRef := ⟨0x40010, 3, 1⟩
def CIR_FSTOP_STATUS.DISC_FAULT : FRef := ⟨0x40010, 4, 1⟩
def CIR_FSTOP_STATUS.LAST_US : FRef := ⟨0x40010, 8, 17⟩
def CIR_FSTOP_STATUS.COUNT_US : FRef := ⟨0x40010, 32, 17⟩

/-- CIR_CTRL (R420). -/
def CIR_CTRL.addr : Nat := 0x40018
def CIR_CTRL.FW_KICK : FRef := ⟨0x40018, 0, 1⟩

/-- CIR_SENSOR (R420). -/
def CIR_SENSOR.addr (n : Nat) : Nat := 0x41000 + n * 0x8
def CIR_SENSOR.VALUE (n : Nat) : FRef := ⟨0x41000 + n * 0x8, 0, 16⟩
def CIR_SENSOR.MEDIAN (n : Nat) : FRef := ⟨0x41000 + n * 0x8, 16, 16⟩
def CIR_SENSOR.K (n : Nat) : FRef := ⟨0x41000 + n * 0x8, 32, 3⟩
def CIR_SENSOR.VALID (n : Nat) : FRef := ⟨0x41000 + n * 0x8, 35, 1⟩
def CIR_SENSOR.FAIL (n : Nat) : FRef := ⟨0x41000 + n * 0x8, 36, 1⟩
def CIR_SENSOR.BOARD (n : Nat) : FRef := ⟨0x41000 + n * 0x8, 37, 1⟩
def CIR_SENSOR.RAW (n : Nat) : FRef := ⟨0x41000 + n * 0x8, 48, 16⟩

/-- CIR_THRESH (R420). -/
def CIR_THRESH.addr (i : Nat) : Nat := 0x42000 + i * 0x8
def CIR_THRESH.SENSOR (i : Nat) : FRef := ⟨0x42000 + i * 0x8, 0, 8⟩
def CIR_THRESH.ENABLE (i : Nat) : FRef := ⟨0x42000 + i * 0x8, 8, 1⟩
def CIR_THRESH.DIR (i : Nat) : FRef := ⟨0x42000 + i * 0x8, 9, 1⟩
def CIR_THRESH.ACTION (i : Nat) : FRef := ⟨0x42000 + i * 0x8, 10, 3⟩
def CIR_THRESH.TLEVEL (i : Nat) : FRef := ⟨0x42000 + i * 0x8, 13, 3⟩
def CIR_THRESH.HOLD (i : Nat) : FRef := ⟨0x42000 + i * 0x8, 16, 8⟩
def CIR_THRESH.ACTIVE (i : Nat) : FRef := ⟨0x42000 + i * 0x8, 24, 1⟩
def CIR_THRESH.LEVEL (i : Nat) : FRef := ⟨0x42000 + i * 0x8, 32, 16⟩
def CIR_THRESH.HYST (i : Nat) : FRef := ⟨0x42000 + i * 0x8, 48, 16⟩

/-- PWR_STATE (R420). -/
def PWR_STATE.addr : Nat := 0x50000
def PWR_STATE.STATE : FRef := ⟨0x50000, 0, 3⟩
def PWR_STATE.HOST_D : FRef := ⟨0x50000, 4, 2⟩
def PWR_STATE.THROTTLE : FRef := ⟨0x50000, 8, 3⟩
def PWR_STATE.CAUSE : FRef := ⟨0x50000, 11, 3⟩
def PWR_STATE.POWER_W : FRef := ⟨0x50000, 32, 16⟩

/-- PWR_WAKE_REASON (R420). -/
def PWR_WAKE_REASON.addr : Nat := 0x50008
def PWR_WAKE_REASON.FAULT : FRef := ⟨0x50008, 0, 1⟩
def PWR_WAKE_REASON.CIRRUS : FRef := ⟨0x50008, 1, 1⟩
def PWR_WAKE_REASON.MGMT : FRef := ⟨0x50008, 2, 1⟩
def PWR_WAKE_REASON.COALESCED : FRef := ⟨0x50008, 8, 1⟩
def PWR_WAKE_REASON.WAKE_N : FRef := ⟨0x50008, 9, 1⟩
def PWR_WAKE_REASON.LAST_SLOT : FRef := ⟨0x50008, 32, 32⟩

/-- PWR_LIMITS (R420). -/
def PWR_LIMITS.addr : Nat := 0x50010
def PWR_LIMITS.VCORE_MIN_MV : FRef := ⟨0x50010, 0, 16⟩
def PWR_LIMITS.VCORE_MAX_MV : FRef := ⟨0x50010, 16, 16⟩
def PWR_LIMITS.FREQ_MAX_MHZ : FRef := ⟨0x50010, 32, 12⟩
def PWR_LIMITS.T_THROTTLE_C : FRef := ⟨0x50010, 44, 8⟩
def PWR_LIMITS.T_SHUTDOWN_C : FRef := ⟨0x50010, 52, 8⟩

/-- PWR_THROTTLE (R420). -/
def PWR_THROTTLE.addr : Nat := 0x50018
def PWR_THROTTLE.SW_LEVEL : FRef := ⟨0x50018, 0, 3⟩

/-- PWR_VSET (R420). -/
def PWR_VSET.addr (g : Nat) : Nat := 0x50020 + g * 0x8
def PWR_VSET.MV (g : Nat) : FRef := ⟨0x50020 + g * 0x8, 0, 10⟩

/-- MBX_DOORBELL (R420). -/
def MBX_DOORBELL.addr (m : Nat) : Nat := 0x60000 + m * 0x8
def MBX_DOORBELL.LEN (m : Nat) : FRef := ⟨0x60000 + m * 0x8, 0, 14⟩
def MBX_DOORBELL.GO (m : Nat) : FRef := ⟨0x60000 + m * 0x8, 16, 1⟩
def MBX_DOORBELL.BUSY (m : Nat) : FRef := ⟨0x60000 + m * 0x8, 17, 1⟩
def MBX_DOORBELL.DONE (m : Nat) : FRef := ⟨0x60000 + m * 0x8, 18, 1⟩
def MBX_DOORBELL.IRQ_EN (m : Nat) : FRef := ⟨0x60000 + m * 0x8, 19, 1⟩
def MBX_DOORBELL.VECTOR (m : Nat) : FRef := ⟨0x60000 + m * 0x8, 20, 6⟩
def MBX_DOORBELL.STATUS (m : Nat) : FRef := ⟨0x60000 + m * 0x8, 32, 8⟩

/-- MBX_VERSION (R420). -/
def MBX_VERSION.addr : Nat := 0x60100
def MBX_VERSION.MAJOR : FRef := ⟨0x60100, 0, 8⟩
def MBX_VERSION.MINOR : FRef := ⟨0x60100, 8, 8⟩
def MBX_VERSION.FEATURES : FRef := ⟨0x60100, 32, 32⟩

/-- MBX_PERM (R420). -/
def MBX_PERM.addr : Nat := 0x60108
def MBX_PERM.HOST : FRef := ⟨0x60108, 0, 8⟩
def MBX_PERM.FABRIC : FRef := ⟨0x60108, 8, 8⟩
def MBX_PERM.I3C : FRef := ⟨0x60108, 16, 8⟩

/-- MBX_FABRIC (R420). -/
def MBX_FABRIC.addr : Nat := 0x60110
def MBX_FABRIC.IN_USE : FRef := ⟨0x60110, 0, 7⟩
def MBX_FABRIC.REFUSED : FRef := ⟨0x60110, 16, 16⟩

/-- LNK_STATUS (R121). -/
def LNK_STATUS.addr (n : Nat) : Nat := 0x100000 + n * 0x4000
def LNK_STATUS.LIFECYCLE (n : Nat) : FRef := ⟨0x100000 + n * 0x4000, 0, 2⟩
def LNK_STATUS.UP (n : Nat) : FRef := ⟨0x100000 + n * 0x4000, 2, 1⟩
def LNK_STATUS.REPLAYING (n : Nat) : FRef := ⟨0x100000 + n * 0x4000, 3, 1⟩
def LNK_STATUS.DOWN_LATCH (n : Nat) : FRef := ⟨0x100000 + n * 0x4000, 4, 1⟩
def LNK_STATUS.DOWN_CAUSE (n : Nat) : FRef := ⟨0x100000 + n * 0x4000, 5, 3⟩
def LNK_STATUS.CAPS_FAIL (n : Nat) : FRef := ⟨0x100000 + n * 0x4000, 8, 3⟩
def LNK_STATUS.SIG_DIFF (n : Nat) : FRef := ⟨0x100000 + n * 0x4000, 11, 1⟩
def LNK_STATUS.RTT (n : Nat) : FRef := ⟨0x100000 + n * 0x4000, 16, 16⟩

/-- LNK_CTRL (R121). -/
def LNK_CTRL.addr (n : Nat) : Nat := 0x100008 + n * 0x4000
def LNK_CTRL.STAY_AWAKE (n : Nat) : FRef := ⟨0x100008 + n * 0x4000, 0, 1⟩
def LNK_CTRL.AUTO_RETRAIN (n : Nat) : FRef := ⟨0x100008 + n * 0x4000, 1, 1⟩
def LNK_CTRL.ROLE (n : Nat) : FRef := ⟨0x100008 + n * 0x4000, 2, 3⟩

/-- LNK_TRAIN (R87). -/
def LNK_TRAIN.addr (n : Nat) : Nat := 0x100010 + n * 0x4000
def LNK_TRAIN.STATE (n : Nat) : FRef := ⟨0x100010 + n * 0x4000, 0, 4⟩
def LNK_TRAIN.REVERSED (n : Nat) : FRef := ⟨0x100010 + n * 0x4000, 4, 1⟩
def LNK_TRAIN.POLARITY (n : Nat) : FRef := ⟨0x100010 + n * 0x4000, 8, 8⟩
def LNK_TRAIN.FAIL_CAUSE (n : Nat) : FRef := ⟨0x100010 + n * 0x4000, 16, 4⟩
def LNK_TRAIN.TRAIN_SLOTS (n : Nat) : FRef := ⟨0x100010 + n * 0x4000, 32, 16⟩
def LNK_TRAIN.TRAINS (n : Nat) : FRef := ⟨0x100010 + n * 0x4000, 48, 8⟩
def LNK_TRAIN.IDLE_CONFLICTS (n : Nat) : FRef := ⟨0x100010 + n * 0x4000, 56, 8⟩

/-- LNK_RATE (R87). -/
def LNK_RATE.addr (n : Nat) : Nat := 0x100018 + n * 0x4000
def LNK_RATE.ALLOW (n : Nat) : FRef := ⟨0x100018 + n * 0x4000, 0, 3⟩
def LNK_RATE.FALLBACK (n : Nat) : FRef := ⟨0x100018 + n * 0x4000, 3, 1⟩
def LNK_RATE.CURRENT (n : Nat) : FRef := ⟨0x100018 + n * 0x4000, 8, 3⟩
def LNK_RATE.PARTNER_CAP (n : Nat) : FRef := ⟨0x100018 + n * 0x4000, 16, 3⟩
def LNK_RATE.PRESET_INIT (n : Nat) : FRef := ⟨0x100018 + n * 0x4000, 32, 3⟩

/-- LNK_PARTNER (R121). -/
def LNK_PARTNER.addr (n : Nat) : Nat := 0x100020 + n * 0x4000
def LNK_PARTNER.PROTO (n : Nat) : FRef := ⟨0x100020 + n * 0x4000, 0, 16⟩
def LNK_PARTNER.DEV (n : Nat) : FRef := ⟨0x100020 + n * 0x4000, 16, 12⟩
def LNK_PARTNER.PORT (n : Nat) : FRef := ⟨0x100020 + n * 0x4000, 28, 8⟩
def LNK_PARTNER.ROLE (n : Nat) : FRef := ⟨0x100020 + n * 0x4000, 36, 4⟩
def LNK_PARTNER.FEATURES (n : Nat) : FRef := ⟨0x100020 + n * 0x4000, 40, 8⟩

/-- LNK_PARTNER_SIG (R121). -/
def LNK_PARTNER_SIG.addr (n : Nat) : Nat := 0x100028 + n * 0x4000
def LNK_PARTNER_SIG.DET_SIG (n : Nat) : FRef := ⟨0x100028 + n * 0x4000, 0, 64⟩

/-- LNK_LIFE (R310). -/
def LNK_LIFE.addr (n : Nat) : Nat := 0x100030 + n * 0x4000
def LNK_LIFE.ENABLE (n : Nat) : FRef := ⟨0x100030 + n * 0x4000, 0, 1⟩
def LNK_LIFE.DISABLE (n : Nat) : FRef := ⟨0x100030 + n * 0x4000, 1, 1⟩
def LNK_LIFE.FORCE (n : Nat) : FRef := ⟨0x100030 + n * 0x4000, 2, 1⟩
def LNK_LIFE.PENDING_EN (n : Nat) : FRef := ⟨0x100030 + n * 0x4000, 3, 1⟩
def LNK_LIFE.PENDING_DIS (n : Nat) : FRef := ⟨0x100030 + n * 0x4000, 4, 1⟩
def LNK_LIFE.LAST_STATUS (n : Nat) : FRef := ⟨0x100030 + n * 0x4000, 8, 8⟩

/-- LNK_REPLAY_CFG (R121). -/
def LNK_REPLAY_CFG.addr (n : Nat) : Nat := 0x100040 + n * 0x4000
def LNK_REPLAY_CFG.MAX_ATTEMPTS (n : Nat) : FRef := ⟨0x100040 + n * 0x4000, 0, 4⟩
def LNK_REPLAY_CFG.E2E_TIMEOUT (n : Nat) : FRef := ⟨0x100040 + n * 0x4000, 32, 13⟩

/-- LNK_REPLAY_STAT (R121). -/
def LNK_REPLAY_STAT.addr (n : Nat) : Nat := 0x100048 + n * 0x4000
def LNK_REPLAY_STAT.EPISODES (n : Nat) : FRef := ⟨0x100048 + n * 0x4000, 0, 16⟩
def LNK_REPLAY_STAT.ATTEMPTS (n : Nat) : FRef := ⟨0x100048 + n * 0x4000, 16, 16⟩
def LNK_REPLAY_STAT.LONGEST (n : Nat) : FRef := ⟨0x100048 + n * 0x4000, 32, 16⟩
def LNK_REPLAY_STAT.DOWNS (n : Nat) : FRef := ⟨0x100048 + n * 0x4000, 48, 8⟩

/-- LNK_SCREEN (R121). -/
def LNK_SCREEN.addr (n : Nat) : Nat := 0x100050 + n * 0x4000
def LNK_SCREEN.STALE (n : Nat) : FRef := ⟨0x100050 + n * 0x4000, 0, 16⟩
def LNK_SCREEN.DUPLICATE (n : Nat) : FRef := ⟨0x100050 + n * 0x4000, 16, 16⟩
def LNK_SCREEN.LOST (n : Nat) : FRef := ⟨0x100050 + n * 0x4000, 32, 16⟩
def LNK_SCREEN.HDR_BAD (n : Nat) : FRef := ⟨0x100050 + n * 0x4000, 48, 16⟩

/-- LANE_STATUS (R87). -/
def LANE_STATUS.addr (n : Nat) (l : Nat) : Nat := 0x101000 + n * 0x4000 + l * 0x200
def LANE_STATUS.STATE (n : Nat) (l : Nat) : FRef := ⟨0x101000 + n * 0x4000 + l * 0x200, 0, 4⟩
def LANE_STATUS.LOS (n : Nat) (l : Nat) : FRef := ⟨0x101000 + n * 0x4000 + l * 0x200, 4, 1⟩
def LANE_STATUS.CDR_LOL (n : Nat) (l : Nat) : FRef := ⟨0x101000 + n * 0x4000 + l * 0x200, 5, 1⟩
def LANE_STATUS.PLL_LOL (n : Nat) (l : Nat) : FRef := ⟨0x101000 + n * 0x4000 + l * 0x200, 6, 1⟩
def LANE_STATUS.FREQ_OFS (n : Nat) (l : Nat) : FRef := ⟨0x101000 + n * 0x4000 + l * 0x200, 16, 8⟩
def LANE_STATUS.MARGIN_H (n : Nat) (l : Nat) : FRef := ⟨0x101000 + n * 0x4000 + l * 0x200, 32, 8⟩
def LANE_STATUS.MARGIN_W (n : Nat) (l : Nat) : FRef := ⟨0x101000 + n * 0x4000 + l * 0x200, 40, 6⟩
def LANE_STATUS.FEC_SYM (n : Nat) (l : Nat) : FRef := ⟨0x101000 + n * 0x4000 + l * 0x200, 48, 16⟩

/-- LANE_PRBS_CFG (R87). -/
def LANE_PRBS_CFG.addr (n : Nat) (l : Nat) : Nat := 0x101008 + n * 0x4000 + l * 0x200
def LANE_PRBS_CFG.TX_PAT (n : Nat) (l : Nat) : FRef := ⟨0x101008 + n * 0x4000 + l * 0x200, 0, 3⟩
def LANE_PRBS_CFG.RX_PAT (n : Nat) (l : Nat) : FRef := ⟨0x101008 + n * 0x4000 + l * 0x200, 4, 3⟩
def LANE_PRBS_CFG.INVERT (n : Nat) (l : Nat) : FRef := ⟨0x101008 + n * 0x4000 + l * 0x200, 7, 1⟩
def LANE_PRBS_CFG.CLEAR (n : Nat) (l : Nat) : FRef := ⟨0x101008 + n * 0x4000 + l * 0x200, 8, 1⟩

/-- LANE_PRBS_ERR (R87). -/
def LANE_PRBS_ERR.addr (n : Nat) (l : Nat) : Nat := 0x101010 + n * 0x4000 + l * 0x200
def LANE_PRBS_ERR.ERRORS (n : Nat) (l : Nat) : FRef := ⟨0x101010 + n * 0x4000 + l * 0x200, 0, 32⟩
def LANE_PRBS_ERR.BITS (n : Nat) (l : Nat) : FRef := ⟨0x101010 + n * 0x4000 + l * 0x200, 32, 31⟩
def LANE_PRBS_ERR.SYNC (n : Nat) (l : Nat) : FRef := ⟨0x101010 + n * 0x4000 + l * 0x200, 63, 1⟩

/-- LANE_INJECT (R87). -/
def LANE_INJECT.addr (n : Nat) (l : Nat) : Nat := 0x101018 + n * 0x4000 + l * 0x200
def LANE_INJECT.MODE (n : Nat) (l : Nat) : FRef := ⟨0x101018 + n * 0x4000 + l * 0x200, 0, 2⟩
def LANE_INJECT.GO (n : Nat) (l : Nat) : FRef := ⟨0x101018 + n * 0x4000 + l * 0x200, 2, 1⟩
def LANE_INJECT.BURST_SYM (n : Nat) (l : Nat) : FRef := ⟨0x101018 + n * 0x4000 + l * 0x200, 8, 8⟩
def LANE_INJECT.PERIOD (n : Nat) (l : Nat) : FRef := ⟨0x101018 + n * 0x4000 + l * 0x200, 16, 16⟩
def LANE_INJECT.INJECTED (n : Nat) (l : Nat) : FRef := ⟨0x101018 + n * 0x4000 + l * 0x200, 32, 32⟩

/-- LANE_MARGIN (R87). -/
def LANE_MARGIN.addr (n : Nat) (l : Nat) : Nat := 0x101020 + n * 0x4000 + l * 0x200
def LANE_MARGIN.PHASE (n : Nat) (l : Nat) : FRef := ⟨0x101020 + n * 0x4000 + l * 0x200, 0, 6⟩
def LANE_MARGIN.EYE (n : Nat) (l : Nat) : FRef := ⟨0x101020 + n * 0x4000 + l * 0x200, 6, 2⟩
def LANE_MARGIN.VOLT (n : Nat) (l : Nat) : FRef := ⟨0x101020 + n * 0x4000 + l * 0x200, 8, 6⟩
def LANE_MARGIN.DWELL (n : Nat) (l : Nat) : FRef := ⟨0x101020 + n * 0x4000 + l * 0x200, 16, 3⟩
def LANE_MARGIN.GO (n : Nat) (l : Nat) : FRef := ⟨0x101020 + n * 0x4000 + l * 0x200, 24, 1⟩
def LANE_MARGIN.BUSY (n : Nat) (l : Nat) : FRef := ⟨0x101020 + n * 0x4000 + l * 0x200, 25, 1⟩
def LANE_MARGIN.DONE (n : Nat) (l : Nat) : FRef := ⟨0x101020 + n * 0x4000 + l * 0x200, 26, 1⟩
def LANE_MARGIN.ABORTED (n : Nat) (l : Nat) : FRef := ⟨0x101020 + n * 0x4000 + l * 0x200, 27, 1⟩
def LANE_MARGIN.ERRORS (n : Nat) (l : Nat) : FRef := ⟨0x101020 + n * 0x4000 + l * 0x200, 32, 32⟩

/-- LANE_PRBS_USER (R87). -/
def LANE_PRBS_USER.addr (n : Nat) (l : Nat) : Nat := 0x101028 + n * 0x4000 + l * 0x200
def LANE_PRBS_USER.PATTERN_LO (n : Nat) (l : Nat) : FRef := ⟨0x101028 + n * 0x4000 + l * 0x200, 0, 32⟩
def LANE_PRBS_USER.PATTERN_HI (n : Nat) (l : Nat) : FRef := ⟨0x101028 + n * 0x4000 + l * 0x200, 32, 32⟩

/-- SWX_CTRL (R149). -/
def SWX_CTRL.addr : Nat := 0x200000
def SWX_CTRL.DEV_NUM : FRef := ⟨0x200000, 0, 12⟩
def SWX_CTRL.DEV_SET : FRef := ⟨0x200000, 12, 1⟩
def SWX_CTRL.GO : FRef := ⟨0x200000, 16, 1⟩
def SWX_CTRL.STORE_FWD : FRef := ⟨0x200000, 17, 1⟩
def SWX_CTRL.DRAIN_HOLD : FRef := ⟨0x200000, 24, 8⟩
def SWX_CTRL.DRAIN_LIMIT : FRef := ⟨0x200000, 32, 16⟩

/-- SWX_DISCARD (R149). -/
def SWX_DISCARD.addr : Nat := 0x200008
def SWX_DISCARD.UNROUTABLE : FRef := ⟨0x200008, 0, 16⟩
def SWX_DISCARD.DOMAIN : FRef := ⟨0x200008, 16, 16⟩
def SWX_DISCARD.RING : FRef := ⟨0x200008, 32, 16⟩
def SWX_DISCARD.SCHED_TRANSIT : FRef := ⟨0x200008, 48, 16⟩

/-- SWX_ZENITH (R149). -/
def SWX_ZENITH.addr : Nat := 0x200010
def SWX_ZENITH.BUSY : FRef := ⟨0x200010, 0, 16⟩
def SWX_ZENITH.MAX_WAIT : FRef := ⟨0x200010, 32, 16⟩
def SWX_ZENITH.CLEAR : FRef := ⟨0x200010, 48, 1⟩

/-- SWX_VC_WEIGHT (R149). -/
def SWX_VC_WEIGHT.addr (v : Nat) : Nat := 0x200040 + v * 0x8
def SWX_VC_WEIGHT.WEIGHT (v : Nat) : FRef := ⟨0x200040 + v * 0x8, 0, 9⟩

/-- SWX_EPOCH (R149). -/
def SWX_EPOCH.addr (d : Nat) : Nat := 0x200100 + d * 0x8
def SWX_EPOCH.CUR (d : Nat) : FRef := ⟨0x200100 + d * 0x8, 0, 3⟩
def SWX_EPOCH.DRAINING (d : Nat) : FRef := ⟨0x200100 + d * 0x8, 3, 1⟩
def SWX_EPOCH.DRAIN_BANK (d : Nat) : FRef := ⟨0x200100 + d * 0x8, 4, 1⟩
def SWX_EPOCH.DRAIN_COUNT (d : Nat) : FRef := ⟨0x200100 + d * 0x8, 16, 16⟩
def SWX_EPOCH.MISMATCH (d : Nat) : FRef := ⟨0x200100 + d * 0x8, 32, 16⟩
def SWX_EPOCH.DRAIN_SLOTS (d : Nat) : FRef := ⟨0x200100 + d * 0x8, 48, 16⟩

/-- SWX_FLUSH (R149). -/
def SWX_FLUSH.addr (p : Nat) : Nat := 0x200400 + p * 0x8
def SWX_FLUSH.PACKETS (p : Nat) : FRef := ⟨0x200400 + p * 0x8, 0, 32⟩
def SWX_FLUSH.UNITS (p : Nat) : FRef := ⟨0x200400 + p * 0x8, 32, 32⟩

/-- COL_STAT (R183). -/
def COL_STAT.addr : Nat := 0x300000
def COL_STAT.UNKNOWN_TAG : FRef := ⟨0x300000, 0, 16⟩
def COL_STAT.LATE : FRef := ⟨0x300000, 16, 16⟩
def COL_STAT.DUP : FRef := ⟨0x300000, 32, 16⟩
def COL_STAT.NO_SLOT : FRef := ⟨0x300000, 48, 16⟩

/-- COL_TICKET (R183). -/
def COL_TICKET.addr (d : Nat) : Nat := 0x300100 + d * 0x8
def COL_TICKET.NEXT (d : Nat) : FRef := ⟨0x300100 + d * 0x8, 0, 25⟩
def COL_TICKET.HOME (d : Nat) : FRef := ⟨0x300100 + d * 0x8, 25, 1⟩
def COL_TICKET.HOME_DEV (d : Nat) : FRef := ⟨0x300100 + d * 0x8, 32, 12⟩
def COL_TICKET.HOME_SET (d : Nat) : FRef := ⟨0x300100 + d * 0x8, 44, 1⟩
def COL_TICKET.HOME_SLICE (d : Nat) : FRef := ⟨0x300100 + d * 0x8, 48, 6⟩

/-- COL_SLICE (R183). -/
def COL_SLICE.addr (n : Nat) : Nat := 0x300400 + n * 0x8
def COL_SLICE.SCHED_LIMIT (n : Nat) : FRef := ⟨0x300400 + n * 0x8, 0, 10⟩
def COL_SLICE.OPEN (n : Nat) : FRef := ⟨0x300400 + n * 0x8, 16, 10⟩
def COL_SLICE.DYN_BASE (n : Nat) : FRef := ⟨0x300400 + n * 0x8, 26, 6⟩
def COL_SLICE.LOW_TICKET (n : Nat) : FRef := ⟨0x300400 + n * 0x8, 32, 25⟩
def COL_SLICE.LOW_VALID (n : Nat) : FRef := ⟨0x300400 + n * 0x8, 57, 1⟩

/-- COL_LATE_HIST (R183). -/
def COL_LATE_HIST.addr (n : Nat) (b : Nat) : Nat := 0x301000 + n * 0x20 + b * 0x8
def COL_LATE_HIST.BIN_LO (n : Nat) (b : Nat) : FRef := ⟨0x301000 + n * 0x20 + b * 0x8, 0, 32⟩
def COL_LATE_HIST.BIN_HI (n : Nat) (b : Nat) : FRef := ⟨0x301000 + n * 0x20 + b * 0x8, 32, 32⟩

/-- COL_DESC_STATUS (R183). -/
def COL_DESC_STATUS.addr (n : Nat) (i : Nat) : Nat := 0x380000 + n * 0x1000 + i * 0x8
def COL_DESC_STATUS.STATE (n : Nat) (i : Nat) : FRef := ⟨0x380000 + n * 0x1000 + i * 0x8, 0, 3⟩
def COL_DESC_STATUS.REFORMED (n : Nat) (i : Nat) : FRef := ⟨0x380000 + n * 0x1000 + i * 0x8, 3, 1⟩
def COL_DESC_STATUS.NONFINITE (n : Nat) (i : Nat) : FRef := ⟨0x380000 + n * 0x1000 + i * 0x8, 4, 1⟩
def COL_DESC_STATUS.EPOCH (n : Nat) (i : Nat) : FRef := ⟨0x380000 + n * 0x1000 + i * 0x8, 5, 3⟩
def COL_DESC_STATUS.CODE (n : Nat) (i : Nat) : FRef := ⟨0x380000 + n * 0x1000 + i * 0x8, 8, 8⟩
def COL_DESC_STATUS.CHUNKS_DONE (n : Nat) (i : Nat) : FRef := ⟨0x380000 + n * 0x1000 + i * 0x8, 16, 20⟩
def COL_DESC_STATUS.EXCLUDED (n : Nat) (i : Nat) : FRef := ⟨0x380000 + n * 0x1000 + i * 0x8, 48, 16⟩

/-- SLC_STATE (R310). -/
def SLC_STATE.addr (n : Nat) : Nat := 0x400000 + n * 0x10000
def SLC_STATE.LIFECYCLE (n : Nat) : FRef := ⟨0x400000 + n * 0x10000, 0, 2⟩
def SLC_STATE.PENDING_EN (n : Nat) : FRef := ⟨0x400000 + n * 0x10000, 2, 1⟩
def SLC_STATE.PENDING_DIS (n : Nat) : FRef := ⟨0x400000 + n * 0x10000, 3, 1⟩
def SLC_STATE.FAULT_STOP (n : Nat) : FRef := ⟨0x400000 + n * 0x10000, 4, 1⟩
def SLC_STATE.LAST_STATUS (n : Nat) : FRef := ⟨0x400000 + n * 0x10000, 8, 8⟩
def SLC_STATE.DIE (n : Nat) : FRef := ⟨0x400000 + n * 0x10000, 16, 5⟩
def SLC_STATE.QUARTER (n : Nat) : FRef := ⟨0x400000 + n * 0x10000, 21, 2⟩
def SLC_STATE.TRANSITIONS (n : Nat) : FRef := ⟨0x400000 + n * 0x10000, 32, 32⟩

/-- SLC_CTRL (R310). -/
def SLC_CTRL.addr (n : Nat) : Nat := 0x400008 + n * 0x10000
def SLC_CTRL.ENABLE (n : Nat) : FRef := ⟨0x400008 + n * 0x10000, 0, 1⟩
def SLC_CTRL.DISABLE (n : Nat) : FRef := ⟨0x400008 + n * 0x10000, 1, 1⟩

/-- SLC_DOMAIN (R310). -/
def SLC_DOMAIN.addr (n : Nat) : Nat := 0x400010 + n * 0x10000
def SLC_DOMAIN.DOMAIN (n : Nat) : FRef := ⟨0x400010 + n * 0x10000, 0, 6⟩
def SLC_DOMAIN.ASSIGNED (n : Nat) : FRef := ⟨0x400010 + n * 0x10000, 6, 1⟩

/-- SLC_QUOTA (R310). -/
def SLC_QUOTA.addr (n : Nat) : Nat := 0x400018 + n * 0x10000
def SLC_QUOTA.TXN_LIMIT (n : Nat) : FRef := ⟨0x400018 + n * 0x10000, 0, 11⟩
def SLC_QUOTA.TX_UNITS (n : Nat) : FRef := ⟨0x400018 + n * 0x10000, 16, 9⟩

/-- SLC_SEQ_STATUS (R267). -/
def SLC_SEQ_STATUS.addr (n : Nat) : Nat := 0x400020 + n * 0x10000
def SLC_SEQ_STATUS.STATE (n : Nat) : FRef := ⟨0x400020 + n * 0x10000, 0, 2⟩
def SLC_SEQ_STATUS.BANK (n : Nat) : FRef := ⟨0x400020 + n * 0x10000, 2, 1⟩
def SLC_SEQ_STATUS.ENTRY (n : Nat) : FRef := ⟨0x400020 + n * 0x10000, 8, 14⟩
def SLC_SEQ_STATUS.REPEATS_LEFT (n : Nat) : FRef := ⟨0x400020 + n * 0x10000, 32, 32⟩

/-- SLC_STOP_AT (R267). -/
def SLC_STOP_AT.addr (n : Nat) : Nat := 0x400060 + n * 0x10000
def SLC_STOP_AT.COUNT (n : Nat) : FRef := ⟨0x400060 + n * 0x10000, 0, 32⟩
def SLC_STOP_AT.STREAM (n : Nat) : FRef := ⟨0x400060 + n * 0x10000, 32, 2⟩
def SLC_STOP_AT.ARM (n : Nat) : FRef := ⟨0x400060 + n * 0x10000, 34, 1⟩
def SLC_STOP_AT.STOPPED (n : Nat) : FRef := ⟨0x400060 + n * 0x10000, 35, 1⟩
def SLC_STOP_AT.HALTED (n : Nat) : FRef := ⟨0x400060 + n * 0x10000, 36, 1⟩
def SLC_STOP_AT.RESUME (n : Nat) : FRef := ⟨0x400060 + n * 0x10000, 37, 1⟩
def SLC_STOP_AT.RUN_SKIP (n : Nat) : FRef := ⟨0x400060 + n * 0x10000, 40, 8⟩

/-- SLC_DBG_PAGE (R267). -/
def SLC_DBG_PAGE.addr (n : Nat) : Nat := 0x400078 + n * 0x10000
def SLC_DBG_PAGE.PAGE (n : Nat) : FRef := ⟨0x400078 + n * 0x10000, 0, 3⟩

/-- SLC_ENG_PC (R267). -/
def SLC_ENG_PC.addr (n : Nat) (s : Nat) : Nat := 0x400040 + n * 0x10000 + s * 0x8
def SLC_ENG_PC.PC (n : Nat) (s : Nat) : FRef := ⟨0x400040 + n * 0x10000 + s * 0x8, 0, 13⟩
def SLC_ENG_PC.BANK (n : Nat) (s : Nat) : FRef := ⟨0x400040 + n * 0x10000 + s * 0x8, 13, 1⟩
def SLC_ENG_PC.STATE (n : Nat) (s : Nat) : FRef := ⟨0x400040 + n * 0x10000 + s * 0x8, 16, 3⟩
def SLC_ENG_PC.QUEUED (n : Nat) (s : Nat) : FRef := ⟨0x400040 + n * 0x10000 + s * 0x8, 19, 5⟩
def SLC_ENG_PC.ICOUNT (n : Nat) (s : Nat) : FRef := ⟨0x400040 + n * 0x10000 + s * 0x8, 32, 32⟩

/-- SLC_NONFINITE (R267). -/
def SLC_NONFINITE.addr (n : Nat) (e : Nat) : Nat := 0x400068 + n * 0x10000 + e * 0x8
def SLC_NONFINITE.INSTR (n : Nat) (e : Nat) : FRef := ⟨0x400068 + n * 0x10000 + e * 0x8, 0, 32⟩
def SLC_NONFINITE.INDEX (n : Nat) (e : Nat) : FRef := ⟨0x400068 + n * 0x10000 + e * 0x8, 32, 16⟩
def SLC_NONFINITE.COUNT (n : Nat) (e : Nat) : FRef := ⟨0x400068 + n * 0x10000 + e * 0x8, 48, 8⟩
def SLC_NONFINITE.VALID (n : Nat) (e : Nat) : FRef := ⟨0x400068 + n * 0x10000 + e * 0x8, 56, 1⟩
def SLC_NONFINITE.ARRAY (n : Nat) (e : Nat) : FRef := ⟨0x400068 + n * 0x10000 + e * 0x8, 57, 1⟩
def SLC_NONFINITE.CLEAR (n : Nat) (e : Nat) : FRef := ⟨0x400068 + n * 0x10000 + e * 0x8, 63, 1⟩

/-- MEM_STATUS (R292). -/
def MEM_STATUS.addr : Nat := 0x800000
def MEM_STATUS.STACK : FRef := ⟨0x800000, 0, 32⟩
def MEM_STATUS.DEGRADED : FRef := ⟨0x800000, 32, 1⟩
def MEM_STATUS.MULTI : FRef := ⟨0x800000, 33, 1⟩

/-- MEM_ECC (R292). -/
def MEM_ECC.addr : Nat := 0x800008
def MEM_ECC.CE : FRef := ⟨0x800008, 0, 24⟩
def MEM_ECC.BOUND : FRef := ⟨0x800008, 24, 8⟩
def MEM_ECC.UE : FRef := ⟨0x800008, 32, 16⟩
def MEM_ECC.RETIRED : FRef := ⟨0x800008, 48, 16⟩

/-- MEM_SCRUB (R292). -/
def MEM_SCRUB.addr : Nat := 0x800010
def MEM_SCRUB.HOURS : FRef := ⟨0x800010, 0, 8⟩
def MEM_SCRUB.CE_RETIRE : FRef := ⟨0x800010, 8, 4⟩
def MEM_SCRUB.PASSES : FRef := ⟨0x800010, 32, 32⟩

/-- MEM_SPARES (R292). -/
def MEM_SPARES.addr : Nat := 0x800018
def MEM_SPARES.SPARES_LEFT : FRef := ⟨0x800018, 0, 16⟩
def MEM_SPARES.RELOC_FRAMES : FRef := ⟨0x800018, 32, 32⟩

/-- MEM_RETIRE (R292). -/
def MEM_RETIRE.addr : Nat := 0x800020
def MEM_RETIRE.FRAME : FRef := ⟨0x800020, 0, 25⟩

/-- MEM_DOM_SHARD (R292). -/
def MEM_DOM_SHARD.addr (d : Nat) : Nat := 0x800100 + d * 0x8
def MEM_DOM_SHARD.BASE_GIB (d : Nat) : FRef := ⟨0x800100 + d * 0x8, 0, 11⟩
def MEM_DOM_SHARD.SIZE_GIB (d : Nat) : FRef := ⟨0x800100 + d * 0x8, 32, 11⟩

/-- MEM_DOM_PROG (R292). -/
def MEM_DOM_PROG.addr (d : Nat) : Nat := 0x800300 + d * 0x8
def MEM_DOM_PROG.BASE_MIB (d : Nat) : FRef := ⟨0x800300 + d * 0x8, 0, 18⟩
def MEM_DOM_PROG.GRAD_MIB (d : Nat) : FRef := ⟨0x800300 + d * 0x8, 18, 14⟩
def MEM_DOM_PROG.SCRATCH_MIB (d : Nat) : FRef := ⟨0x800300 + d * 0x8, 32, 18⟩

/-- MEM_STAGE (R292). -/
def MEM_STAGE.addr (n : Nat) : Nat := 0x800500 + n * 0x8
def MEM_STAGE.PROG_MIB (n : Nat) : FRef := ⟨0x800500 + n * 0x8, 0, 6⟩

/-- MEM_APER_DOM (R428). -/
def MEM_APER_DOM.addr (r : Nat) : Nat := 0x800800 + r * 0x10
def MEM_APER_DOM.DOMAIN (r : Nat) : FRef := ⟨0x800800 + r * 0x10, 0, 6⟩
def MEM_APER_DOM.ENABLE (r : Nat) : FRef := ⟨0x800800 + r * 0x10, 6, 1⟩
def MEM_APER_DOM.ADDR_LO (r : Nat) : FRef := ⟨0x800800 + r * 0x10, 22, 10⟩
def MEM_APER_DOM.ADDR_HI (r : Nat) : FRef := ⟨0x800800 + r * 0x10, 32, 25⟩

/-- MEM_APER_STAGE (R428). -/
def MEM_APER_STAGE.addr (r : Nat) : Nat := 0x800808 + r * 0x10
def MEM_APER_STAGE.SLICE (r : Nat) : FRef := ⟨0x800808 + r * 0x10, 0, 6⟩
def MEM_APER_STAGE.ENABLE (r : Nat) : FRef := ⟨0x800808 + r * 0x10, 6, 1⟩
def MEM_APER_STAGE.STAGE_OFF (r : Nat) : FRef := ⟨0x800808 + r * 0x10, 22, 4⟩

/-- POOL_CFG (R292). -/
def POOL_CFG.addr : Nat := 0x900000
def POOL_CFG.AGE_LIMIT : FRef := ⟨0x900000, 0, 32⟩
def POOL_CFG.WAIT_LIMIT : FRef := ⟨0x900000, 32, 32⟩

/-- POOL_MGMT (R292). -/
def POOL_MGMT.addr : Nat := 0x900020
def POOL_MGMT.FREE : FRef := ⟨0x900020, 0, 16⟩
def POOL_MGMT.WAITERS : FRef := ⟨0x900020, 16, 16⟩

/-- POOL_FREE (R292). -/
def POOL_FREE.addr (n : Nat) : Nat := 0x900100 + n * 0x8
def POOL_FREE.FREE0 (n : Nat) : FRef := ⟨0x900100 + n * 0x8, 0, 16⟩
def POOL_FREE.FREE1 (n : Nat) : FRef := ⟨0x900100 + n * 0x8, 16, 16⟩
def POOL_FREE.FREE2 (n : Nat) : FRef := ⟨0x900100 + n * 0x8, 32, 16⟩
def POOL_FREE.FREE3 (n : Nat) : FRef := ⟨0x900100 + n * 0x8, 48, 16⟩

/-- POOL_STAT (R292). -/
def POOL_STAT.addr (n : Nat) : Nat := 0x900300 + n * 0x8
def POOL_STAT.FALLBACK (n : Nat) : FRef := ⟨0x900300 + n * 0x8, 0, 16⟩
def POOL_STAT.NO_SLOT (n : Nat) : FRef := ⟨0x900300 + n * 0x8, 16, 16⟩
def POOL_STAT.WAITERS (n : Nat) : FRef := ⟨0x900300 + n * 0x8, 32, 16⟩
def POOL_STAT.RECLAIMED (n : Nat) : FRef := ⟨0x900300 + n * 0x8, 48, 16⟩

/-- POOL_AUDIT (R292). -/
def POOL_AUDIT.addr (o : Nat) : Nat := 0x901000 + o * 0x8
def POOL_AUDIT.OUT (o : Nat) : FRef := ⟨0x901000 + o * 0x8, 0, 16⟩
def POOL_AUDIT.AGED (o : Nat) : FRef := ⟨0x901000 + o * 0x8, 16, 1⟩
def POOL_AUDIT.OLDEST (o : Nat) : FRef := ⟨0x901000 + o * 0x8, 32, 32⟩

/-- PST_CTRL (R214). -/
def PST_CTRL.addr (d : Nat) : Nat := 0x7000000 + d * 0x40000
def PST_CTRL.GO (d : Nat) : FRef := ⟨0x7000000 + d * 0x40000, 0, 1⟩
def PST_CTRL.PAUSE (d : Nat) : FRef := ⟨0x7000000 + d * 0x40000, 1, 1⟩
def PST_CTRL.RESOLVE (d : Nat) : FRef := ⟨0x7000000 + d * 0x40000, 2, 1⟩
def PST_CTRL.RESOLVE_ACT (d : Nat) : FRef := ⟨0x7000000 + d * 0x40000, 3, 1⟩
def PST_CTRL.ROLLBACK (d : Nat) : FRef := ⟨0x7000000 + d * 0x40000, 4, 1⟩

/-- PST_LAYOUT (R214). -/
def PST_LAYOUT.addr (d : Nat) : Nat := 0x7000008 + d * 0x40000
def PST_LAYOUT.CHUNK_ELEMS (d : Nat) : FRef := ⟨0x7000008 + d * 0x40000, 0, 17⟩
def PST_LAYOUT.STATE_WORDS (d : Nat) : FRef := ⟨0x7000008 + d * 0x40000, 17, 3⟩
def PST_LAYOUT.STATE_FMT (d : Nat) : FRef := ⟨0x7000008 + d * 0x40000, 20, 1⟩
def PST_LAYOUT.ROLLBACK (d : Nat) : FRef := ⟨0x7000008 + d * 0x40000, 21, 2⟩
def PST_LAYOUT.NONFINITE (d : Nat) : FRef := ⟨0x7000008 + d * 0x40000, 23, 2⟩
def PST_LAYOUT.RING_N (d : Nat) : FRef := ⟨0x7000008 + d * 0x40000, 32, 12⟩
def PST_LAYOUT.RING_POS (d : Nat) : FRef := ⟨0x7000008 + d * 0x40000, 44, 12⟩

/-- PST_SHARD (R214). -/
def PST_SHARD.addr (d : Nat) : Nat := 0x7000010 + d * 0x40000
def PST_SHARD.LOCAL_CHUNKS (d : Nat) : FRef := ⟨0x7000010 + d * 0x40000, 0, 32⟩
def PST_SHARD.GRAD_SLOTS (d : Nat) : FRef := ⟨0x7000010 + d * 0x40000, 32, 32⟩

/-- PST_SEED (R214). -/
def PST_SEED.addr (d : Nat) : Nat := 0x7000018 + d * 0x40000
def PST_SEED.SEED_LO (d : Nat) : FRef := ⟨0x7000018 + d * 0x40000, 0, 32⟩
def PST_SEED.SEED_HI (d : Nat) : FRef := ⟨0x7000018 + d * 0x40000, 32, 32⟩

/-- PST_STEP (R214). -/
def PST_STEP.addr (d : Nat) : Nat := 0x7000020 + d * 0x40000
def PST_STEP.COMMITTED (d : Nat) : FRef := ⟨0x7000020 + d * 0x40000, 0, 32⟩
def PST_STEP.SHADOW_OK (d : Nat) : FRef := ⟨0x7000020 + d * 0x40000, 32, 1⟩

/-- PST_STATUS (R214). -/
def PST_STATUS.addr (d : Nat) : Nat := 0x7000028 + d * 0x40000
def PST_STATUS.STATE (d : Nat) : FRef := ⟨0x7000028 + d * 0x40000, 0, 3⟩
def PST_STATUS.LAST_STATUS (d : Nat) : FRef := ⟨0x7000028 + d * 0x40000, 8, 8⟩
def PST_STATUS.FAIL_CAUSE (d : Nat) : FRef := ⟨0x7000028 + d * 0x40000, 16, 4⟩
def PST_STATUS.MOM_KEPT (d : Nat) : FRef := ⟨0x7000028 + d * 0x40000, 32, 16⟩
def PST_STATUS.SKIPPED (d : Nat) : FRef := ⟨0x7000028 + d * 0x40000, 48, 16⟩

/-- DOM_ARITH (R233). -/
def DOM_ARITH.addr (d : Nat) : Nat := 0x7000030 + d * 0x40000
def DOM_ARITH.STRICT (d : Nat) : FRef := ⟨0x7000030 + d * 0x40000, 0, 1⟩

/-- DOM_LINKS (R310). -/
def DOM_LINKS.addr (d : Nat) : Nat := 0x7000038 + d * 0x40000
def DOM_LINKS.LINKS (d : Nat) : FRef := ⟨0x7000038 + d * 0x40000, 0, 48⟩

/-- DOM_STATE (R310). -/
def DOM_STATE.addr (d : Nat) : Nat := 0x7000040 + d * 0x40000
def DOM_STATE.STATE (d : Nat) : FRef := ⟨0x7000040 + d * 0x40000, 0, 2⟩
def DOM_STATE.LAST_STATUS (d : Nat) : FRef := ⟨0x7000040 + d * 0x40000, 8, 8⟩
def DOM_STATE.SLICES (d : Nat) : FRef := ⟨0x7000040 + d * 0x40000, 16, 7⟩
def DOM_STATE.ZERO_LEFT (d : Nat) : FRef := ⟨0x7000040 + d * 0x40000, 32, 32⟩

/-- DOM_DET_SIG (R376). -/
def DOM_DET_SIG.addr (d : Nat) : Nat := 0x7000048 + d * 0x40000
def DOM_DET_SIG.DEVICE (d : Nat) : FRef := ⟨0x7000048 + d * 0x40000, 0, 56⟩
def DOM_DET_SIG.MODE (d : Nat) : FRef := ⟨0x7000048 + d * 0x40000, 56, 8⟩

/-- DOM_STEP_FP (R376). -/
def DOM_STEP_FP.addr (d : Nat) : Nat := 0x7000050 + d * 0x40000
def DOM_STEP_FP.FP (d : Nat) : FRef := ⟨0x7000050 + d * 0x40000, 0, 64⟩

/-- DOM_STEP_FP_INFO (R376). -/
def DOM_STEP_FP_INFO.addr (d : Nat) : Nat := 0x7000058 + d * 0x40000
def DOM_STEP_FP_INFO.STEP (d : Nat) : FRef := ⟨0x7000058 + d * 0x40000, 0, 32⟩
def DOM_STEP_FP_INFO.VALID (d : Nat) : FRef := ⟨0x7000058 + d * 0x40000, 32, 1⟩

/-- PST_TAG (R214). -/
def PST_TAG.addr (d : Nat) : Nat := 0x7000060 + d * 0x40000
def PST_TAG.HSET_TAG (d : Nat) : FRef := ⟨0x7000060 + d * 0x40000, 0, 32⟩
def PST_TAG.TAG_STEP (d : Nat) : FRef := ⟨0x7000060 + d * 0x40000, 32, 32⟩

/-- DOM_RESV (R310). -/
def DOM_RESV.addr (d : Nat) (n : Nat) : Nat := 0x7000200 + d * 0x40000 + n * 0x8
def DOM_RESV.IN_UNITS (d : Nat) (n : Nat) : FRef := ⟨0x7000200 + d * 0x40000 + n * 0x8, 0, 9⟩
def DOM_RESV.OUT_UNITS (d : Nat) (n : Nat) : FRef := ⟨0x7000200 + d * 0x40000 + n * 0x8, 16, 9⟩

/-- The fields of each register; bits of no field are reserved (R8). -/
def regFields : RegId → List FieldDesc
  | .GLB_ID => [⟨0, 16, .ro⟩, ⟨16, 16, .ro⟩, ⟨32, 8, .ro⟩, ⟨40, 8, .ro⟩]
  | .GLB_FEATURES0 => [⟨0, 8, .ro⟩, ⟨8, 4, .ro⟩, ⟨12, 8, .ro⟩, ⟨20, 8, .ro⟩, ⟨32, 12, .ro⟩, ⟨44, 8, .ro⟩, ⟨52, 12, .ro⟩]
  | .GLB_FEATURES1 => [⟨0, 16, .ro⟩, ⟨16, 16, .ro⟩, ⟨32, 8, .ro⟩, ⟨40, 8, .ro⟩, ⟨48, 8, .ro⟩, ⟨56, 8, .ro⟩]
  | .GLB_FEATURES2 => [⟨0, 8, .ro⟩, ⟨16, 8, .ro⟩, ⟨24, 8, .ro⟩, ⟨32, 10, .ro⟩, ⟨48, 4, .ro⟩, ⟨52, 4, .ro⟩]
  | .GLB_FEATURES3 => [⟨0, 12, .ro⟩, ⟨16, 16, .ro⟩, ⟨32, 6, .ro⟩, ⟨40, 8, .ro⟩, ⟨48, 5, .ro⟩, ⟨53, 11, .ro⟩]
  | .GLB_DET_SIG => [⟨0, 8, .ro⟩, ⟨16, 8, .ro⟩, ⟨24, 8, .ro⟩, ⟨56, 8, .ro⟩]
  | .GLB_STEPPING => [⟨0, 8, .ro⟩, ⟨16, 16, .ro⟩, ⟨32, 32, .ro⟩]
  | .GLB_STATE => [⟨0, 4, .ro⟩, ⟨4, 1, .ro⟩, ⟨5, 1, .ro⟩]
  | .GLB_BOOT => [⟨0, 1, .ro⟩, ⟨1, 1, .w1s⟩, ⟨2, 1, .w1c⟩, ⟨3, 2, .rw⟩, ⟨32, 32, .ro⟩]
  | .MER_NOW => [⟨0, 56, .ro⟩]
  | .MER_CTRL => [⟨0, 1, .rwl⟩, ⟨1, 1, .wo⟩, ⟨8, 6, .rwl⟩, ⟨16, 4, .rw⟩]
  | .MER_SLOT_CFG => [⟨0, 8, .ro⟩, ⟨8, 12, .ro⟩, ⟨32, 16, .rw⟩]
  | .MER_SYNC_STATUS => [⟨0, 2, .ro⟩, ⟨2, 1, .ro⟩, ⟨3, 1, .w1c⟩, ⟨8, 6, .ro⟩, ⟨16, 5, .ro⟩, ⟨32, 16, .ro⟩, ⟨48, 16, .ro⟩]
  | .MER_PHASE => [⟨0, 2, .ro⟩, ⟨2, 1, .ro⟩, ⟨3, 3, .ro⟩, ⟨6, 1, .ro⟩, ⟨7, 1, .ro⟩, ⟨8, 1, .ro⟩, ⟨32, 32, .ro⟩]
  | .MER_PHASE_NEXT => [⟨0, 2, .rw⟩]
  | .MER_SWAP_AT => [⟨0, 56, .rw⟩]
  | .MER_SWAP_STATUS => [⟨0, 1, .ro⟩, ⟨1, 1, .ro⟩, ⟨8, 8, .ro⟩, ⟨16, 8, .ro⟩, ⟨32, 32, .ro⟩]
  | .FLT_FIRST => [⟨0, 10, .ro⟩, ⟨10, 2, .ro⟩, ⟨12, 2, .ro⟩, ⟨14, 1, .ro⟩, ⟨15, 1, .ro⟩, ⟨16, 9, .ro⟩, ⟨25, 1, .ro⟩, ⟨32, 32, .ro⟩]
  | .FLT_FIRST_TIME => [⟨0, 56, .ro⟩]
  | .FLT_NEXT => [⟨0, 10, .ro⟩, ⟨10, 2, .ro⟩, ⟨12, 2, .ro⟩, ⟨14, 1, .ro⟩, ⟨15, 1, .ro⟩, ⟨16, 9, .ro⟩, ⟨25, 1, .ro⟩, ⟨32, 32, .ro⟩]
  | .FLT_STATUS => [⟨0, 1, .ro⟩, ⟨1, 2, .ro⟩, ⟨3, 1, .ro⟩, ⟨4, 1, .ro⟩, ⟨5, 1, .ro⟩, ⟨6, 1, .ro⟩, ⟨7, 1, .ro⟩, ⟨16, 11, .ro⟩, ⟨32, 11, .ro⟩, ⟨48, 16, .ro⟩]
  | .FLT_CLEAR => [⟨0, 10, .wo⟩, ⟨16, 1, .wo⟩, ⟨17, 1, .wo⟩, ⟨18, 1, .wo⟩, ⟨19, 1, .wo⟩]
  | .FLT_PIN_EN => [⟨0, 4, .rw⟩]
  | .FLT_RING_BASE => [⟨0, 32, .ro⟩, ⟨32, 16, .ro⟩, ⟨48, 8, .ro⟩]
  | .FLT_RING_HEAD => [⟨0, 9, .ro⟩]
  | .FLT_RING_TAIL => [⟨0, 9, .rw⟩]
  | .FLT_DROPPED => [⟨0, 32, .ro⟩, ⟨32, 10, .ro⟩]
  | .FLT_NEXT_TIME => [⟨0, 56, .ro⟩]
  | .FLT_FW_REPORT => [⟨0, 6, .wo⟩, ⟨32, 32, .wo⟩]
  | .FLT_CTRL => [⟨0, 2, .rw⟩, ⟨8, 1, .wo⟩]
  | .FLT_CHK_COUNT => [⟨0, 16, .ro⟩, ⟨16, 16, .ro⟩, ⟨32, 16, .ro⟩, ⟨48, 1, .wo⟩]
  | .FLT_FORCE_ARG => [⟨0, 6, .rw⟩, ⟨6, 1, .rw⟩, ⟨8, 6, .rw⟩, ⟨14, 1, .rw⟩, ⟨16, 6, .rw⟩, ⟨22, 1, .rw⟩, ⟨24, 4, .rw⟩, ⟨28, 1, .rw⟩]
  | .FLT_FORCE => [⟨0, 64, .wo⟩]
  | .FLT_ACTION => [⟨0, 2, .rw⟩, ⟨2, 1, .rw⟩, ⟨3, 1, .rw⟩, ⟨4, 6, .rw⟩, ⟨12, 4, .rw⟩, ⟨16, 1, .ro⟩, ⟨17, 1, .rw⟩]
  | .FLT_SRC => [⟨0, 1, .w1c⟩, ⟨1, 1, .ro⟩, ⟨16, 16, .ro⟩, ⟨32, 32, .ro⟩]
  | .FLT_RING => []
  | .TWN_STATUS => [⟨0, 3, .ro⟩, ⟨3, 1, .ro⟩, ⟨4, 2, .ro⟩, ⟨8, 4, .ro⟩, ⟨16, 12, .ro⟩, ⟨28, 1, .ro⟩]
  | .TWN_CTRL => [⟨0, 6, .rwl⟩, ⟨8, 6, .rwl⟩, ⟨16, 1, .rwl⟩, ⟨17, 1, .wo⟩, ⟨24, 8, .rwl⟩, ⟨32, 16, .rw⟩]
  | .TWN_CMP_ERR => [⟨0, 15, .ro⟩, ⟨16, 3, .ro⟩, ⟨19, 1, .ro⟩, ⟨20, 6, .ro⟩, ⟨32, 20, .ro⟩, ⟨63, 1, .w1c⟩]
  | .TWN_SILVER => [⟨0, 16, .rw⟩, ⟨16, 1, .ro⟩, ⟨17, 1, .ro⟩, ⟨32, 16, .ro⟩, ⟨48, 16, .ro⟩]
  | .TWN_COUNT => [⟨0, 16, .ro⟩, ⟨16, 16, .ro⟩, ⟨32, 16, .ro⟩, ⟨48, 16, .ro⟩]
  | .TWN_MODE => [⟨0, 1, .rwl⟩, ⟨1, 1, .rwl⟩, ⟨2, 1, .ro⟩, ⟨3, 1, .wo⟩]
  | .TWN_SLICE => [⟨0, 3, .ro⟩, ⟨16, 16, .ro⟩]
  | .CIR_STATUS => [⟨0, 1, .ro⟩, ⟨1, 1, .ro⟩, ⟨2, 1, .ro⟩, ⟨3, 1, .ro⟩, ⟨4, 3, .ro⟩, ⟨8, 5, .ro⟩, ⟨16, 1, .w1c⟩, ⟨32, 16, .ro⟩]
  | .CIR_FSTOP_CFG => [⟨0, 7, .rw⟩]
  | .CIR_FSTOP_STATUS => [⟨0, 1, .ro⟩, ⟨1, 1, .ro⟩, ⟨2, 1, .ro⟩, ⟨3, 1, .ro⟩, ⟨4, 1, .ro⟩, ⟨8, 17, .ro⟩, ⟨32, 17, .ro⟩]
  | .CIR_CTRL => [⟨0, 1, .wo⟩]
  | .CIR_SENSOR => [⟨0, 16, .ro⟩, ⟨16, 16, .ro⟩, ⟨32, 3, .rw⟩, ⟨35, 1, .ro⟩, ⟨36, 1, .ro⟩, ⟨37, 1, .ro⟩, ⟨48, 16, .ro⟩]
  | .CIR_THRESH => [⟨0, 8, .rw⟩, ⟨8, 1, .rw⟩, ⟨9, 1, .rw⟩, ⟨10, 3, .rw⟩, ⟨13, 3, .rw⟩, ⟨16, 8, .rw⟩, ⟨24, 1, .ro⟩, ⟨32, 16, .rw⟩, ⟨48, 16, .rw⟩]
  | .PWR_STATE => [⟨0, 3, .ro⟩, ⟨4, 2, .ro⟩, ⟨8, 3, .ro⟩, ⟨11, 3, .ro⟩, ⟨32, 16, .ro⟩]
  | .PWR_WAKE_REASON => [⟨0, 1, .w1c⟩, ⟨1, 1, .w1c⟩, ⟨2, 1, .w1c⟩, ⟨8, 1, .w1c⟩, ⟨9, 1, .ro⟩, ⟨32, 32, .ro⟩]
  | .PWR_LIMITS => [⟨0, 16, .ro⟩, ⟨16, 16, .ro⟩, ⟨32, 12, .ro⟩, ⟨44, 8, .ro⟩, ⟨52, 8, .ro⟩]
  | .PWR_THROTTLE => [⟨0, 3, .rw⟩]
  | .PWR_VSET => [⟨0, 10, .rw⟩]
  | .MBX_DOORBELL => [⟨0, 14, .rw⟩, ⟨16, 1, .wo⟩, ⟨17, 1, .ro⟩, ⟨18, 1, .ro⟩, ⟨19, 1, .rw⟩, ⟨20, 6, .rw⟩, ⟨32, 8, .ro⟩]
  | .MBX_VERSION => [⟨0, 8, .ro⟩, ⟨8, 8, .ro⟩, ⟨32, 32, .ro⟩]
  | .MBX_PERM => [⟨0, 8, .rw⟩, ⟨8, 8, .rw⟩, ⟨16, 8, .rw⟩]
  | .MBX_FABRIC => [⟨0, 7, .ro⟩, ⟨16, 16, .ro⟩]
  | .LNK_STATUS => [⟨0, 2, .ro⟩, ⟨2, 1, .ro⟩, ⟨3, 1, .ro⟩, ⟨4, 1, .w1c⟩, ⟨5, 3, .ro⟩, ⟨8, 3, .ro⟩, ⟨11, 1, .ro⟩, ⟨16, 16, .ro⟩]
  | .LNK_CTRL => [⟨0, 1, .rw⟩, ⟨1, 1, .rwl⟩, ⟨2, 3, .rwl⟩]
  | .LNK_TRAIN => [⟨0, 4, .ro⟩, ⟨4, 1, .ro⟩, ⟨8, 8, .ro⟩, ⟨16, 4, .ro⟩, ⟨32, 16, .ro⟩, ⟨48, 8, .ro⟩, ⟨56, 8, .ro⟩]
  | .LNK_RATE => [⟨0, 3, .rwl⟩, ⟨3, 1, .rwl⟩, ⟨8, 3, .ro⟩, ⟨16, 3, .ro⟩, ⟨32, 3, .rwl⟩]
  | .LNK_PARTNER => [⟨0, 16, .ro⟩, ⟨16, 12, .ro⟩, ⟨28, 8, .ro⟩, ⟨36, 4, .ro⟩, ⟨40, 8, .ro⟩]
  | .LNK_PARTNER_SIG => [⟨0, 64, .ro⟩]
  | .LNK_LIFE => [⟨0, 1, .wo⟩, ⟨1, 1, .wo⟩, ⟨2, 1, .wo⟩, ⟨3, 1, .ro⟩, ⟨4, 1, .ro⟩, ⟨8, 8, .ro⟩]
  | .LNK_REPLAY_CFG => [⟨0, 4, .rwl⟩, ⟨32, 13, .rw⟩]
  | .LNK_REPLAY_STAT => [⟨0, 16, .ro⟩, ⟨16, 16, .ro⟩, ⟨32, 16, .ro⟩, ⟨48, 8, .ro⟩]
  | .LNK_SCREEN => [⟨0, 16, .ro⟩, ⟨16, 16, .ro⟩, ⟨32, 16, .ro⟩, ⟨48, 16, .ro⟩]
  | .LANE_STATUS => [⟨0, 4, .ro⟩, ⟨4, 1, .ro⟩, ⟨5, 1, .ro⟩, ⟨6, 1, .ro⟩, ⟨16, 8, .ro⟩, ⟨32, 8, .ro⟩, ⟨40, 6, .ro⟩, ⟨48, 16, .ro⟩]
  | .LANE_PRBS_CFG => [⟨0, 3, .rw⟩, ⟨4, 3, .rw⟩, ⟨7, 1, .rw⟩, ⟨8, 1, .wo⟩]
  | .LANE_PRBS_ERR => [⟨0, 32, .ro⟩, ⟨32, 31, .ro⟩, ⟨63, 1, .ro⟩]
  | .LANE_INJECT => [⟨0, 2, .rw⟩, ⟨2, 1, .wo⟩, ⟨8, 8, .rw⟩, ⟨16, 16, .rw⟩, ⟨32, 32, .ro⟩]
  | .LANE_MARGIN => [⟨0, 6, .rw⟩, ⟨6, 2, .rw⟩, ⟨8, 6, .rw⟩, ⟨16, 3, .rw⟩, ⟨24, 1, .wo⟩, ⟨25, 1, .ro⟩, ⟨26, 1, .ro⟩, ⟨27, 1, .ro⟩, ⟨32, 32, .ro⟩]
  | .LANE_PRBS_USER => [⟨0, 32, .rw⟩, ⟨32, 32, .rw⟩]
  | .SWX_CTRL => [⟨0, 12, .rwl⟩, ⟨12, 1, .ro⟩, ⟨16, 1, .wo⟩, ⟨17, 1, .rwl⟩, ⟨24, 8, .rwl⟩, ⟨32, 16, .rwl⟩]
  | .SWX_DISCARD => [⟨0, 16, .ro⟩, ⟨16, 16, .ro⟩, ⟨32, 16, .ro⟩, ⟨48, 16, .ro⟩]
  | .SWX_ZENITH => [⟨0, 16, .ro⟩, ⟨32, 16, .ro⟩, ⟨48, 1, .wo⟩]
  | .SWX_VC_WEIGHT => [⟨0, 9, .rwl⟩]
  | .SWX_EPOCH => [⟨0, 3, .ro⟩, ⟨3, 1, .ro⟩, ⟨4, 1, .ro⟩, ⟨16, 16, .ro⟩, ⟨32, 16, .ro⟩, ⟨48, 16, .ro⟩]
  | .SWX_FLUSH => [⟨0, 32, .ro⟩, ⟨32, 32, .ro⟩]
  | .COL_STAT => [⟨0, 16, .ro⟩, ⟨16, 16, .ro⟩, ⟨32, 16, .ro⟩, ⟨48, 16, .ro⟩]
  | .COL_TICKET => [⟨0, 25, .ro⟩, ⟨25, 1, .ro⟩, ⟨32, 12, .rwl⟩, ⟨44, 1, .rwl⟩, ⟨48, 6, .rwl⟩]
  | .COL_SLICE => [⟨0, 10, .rwl⟩, ⟨16, 10, .ro⟩, ⟨26, 6, .rwl⟩, ⟨32, 25, .ro⟩, ⟨57, 1, .ro⟩]
  | .COL_LATE_HIST => [⟨0, 32, .ro⟩, ⟨32, 32, .ro⟩]
  | .COL_DESC_STATUS => [⟨0, 3, .ro⟩, ⟨3, 1, .ro⟩, ⟨4, 1, .ro⟩, ⟨5, 3, .ro⟩, ⟨8, 8, .ro⟩, ⟨16, 20, .ro⟩, ⟨48, 16, .ro⟩]
  | .SLC_STATE => [⟨0, 2, .ro⟩, ⟨2, 1, .ro⟩, ⟨3, 1, .ro⟩, ⟨4, 1, .ro⟩, ⟨8, 8, .ro⟩, ⟨16, 5, .ro⟩, ⟨21, 2, .ro⟩, ⟨32, 32, .ro⟩]
  | .SLC_CTRL => [⟨0, 1, .wo⟩, ⟨1, 1, .wo⟩]
  | .SLC_DOMAIN => [⟨0, 6, .rwl⟩, ⟨6, 1, .rwl⟩]
  | .SLC_QUOTA => [⟨0, 11, .rwl⟩, ⟨16, 9, .rwl⟩]
  | .SLC_SEQ_STATUS => [⟨0, 2, .ro⟩, ⟨2, 1, .ro⟩, ⟨8, 14, .ro⟩, ⟨32, 32, .ro⟩]
  | .SLC_STOP_AT => [⟨0, 32, .rw⟩, ⟨32, 2, .rw⟩, ⟨34, 1, .rw⟩, ⟨35, 1, .ro⟩, ⟨36, 1, .ro⟩, ⟨37, 1, .wo⟩, ⟨40, 8, .rw⟩]
  | .SLC_DBG_PAGE => [⟨0, 3, .rw⟩]
  | .SLC_ENG_PC => [⟨0, 13, .ro⟩, ⟨13, 1, .ro⟩, ⟨16, 3, .ro⟩, ⟨19, 5, .ro⟩, ⟨32, 32, .ro⟩]
  | .SLC_NONFINITE => [⟨0, 32, .ro⟩, ⟨32, 16, .ro⟩, ⟨48, 8, .ro⟩, ⟨56, 1, .ro⟩, ⟨57, 1, .ro⟩, ⟨63, 1, .wo⟩]
  | .MEM_STATUS => [⟨0, 32, .ro⟩, ⟨32, 1, .ro⟩, ⟨33, 1, .ro⟩]
  | .MEM_ECC => [⟨0, 24, .ro⟩, ⟨24, 8, .ro⟩, ⟨32, 16, .ro⟩, ⟨48, 16, .ro⟩]
  | .MEM_SCRUB => [⟨0, 8, .rw⟩, ⟨8, 4, .rw⟩, ⟨32, 32, .ro⟩]
  | .MEM_SPARES => [⟨0, 16, .ro⟩, ⟨32, 32, .ro⟩]
  | .MEM_RETIRE => [⟨0, 25, .wo⟩]
  | .MEM_DOM_SHARD => [⟨0, 11, .rwl⟩, ⟨32, 11, .rwl⟩]
  | .MEM_DOM_PROG => [⟨0, 18, .rwl⟩, ⟨18, 14, .rwl⟩, ⟨32, 18, .rwl⟩]
  | .MEM_STAGE => [⟨0, 6, .rwl⟩]
  | .MEM_APER_DOM => [⟨0, 6, .rw⟩, ⟨6, 1, .rw⟩, ⟨22, 10, .rw⟩, ⟨32, 25, .rw⟩]
  | .MEM_APER_STAGE => [⟨0, 6, .rw⟩, ⟨6, 1, .rw⟩, ⟨22, 4, .rw⟩]
  | .POOL_CFG => [⟨0, 32, .rw⟩, ⟨32, 32, .rw⟩]
  | .POOL_MGMT => [⟨0, 16, .ro⟩, ⟨16, 16, .ro⟩]
  | .POOL_FREE => [⟨0, 16, .ro⟩, ⟨16, 16, .ro⟩, ⟨32, 16, .ro⟩, ⟨48, 16, .ro⟩]
  | .POOL_STAT => [⟨0, 16, .ro⟩, ⟨16, 16, .ro⟩, ⟨32, 16, .ro⟩, ⟨48, 16, .ro⟩]
  | .POOL_AUDIT => [⟨0, 16, .ro⟩, ⟨16, 1, .ro⟩, ⟨32, 32, .ro⟩]
  | .PST_CTRL => [⟨0, 1, .wo⟩, ⟨1, 1, .wo⟩, ⟨2, 1, .wo⟩, ⟨3, 1, .rw⟩, ⟨4, 1, .wo⟩]
  | .PST_LAYOUT => [⟨0, 17, .rwl⟩, ⟨17, 3, .rwl⟩, ⟨20, 1, .rwl⟩, ⟨21, 2, .rwl⟩, ⟨23, 2, .rwl⟩, ⟨32, 12, .rwl⟩, ⟨44, 12, .rwl⟩]
  | .PST_SHARD => [⟨0, 32, .rwl⟩, ⟨32, 32, .rwl⟩]
  | .PST_SEED => [⟨0, 32, .rwl⟩, ⟨32, 32, .rwl⟩]
  | .PST_STEP => [⟨0, 32, .ro⟩, ⟨32, 1, .ro⟩]
  | .PST_STATUS => [⟨0, 3, .ro⟩, ⟨8, 8, .ro⟩, ⟨16, 4, .ro⟩, ⟨32, 16, .ro⟩, ⟨48, 16, .ro⟩]
  | .DOM_ARITH => [⟨0, 1, .rwl⟩]
  | .DOM_LINKS => [⟨0, 48, .rwl⟩]
  | .DOM_STATE => [⟨0, 2, .ro⟩, ⟨8, 8, .ro⟩, ⟨16, 7, .ro⟩, ⟨32, 32, .ro⟩]
  | .DOM_DET_SIG => [⟨0, 56, .ro⟩, ⟨56, 8, .ro⟩]
  | .DOM_STEP_FP => [⟨0, 64, .ro⟩]
  | .DOM_STEP_FP_INFO => [⟨0, 32, .ro⟩, ⟨32, 1, .ro⟩]
  | .PST_TAG => [⟨0, 32, .ro⟩, ⟨32, 32, .ro⟩]
  | .DOM_RESV => [⟨0, 9, .rwl⟩, ⟨16, 9, .rwl⟩]

def placesGlb : List RegPlace := [
  ⟨.GLB_ID, 0x0, 1, 0x8, 1, 0x8⟩,
  ⟨.GLB_FEATURES0, 0x8, 1, 0x8, 1, 0x8⟩,
  ⟨.GLB_FEATURES1, 0x10, 1, 0x8, 1, 0x8⟩,
  ⟨.GLB_FEATURES2, 0x18, 1, 0x8, 1, 0x8⟩,
  ⟨.GLB_FEATURES3, 0x20, 1, 0x8, 1, 0x8⟩,
  ⟨.GLB_DET_SIG, 0x40, 1, 0x8, 1, 0x8⟩,
  ⟨.GLB_STEPPING, 0x48, 1, 0x8, 1, 0x8⟩,
  ⟨.GLB_STATE, 0x50, 1, 0x8, 1, 0x8⟩,
  ⟨.GLB_BOOT, 0x58, 1, 0x8, 1, 0x8⟩]

def placesMer : List RegPlace := [
  ⟨.MER_NOW, 0x10000, 1, 0x8, 1, 0x8⟩,
  ⟨.MER_CTRL, 0x10008, 1, 0x8, 1, 0x8⟩,
  ⟨.MER_SLOT_CFG, 0x10010, 1, 0x8, 1, 0x8⟩,
  ⟨.MER_SYNC_STATUS, 0x10018, 1, 0x8, 1, 0x8⟩,
  ⟨.MER_PHASE, 0x10020, 64, 0x20, 1, 0x8⟩,
  ⟨.MER_PHASE_NEXT, 0x10028, 64, 0x20, 1, 0x8⟩,
  ⟨.MER_SWAP_AT, 0x10030, 64, 0x20, 1, 0x8⟩,
  ⟨.MER_SWAP_STATUS, 0x10038, 64, 0x20, 1, 0x8⟩]

def placesFlt : List RegPlace := [
  ⟨.FLT_FIRST, 0x20000, 1, 0x8, 1, 0x8⟩,
  ⟨.FLT_FIRST_TIME, 0x20008, 1, 0x8, 1, 0x8⟩,
  ⟨.FLT_NEXT, 0x20010, 1, 0x8, 1, 0x8⟩,
  ⟨.FLT_STATUS, 0x20018, 1, 0x8, 1, 0x8⟩,
  ⟨.FLT_CLEAR, 0x20020, 1, 0x8, 1, 0x8⟩,
  ⟨.FLT_PIN_EN, 0x20028, 1, 0x8, 1, 0x8⟩,
  ⟨.FLT_RING_BASE, 0x20030, 1, 0x8, 1, 0x8⟩,
  ⟨.FLT_RING_HEAD, 0x20038, 1, 0x8, 1, 0x8⟩,
  ⟨.FLT_RING_TAIL, 0x20040, 1, 0x8, 1, 0x8⟩,
  ⟨.FLT_DROPPED, 0x20048, 1, 0x8, 1, 0x8⟩,
  ⟨.FLT_NEXT_TIME, 0x20050, 1, 0x8, 1, 0x8⟩,
  ⟨.FLT_FW_REPORT, 0x20058, 1, 0x8, 1, 0x8⟩,
  ⟨.FLT_CTRL, 0x20060, 1, 0x8, 1, 0x8⟩,
  ⟨.FLT_CHK_COUNT, 0x20068, 1, 0x8, 1, 0x8⟩,
  ⟨.FLT_FORCE_ARG, 0x200F8, 1, 0x8, 1, 0x8⟩,
  ⟨.FLT_FORCE, 0x20100, 16, 0x8, 1, 0x8⟩,
  ⟨.FLT_ACTION, 0x21000, 1024, 0x8, 1, 0x8⟩,
  ⟨.FLT_SRC, 0x24000, 1024, 0x8, 1, 0x8⟩,
  ⟨.FLT_RING, 0x28000, 256, 0x40, 8, 0x8⟩]

def placesTwn : List RegPlace := [
  ⟨.TWN_STATUS, 0x30000, 1, 0x8, 1, 0x8⟩,
  ⟨.TWN_CTRL, 0x30008, 1, 0x8, 1, 0x8⟩,
  ⟨.TWN_CMP_ERR, 0x30010, 1, 0x8, 1, 0x8⟩,
  ⟨.TWN_SILVER, 0x30018, 1, 0x8, 1, 0x8⟩,
  ⟨.TWN_COUNT, 0x30020, 1, 0x8, 1, 0x8⟩,
  ⟨.TWN_MODE, 0x30100, 64, 0x8, 1, 0x8⟩,
  ⟨.TWN_SLICE, 0x30400, 64, 0x8, 1, 0x8⟩]

def placesCir : List RegPlace := [
  ⟨.CIR_STATUS, 0x40000, 1, 0x8, 1, 0x8⟩,
  ⟨.CIR_FSTOP_CFG, 0x40008, 1, 0x8, 1, 0x8⟩,
  ⟨.CIR_FSTOP_STATUS, 0x40010, 1, 0x8, 1, 0x8⟩,
  ⟨.CIR_CTRL, 0x40018, 1, 0x8, 1, 0x8⟩,
  ⟨.CIR_SENSOR, 0x41000, 256, 0x8, 1, 0x8⟩,
  ⟨.CIR_THRESH, 0x42000, 48, 0x8, 1, 0x8⟩]

def placesPwr : List RegPlace := [
  ⟨.PWR_STATE, 0x50000, 1, 0x8, 1, 0x8⟩,
  ⟨.PWR_WAKE_REASON, 0x50008, 1, 0x8, 1, 0x8⟩,
  ⟨.PWR_LIMITS, 0x50010, 1, 0x8, 1, 0x8⟩,
  ⟨.PWR_THROTTLE, 0x50018, 1, 0x8, 1, 0x8⟩,
  ⟨.PWR_VSET, 0x50020, 8, 0x8, 1, 0x8⟩]

def placesMbx : List RegPlace := [
  ⟨.MBX_DOORBELL, 0x60000, 16, 0x8, 1, 0x8⟩,
  ⟨.MBX_VERSION, 0x60100, 1, 0x8, 1, 0x8⟩,
  ⟨.MBX_PERM, 0x60108, 1, 0x8, 1, 0x8⟩,
  ⟨.MBX_FABRIC, 0x60110, 1, 0x8, 1, 0x8⟩]

def placesLnk : List RegPlace := [
  ⟨.LNK_STATUS, 0x100000, 48, 0x4000, 1, 0x8⟩,
  ⟨.LNK_CTRL, 0x100008, 48, 0x4000, 1, 0x8⟩,
  ⟨.LNK_TRAIN, 0x100010, 48, 0x4000, 1, 0x8⟩,
  ⟨.LNK_RATE, 0x100018, 48, 0x4000, 1, 0x8⟩,
  ⟨.LNK_PARTNER, 0x100020, 48, 0x4000, 1, 0x8⟩,
  ⟨.LNK_PARTNER_SIG, 0x100028, 48, 0x4000, 1, 0x8⟩,
  ⟨.LNK_LIFE, 0x100030, 48, 0x4000, 1, 0x8⟩,
  ⟨.LNK_REPLAY_CFG, 0x100040, 48, 0x4000, 1, 0x8⟩,
  ⟨.LNK_REPLAY_STAT, 0x100048, 48, 0x4000, 1, 0x8⟩,
  ⟨.LNK_SCREEN, 0x100050, 48, 0x4000, 1, 0x8⟩,
  ⟨.LANE_STATUS, 0x101000, 48, 0x4000, 8, 0x200⟩,
  ⟨.LANE_PRBS_CFG, 0x101008, 48, 0x4000, 8, 0x200⟩,
  ⟨.LANE_PRBS_ERR, 0x101010, 48, 0x4000, 8, 0x200⟩,
  ⟨.LANE_INJECT, 0x101018, 48, 0x4000, 8, 0x200⟩,
  ⟨.LANE_MARGIN, 0x101020, 48, 0x4000, 8, 0x200⟩,
  ⟨.LANE_PRBS_USER, 0x101028, 48, 0x4000, 8, 0x200⟩]

def placesSwx : List RegPlace := [
  ⟨.SWX_CTRL, 0x200000, 1, 0x8, 1, 0x8⟩,
  ⟨.SWX_DISCARD, 0x200008, 1, 0x8, 1, 0x8⟩,
  ⟨.SWX_ZENITH, 0x200010, 1, 0x8, 1, 0x8⟩,
  ⟨.SWX_VC_WEIGHT, 0x200040, 8, 0x8, 1, 0x8⟩,
  ⟨.SWX_EPOCH, 0x200100, 64, 0x8, 1, 0x8⟩,
  ⟨.SWX_FLUSH, 0x200400, 113, 0x8, 1, 0x8⟩]

def placesCol : List RegPlace := [
  ⟨.COL_STAT, 0x300000, 1, 0x8, 1, 0x8⟩,
  ⟨.COL_TICKET, 0x300100, 64, 0x8, 1, 0x8⟩,
  ⟨.COL_SLICE, 0x300400, 64, 0x8, 1, 0x8⟩,
  ⟨.COL_LATE_HIST, 0x301000, 48, 0x20, 4, 0x8⟩,
  ⟨.COL_DESC_STATUS, 0x380000, 64, 0x1000, 512, 0x8⟩]

def placesSlc : List RegPlace := [
  ⟨.SLC_STATE, 0x400000, 64, 0x10000, 1, 0x8⟩,
  ⟨.SLC_CTRL, 0x400008, 64, 0x10000, 1, 0x8⟩,
  ⟨.SLC_DOMAIN, 0x400010, 64, 0x10000, 1, 0x8⟩,
  ⟨.SLC_QUOTA, 0x400018, 64, 0x10000, 1, 0x8⟩,
  ⟨.SLC_SEQ_STATUS, 0x400020, 64, 0x10000, 1, 0x8⟩,
  ⟨.SLC_STOP_AT, 0x400060, 64, 0x10000, 1, 0x8⟩,
  ⟨.SLC_DBG_PAGE, 0x400078, 64, 0x10000, 1, 0x8⟩,
  ⟨.SLC_ENG_PC, 0x400040, 64, 0x10000, 4, 0x8⟩,
  ⟨.SLC_NONFINITE, 0x400068, 64, 0x10000, 2, 0x8⟩]

def placesMem : List RegPlace := [
  ⟨.MEM_STATUS, 0x800000, 1, 0x8, 1, 0x8⟩,
  ⟨.MEM_ECC, 0x800008, 1, 0x8, 1, 0x8⟩,
  ⟨.MEM_SCRUB, 0x800010, 1, 0x8, 1, 0x8⟩,
  ⟨.MEM_SPARES, 0x800018, 1, 0x8, 1, 0x8⟩,
  ⟨.MEM_RETIRE, 0x800020, 1, 0x8, 1, 0x8⟩,
  ⟨.MEM_DOM_SHARD, 0x800100, 64, 0x8, 1, 0x8⟩,
  ⟨.MEM_DOM_PROG, 0x800300, 64, 0x8, 1, 0x8⟩,
  ⟨.MEM_STAGE, 0x800500, 64, 0x8, 1, 0x8⟩,
  ⟨.MEM_APER_DOM, 0x800800, 3, 0x10, 1, 0x8⟩,
  ⟨.MEM_APER_STAGE, 0x800808, 3, 0x10, 1, 0x8⟩]

def placesPool : List RegPlace := [
  ⟨.POOL_CFG, 0x900000, 1, 0x8, 1, 0x8⟩,
  ⟨.POOL_MGMT, 0x900020, 1, 0x8, 1, 0x8⟩,
  ⟨.POOL_FREE, 0x900100, 64, 0x8, 1, 0x8⟩,
  ⟨.POOL_STAT, 0x900300, 64, 0x8, 1, 0x8⟩,
  ⟨.POOL_AUDIT, 0x901000, 259, 0x8, 1, 0x8⟩]

def placesDom : List RegPlace := [
  ⟨.PST_CTRL, 0x7000000, 64, 0x40000, 1, 0x8⟩,
  ⟨.PST_LAYOUT, 0x7000008, 64, 0x40000, 1, 0x8⟩,
  ⟨.PST_SHARD, 0x7000010, 64, 0x40000, 1, 0x8⟩,
  ⟨.PST_SEED, 0x7000018, 64, 0x40000, 1, 0x8⟩,
  ⟨.PST_STEP, 0x7000020, 64, 0x40000, 1, 0x8⟩,
  ⟨.PST_STATUS, 0x7000028, 64, 0x40000, 1, 0x8⟩,
  ⟨.DOM_ARITH, 0x7000030, 64, 0x40000, 1, 0x8⟩,
  ⟨.DOM_LINKS, 0x7000038, 64, 0x40000, 1, 0x8⟩,
  ⟨.DOM_STATE, 0x7000040, 64, 0x40000, 1, 0x8⟩,
  ⟨.DOM_DET_SIG, 0x7000048, 64, 0x40000, 1, 0x8⟩,
  ⟨.DOM_STEP_FP, 0x7000050, 64, 0x40000, 1, 0x8⟩,
  ⟨.DOM_STEP_FP_INFO, 0x7000058, 64, 0x40000, 1, 0x8⟩,
  ⟨.PST_TAG, 0x7000060, 64, 0x40000, 1, 0x8⟩,
  ⟨.DOM_RESV, 0x7000200, 64, 0x40000, 48, 0x8⟩]

/-- The register of one place at an address, with its indices. -/
def placeHit (p : RegPlace) (a : Nat) : Option (RegId × Nat × Nat) :=
  if a < p.base then none else
    let o := a - p.base
    let i := if p.n1 = 1 then 0 else o / p.s1
    let r := if p.n1 = 1 then o else o % p.s1
    let j := if p.n2 = 1 then 0 else r / p.s2
    let q := if p.n2 = 1 then r else r % p.s2
    if i < p.n1 ∧ j < p.n2 ∧ q = 0 then some (p.id, i, j) else none

/-- The first place of a list that holds an address. -/
def findPlace : List RegPlace → Nat → Option (RegId × Nat × Nat)
  | [], _ => none
  | p :: t, a =>
    match placeHit p a with
    | some h => some h
    | none => findPlace t a

/-- The places of the block in which an address lies (Table MAP-1, Table MAP-20). -/
def blockOf (a : Nat) : List RegPlace :=
  if 0x0 ≤ a ∧ a < 0x10000 then placesGlb
  else if 0x10000 ≤ a ∧ a < 0x20000 then placesMer
  else if 0x20000 ≤ a ∧ a < 0x30000 then placesFlt
  else if 0x30000 ≤ a ∧ a < 0x40000 then placesTwn
  else if 0x40000 ≤ a ∧ a < 0x50000 then placesCir
  else if 0x50000 ≤ a ∧ a < 0x60000 then placesPwr
  else if 0x60000 ≤ a ∧ a < 0x70000 then placesMbx
  else if 0x100000 ≤ a ∧ a < 0x1C0000 then placesLnk
  else if 0x200000 ≤ a ∧ a < 0x300000 then placesSwx
  else if 0x300000 ≤ a ∧ a < 0x400000 then placesCol
  else if 0x400000 ≤ a ∧ a < 0x800000 then placesSlc
  else if 0x800000 ≤ a ∧ a < 0x900000 then placesMem
  else if 0x900000 ≤ a ∧ a < 0xA00000 then placesPool
  else if 0x7000000 ≤ a ∧ a < 0x8000000 then placesDom
  else []

/-- The register at a 64-bit aligned BAR0 byte address. -/
def regAt (a : Nat) : Option (RegId × Nat × Nat) := findPlace (blockOf a) a

/-- The fault sources by name (Tables FLT-7, MER-7, LAN-8, LNK-11, SWX-8, COL-6, PST-10, SLC-13, MEM-6, PRT-6, TWN-6, DET, MGT-12). -/
def Src.COLLECTOR_PARITY : Nat := 0
def Src.CTRL_MISMATCH : Nat := 1
def Src.DIE_HEARTBEAT : Nat := 2
def Src.BRIDGE_RETRY : Nat := 3
def Src.BRIDGE_FAIL : Nat := 4
def Src.DIE_FENCED : Nat := 5
def Src.DIE_FENCE_FAIL : Nat := 6
def Src.REG_NARROW : Nat := 7
def Src.REG_UNALIGNED : Nat := 8
def Src.REG_REFUSED : Nat := 9
def Src.CHK_INGRESS : Nat := 10
def Src.CHK_INTERNAL : Nat := 11
def Src.SAFE_ENTERED : Nat := 12
def Src.MER_SLEW : Nat := 16
def Src.MER_LOST : Nat := 17
def Src.MER_ROOT_CONFLICT : Nat := 18
def Src.MER_DEPTH : Nat := 19
def Src.SWAP_ABANDON : Nat := 20
def Src.SWAP_INVALID : Nat := 21
def Src.SEQ_LATE : Nat := 22
def Src.MER_TABLE_END : Nat := 23
def Src.COL_UNKNOWN_TAG : Nat := 24
def Src.COL_LATE : Nat := 25
def Src.COL_DUP : Nat := 26
def Src.COL_REFORM : Nat := 27
def Src.COL_ABANDON : Nat := 28
def Src.COL_NO_SLOT : Nat := 29
def Src.STEP_FAIL : Nat := 32
def Src.NONFINITE_GRAD : Nat := 33
def Src.GRAD_OVERRUN : Nat := 34
def Src.UPDATE_FAULT : Nat := 35
def Src.STEP_PENDING : Nat := 36
def Src.STEP_ROLLBACK : Nat := 37
def Src.MEM_BOUND : Nat := 40
def Src.POOL_OWNER : Nat := 41
def Src.POOL_STARVED : Nat := 42
def Src.POOL_LEAK : Nat := 43
def Src.DRAIN_TIMEOUT : Nat := 48
def Src.RESV_OVER : Nat := 49
def Src.LIFE_REFUSED : Nat := 50
def Src.DET_SIG_DIFF : Nat := 52
def Src.LINK_REPLAY : Nat := 448
def Src.LINK_DOWN : Nat := 449
def Src.CAPS_MISMATCH : Nat := 450
def Src.HDR_BAD : Nat := 451
def Src.ALIVE_STALE : Nat := 452
def Src.ALIVE_LOST : Nat := 453
def Src.E2E_TIMEOUT : Nat := 454
def Src.REISSUE_FAIL : Nat := 455
def Src.EPOCH_MISMATCH : Nat := 456
def Src.DOMAIN_VIOLATION : Nat := 457
def Src.UNROUTABLE : Nat := 458
def Src.RING_VC : Nat := 459
def Src.PORT_FLUSH : Nat := 460
def Src.DRAIN_STUCK : Nat := 461
def Src.ZENITH_BUSY : Nat := 462
def Src.SCHED_TRANSIT : Nat := 463
def Src.OBUF_CE : Nat := 464
def Src.OBUF_UE : Nat := 465
def Src.ROUTE_PARITY : Nat := 466
def Src.TWIN_LOST : Nat := 832
def Src.TWIN_UNPAIRED : Nat := 833
def Src.TWIN_MODE_DIFF : Nat := 834
def Src.CMP_CORRECTED : Nat := 835
def Src.CMP_FENCE : Nat := 836
def Src.CMP_SUSPECT : Nat := 837
def Src.CMP_LATE : Nat := 838
def Src.TWIN_FILL : Nat := 839
def Src.MIRROR_TAKEOVER : Nat := 840
def Src.MIRROR_HOLD : Nat := 841
def Src.RESILVER_DONE : Nat := 842
def Src.RESILVER_FAIL : Nat := 843
def Src.SPARE_REMAP : Nat := 844
def Src.SPARE_NONE : Nat := 845
def Src.PAIR_DEGRADED : Nat := 846
def Src.TEMP_THROTTLE : Nat := 896
def Src.TEMP_SHUTDOWN : Nat := 897
def Src.VOLT_CLAMP : Nat := 898
def Src.VOLT_FAULT : Nat := 899
def Src.FSTOP_DISC : Nat := 900
def Src.FSTOP_DISC_FAULT : Nat := 901
def Src.FSTOP_STOP : Nat := 902
def Src.FW_WATCHDOG : Nat := 903
def Src.BOOT_FALLBACK : Nat := 904
def Src.SENSOR_FAIL : Nat := 905
def Src.LOS (n : Nat) : Nat := 64 + 8 * n
def Src.CDR_LOL (n : Nat) : Nat := 65 + 8 * n
def Src.PLL_LOL (n : Nat) : Nat := 66 + 8 * n
def Src.FEC_SYM (n : Nat) : Nat := 67 + 8 * n
def Src.TRAIN_FAIL (n : Nat) : Nat := 68 + 8 * n
def Src.WAKE_FAIL (n : Nat) : Nat := 69 + 8 * n
def Src.MARGIN_LOW (n : Nat) : Nat := 70 + 8 * n
def Src.REF_TRACK (n : Nat) : Nat := 71 + 8 * n
def Src.SLC_CORRECTED (n : Nat) : Nat := 512 + 4 * n
def Src.SLC_UNCORRECTED (n : Nat) : Nat := 513 + 4 * n
def Src.SLC_ENGINE (n : Nat) : Nat := 514 + 4 * n
def Src.SLC_PROGRAM (n : Nat) : Nat := 515 + 4 * n
def Src.MEM_CE (s : Nat) : Nat := 768 + 4 * s
def Src.MEM_UE (s : Nat) : Nat := 769 + 4 * s
def Src.FRAME_RETIRE (s : Nat) : Nat := 770 + 4 * s
def Src.STACK_FAIL (s : Nat) : Nat := 771 + 4 * s

/-- Severities (Table SCP-6). -/
def Sev.NOTE : Nat := 0
def Sev.CORRECTED : Nat := 1
def Sev.CONTAINED : Nat := 2
def Sev.FATAL : Nat := 3

/-- The default severity of a source; none for a reserved source number (R343). -/
def srcSev (s : Nat) : Option Nat :=
  if 960 ≤ s ∧ s < 1024 then some 0
  else if 912 ≤ s ∧ s < 960 then some 0
  else if 64 ≤ s ∧ s < 448 then
    some (match (s - 64) % 8 with | 2 => 2 | 3 => 1 | 4 => 2 | 5 => 2 | _ => 0)
  else if 512 ≤ s ∧ s < 768 then some (if s % 4 = 0 then 1 else 2)
  else if 768 ≤ s ∧ s < 832 then some (match s % 4 with | 0 => 1 | 2 => 0 | _ => 2)
  else match s with
  | 7 | 8 | 9 | 10 | 12 | 23 | 24 | 25 | 26 | 29 | 33 | 36 | 37 | 40 | 42 | 43 | 50 | 52 | 451 | 452 | 453 | 457 | 458 | 460 | 462 | 838 | 839 | 842 | 896 | 898 | 900 | 904 | 905 => some 0
  | 3 | 16 | 448 | 464 | 835 | 844 => some 1
  | 2 | 4 | 5 | 11 | 19 | 20 | 21 | 22 | 27 | 28 | 32 | 34 | 35 | 41 | 48 | 49 | 449 | 450 | 454 | 455 | 456 | 459 | 461 | 463 | 465 | 466 | 832 | 833 | 834 | 836 | 837 | 840 | 841 | 843 | 845 | 846 | 901 | 902 | 903 => some 2
  | 0 | 1 | 6 | 17 | 18 | 897 | 899 => some 3
  | _ => none

/-- The default reaction of a source (R345, Table FLT-10): 0 LOG, 1 STOP_SLICE, 3 FENCE_DIE,
4 ORDERLY_STOP, 5 SAFE. -/
def srcReact (s : Nat) : Nat :=
  if 512 ≤ s ∧ s < 768 ∧ s % 4 = 1 then 1
  else match s with
  | 0 | 1 | 897 | 899 => 5
  | 2 | 4 => 3
  | 6 | 17 | 18 | 901 | 902 => 4
  | 22 | 836 => 1
  | _ => 0

/-- The home level of a source (Tables FLT-6 and FLT-7): 0 cell, 1 block, 2 region, 3 chip. -/
def srcLevel (s : Nat) : Nat :=
  if s < 16 then
    (match s with | 0 | 1 | 6 | 12 => 3 | 2 | 3 | 4 | 5 => 2 | _ => 1)
  else if 64 ≤ s ∧ s < 448 then (if (s - 64) % 8 ≤ 3 ∨ (s - 64) % 8 = 7 then 0 else 1)
  else if 512 ≤ s ∧ s < 768 then (if s % 4 = 0 then 0 else 1)
  else if 768 ≤ s ∧ s < 832 then (if s % 4 = 3 then 2 else 1)
  else if 832 ≤ s ∧ s < 960 then 3 else 1

/-- The reset K of a sensor (Table MGT-8). -/
def sensorK (n : Nat) : Nat :=
  if n < 48 then 2 else if n = 48 then 0 else if n < 53 then 1 else if n = 53 then 4
  else if n < 62 then 1 else if n < 70 then 2 else if n < 78 then 1 else if n < 96 then 0
  else if n < 192 then 3 else if n < 240 then 2 else 0

/-- A board-written sensor (R404). -/
def boardSensor (n : Nat) : Bool := n = 48 ∨ (240 ≤ n ∧ n < 256)

/-- The reset value of a threshold entry (Table MGT-9). -/
def threshReset (i : Nat) : Nat :=
  match i with
  | 0 => 0x0020_02D0_0001_4530 | 1 => 0x0000_0370_0001_1130 | 2 => 0x0064_2A30_0005_1331
  | 3 => 0x0000_3390_0005_1531 | 4 => 0x0064_1068_000A_2535 | 5 => 0x0030_05F0_0003_6552
  | 6 => 0x0000_0690_0003_1152 | _ => 0x0000_0000_0001_0000

/-- The reset value of FLT_ACTION of a source (Table MAP-8). -/
def actionReset (s : Nat) : Nat :=
  match srcSev s with
  | none => 0
  | some v => v + srcReact s * 0x1000 + (if s = 0 ∨ s = 1 ∨ s = 12 then 0x1_0000 else 0)

/-- The die at a position of the list of active dies: a die retired at factory gives its place to a
spare, the lower-numbered to AD16 (R12, R13). -/
def activeDie (retired : List Nat) (q : Nat) : Nat :=
  let out := (List.range 16).filter (fun k => retired.contains k)
  let spares := [16, 17].filter (fun k => !retired.contains k)
  match (List.zip out spares).find? (fun x => x.1 == q) with
  | some x => x.2
  | none => q

/-- The value of a register after device reset (R422, R429, R430). -/
def regReset (fz : Fuse) : RegId → Nat → Nat
  | .GLB_ID, _ => if fz.gradeM then 0x0000_4D01_4832_1E5C else 0x0000_5801_4832_1E5C
  | .GLB_FEATURES3, _ => if fz.gradeM then 0x8010_2030_0600_01C0 else 0x8010_2030_0600_0200
  | .GLB_DET_SIG, _ => if fz.stepA1 then 1 else 2
  | .DOM_DET_SIG, _ => if fz.stepA1 then 1 else 2
  | .GLB_STEPPING, _ => (if fz.stepA1 then 0xA1 else 0xB0) + fz.svnMin % 2 ^ 16 * 2 ^ 16 + fz.serial % 2 ^ 32 * 2 ^ 32
  | .MER_SLOT_CFG, _ => if fz.gradeM then 0x0000_07D0_0001_C020 else 0x0000_07D0_0002_0020
  | .PWR_LIMITS, _ => if fz.gradeM then 0x0736_4578_0352_028A else 0x0736_4640_0352_028A
  | .FLT_ACTION, s => actionReset s
  | .CIR_SENSOR, n => sensorK n * 0x1_0000_0000 + (if boardSensor n then 0x20_0000_0000 else 0)
  | .CIR_THRESH, i => threshReset i
  | .SWX_VC_WEIGHT, v => (match v with | 1 => 0x30 | 5 => 0 | 6 => 0x10 | 7 => 0x40 | _ => 0x20)
  | .SLC_STATE, n => activeDie fz.retired (n / 4) * 0x1_0000 + (n % 4) * 0x20_0000
  | .GLB_FEATURES0, _ => 0x1004010008080240
  | .GLB_FEATURES1, _ => 0x1010204001009000
  | .GLB_FEATURES2, _ => 0x480200084000FF
  | .MER_CTRL, _ => 0x43F00
  | .MER_SYNC_STATUS, _ => 0x3F00
  | .FLT_PIN_EN, _ => 0x8
  | .FLT_RING_BASE, _ => 0x40010000028000
  | .FLT_CTRL, _ => 0x2
  | .TWN_STATUS, _ => 0xFFF0000
  | .TWN_CTRL, _ => 0x4008002120
  | .TWN_SILVER, _ => 0x73
  | .CIR_STATUS, _ => 0x1
  | .CIR_FSTOP_CFG, _ => 0xA
  | .PWR_STATE, _ => 0x30
  | .PWR_VSET, _ => 0x2EE
  | .MBX_VERSION, _ => 0x3FF00000301
  | .MBX_PERM, _ => 0x65DF7F
  | .LNK_CTRL, _ => 0x2
  | .LNK_RATE, _ => 0x40000000F
  | .LNK_REPLAY_CFG, _ => 0x3200000008
  | .LANE_STATUS, _ => 0x70
  | .LANE_INJECT, _ => 0x3E80100
  | .LANE_MARGIN, _ => 0x40
  | .SWX_CTRL, _ => 0x40003000FFF
  | .COL_TICKET, _ => 0xFFF00000000
  | .COL_SLICE, _ => 0x60000180
  | .SLC_QUOTA, _ => 0x400
  | .MEM_SCRUB, _ => 0x218
  | .MEM_SPARES, _ => 0x4000
  | .MEM_STAGE, _ => 0x4
  | .POOL_CFG, _ => 0x1000000010000
  | .POOL_MGMT, _ => 0x2000
  | .POOL_FREE, _ => 0x100040010004000
  | .PST_LAYOUT, _ => 0x100042000
  | _, _ => 0

/-- What a BAR0 word reads as where nothing has written it: the register's reset value, and 0 in the
bulk windows (log entry 6). -/
def resetWord (fz : Fuse) (a : Nat) : W64 :=
  match regAt a with
  | some (r, i, _) => BitVec.ofNat 64 (regReset fz r i)
  | none => 0

end Sys2Proof.Machine
end

