-- ==== Sys2Proof/Machine/Ops.lean ====
section
/-!
DEFINITION. The shared operations over the state: reading and writing register fields and window
words, the time of the block, raising an event and what the collector does with it (R346-R359), the
sparse per-unit tables, and the memories.
-/

namespace Sys2Proof.Machine

/-! ## Register words and fields -/

/-- The 64-bit word at a BAR0 address: what was last stored, else its reset value (R429). -/
def Ctl.word (s : Ctl) (a : Nat) : W64 := tblGet (resetWord s.fuse) s.bar0 a

/-- Store a 64-bit word at a BAR0 address. -/
def Ctl.setWord (s : Ctl) (a : Nat) (v : W64) : Ctl :=
  { s with bar0 := tblPut (resetWord s.fuse) s.bar0 a v }

/-- Read a register field. -/
def Ctl.rd (s : Ctl) (f : FRef) : Nat := getFld (s.word f.addr) f.lo f.w

/-- Write a register field, modulo its width. -/
def Ctl.wr (s : Ctl) (f : FRef) (v : Nat) : Ctl := s.setWord f.addr (setFld (s.word f.addr) f.lo f.w v)

/-- A one-bit field is set. -/
def Ctl.bit (s : Ctl) (f : FRef) : Bool := s.rd f != 0

/-- Write a one-bit field. -/
def Ctl.wrB (s : Ctl) (f : FRef) (b : Bool) : Ctl := s.wr f (b2n b)

/-- Add to a saturating counter field. -/
def Ctl.sat (s : Ctl) (f : FRef) (k : Nat) : Ctl := s.wr f (satAdd f.w (s.rd f) k)

/-- Add to a counter field modulo its width. -/
def Ctl.inc (s : Ctl) (f : FRef) (k : Nat) : Ctl := s.wr f (s.rd f + k)

/-- Write a whole register. -/
def Ctl.wrWord (s : Ctl) (a v : Nat) : Ctl := s.setWord a (BitVec.ofNat 64 v)

/-- A whole word as a number. -/
def Ctl.rdWord (s : Ctl) (a : Nat) : Nat := (s.word a).toNat

/-- The signature of domain `d`: GLB_DET_SIG with MODE replaced by DOM_ARITH[7:0] (R368). -/
def Ctl.domSig (s : Ctl) (d : Nat) : Ctl :=
  s.wrWord (DOM_DET_SIG.addr d) (s.rdWord GLB_DET_SIG.addr % 2 ^ 56 + s.rdWord (DOM_ARITH.addr d) % 256 * 2 ^ 56)

/-- Consecutive words as bytes, little-endian. -/
def Ctl.wordBytes (s : Ctl) (a n : Nat) : List Byte :=
  (List.range n).flatMap (fun i => toBytes 8 (s.rdWord (a + 8 * i)))

/-- Zero `n` words from an address. -/
def Ctl.zeroWords (s : Ctl) (a n : Nat) : Ctl :=
  { s with bar0 := s.bar0.filter (fun e => !(decide (a ≤ e.1) && decide (e.1 < a + 8 * n))) }

/-- Store bytes at a BAR0 address, a byte at a time into its word. -/
def Ctl.setByte (s : Ctl) (a : Nat) (b : Byte) : Ctl :=
  s.wr ⟨a / 8 * 8, 8 * (a % 8), 8⟩ b.toNat

def Ctl.setBytes (s : Ctl) (a : Nat) : List Byte → Ctl
  | [] => s
  | b :: bs => Ctl.setBytes (s.setByte a b) (a + 1) bs

/-- The addresses at and above `a`, below `b`, whose words differ from their reset value. -/
def Ctl.listed (s : Ctl) (a b : Nat) : List (Nat × W64) :=
  s.bar0.filter (fun e => decide (a ≤ e.1) && decide (e.1 < b))

/-! ## Time -/

/-- The device's own count of slots, which times every limit given in slots (log entry 2). -/
def Ctl.slots (s : Ctl) : Nat := s.mer.slots

/-- The Meridian count (R32, R34). -/
def Ctl.now (s : Ctl) : Nat := s.rd MER_NOW.COUNT

/-- Core cycles of a slot (R32). -/
def Ctl.slotCycles (s : Ctl) : Nat := s.rd MER_SLOT_CFG.CORE_CYCLES

/-- Nominal time in nanoseconds: 320 ns a slot (R32). -/
def Ctl.ns (s : Ctl) : Nat := s.slots * 320 + s.cyc * 320 / max 1 s.slotCycles

/-- `k` slots have passed since slot `t` of the device's own count. -/
def Ctl.elapsed (s : Ctl) (t k : Nat) : Bool := decide (t + k ≤ s.slots)

/-- A time stamp of R36: the low 48 bits of the count above a fraction of 1/65,536 slot. -/
def Ctl.stamp (s : Ctl) : Nat :=
  s.now % 2 ^ 48 * 65536 + s.cyc * 65536 / max 1 s.slotCycles

/-! ## Per-unit tables -/

def Ctl.link (s : Ctl) (n : Nat) : LinkSt := tblGet (fun _ => {}) s.links n
def Ctl.setLink (s : Ctl) (n : Nat) (l : LinkSt) : Ctl := { s with links := tblPut (fun _ => {}) s.links n l }
def Ctl.modLink (s : Ctl) (n : Nat) (f : LinkSt → LinkSt) : Ctl := s.setLink n (f (s.link n))

def LinkSt.lane (l : LinkSt) (i : Nat) : LaneSt := tblGet (fun _ => {}) l.lanes i
def LinkSt.setLane (l : LinkSt) (i : Nat) (x : LaneSt) : LinkSt := { l with lanes := tblPut (fun _ => {}) l.lanes i x }

def Ctl.lane (s : Ctl) (n i : Nat) : LaneSt := (s.link n).lane i
def Ctl.setLane (s : Ctl) (n i : Nat) (x : LaneSt) : Ctl := s.modLink n (fun l => l.setLane i x)
def Ctl.modLane (s : Ctl) (n i : Nat) (f : LaneSt → LaneSt) : Ctl := s.setLane n i (f (s.lane n i))

/-- Record something that leaves the device. -/
def Ctl.emit (s : Ctl) (x : Sent) : Ctl := { s with sent := x :: s.sent }

/-- Take a fresh index for a free value. -/
def Ctl.fresh (s : Ctl) : Nat × Ctl := (s.freeN, { s with freeN := s.freeN + 1 })

/-! ## Raising events (R346) -/

/-- Raise an event: the die's collector slice stamps it with the count and the core cycle, and it
travels to the collector. A reserved source never raises (R343). -/
def Ctl.raise (s : Ctl) (src : Nat) (subj : Subj := {}) (d4 : Nat := 0) (d5 : Nat := 0) (d6 : Nat := 0)
    (d7 : Nat := 0) : Ctl :=
  match srcSev src with
  | none => s
  | some _ =>
    { s with flt := { s.flt with inflight := s.flt.inflight ++
        [{ src := src, subj := subj, d4 := d4, d5 := d5, d6 := d6, d7 := d7, slot := s.now, cyc := s.cyc }] } }

/-- Raise an event of a rule that raises it at most once per slot for a key. -/
def Ctl.raiseOnce (s : Ctl) (src key : Nat) (subj : Subj := {}) (d4 : Nat := 0) (d5 : Nat := 0) : Ctl :=
  if s.flt.onceSlot.contains (src, key) then s
  else
    let s := s.raise src subj d4 d5
    { s with flt := { s.flt with onceSlot := (src, key) :: s.flt.onceSlot } }

/-- Log a dropped write or refused read: REG_REFUSED with the address, size, status and route
(Table FLT-9, sources 7-9). -/
def Ctl.logRefused (s : Ctl) (rt addr size status : Nat) : Ctl :=
  s.raise Src.REG_REFUSED {} addr (size % 16 + status * 256 + rt * 65536)

/-- Status codes (Table SCP-5). -/
def St.OK : Nat := 0x00
def St.ACCEPTED_DEFERRED : Nat := 0x01
def St.DUPLICATE : Nat := 0x02
def St.BUSY : Nat := 0x10
def St.NO_SLOT : Nat := 0x11
def St.OVERSUBSCRIBED : Nat := 0x12
def St.BAD_OPCODE : Nat := 0x20
def St.BAD_PARAM : Nat := 0x21
def St.BAD_VERSION : Nat := 0x22
def St.DENIED : Nat := 0x23
def St.NOT_FOUND : Nat := 0x24
def St.UNSUPPORTED : Nat := 0x25
def St.LINK_LOST : Nat := 0x30
def St.STALE : Nat := 0x31
def St.TIMEOUT : Nat := 0x32
def St.INTERNAL : Nat := 0x3F

/-! ## The host port's interrupts and wake (R357, R395, R415) -/

/-- What a BAR2 byte reads as where nothing has written it: MSI-X vectors are masked (log entry 13). -/
def resetBar2 (a : Nat) : Byte := if 0x80000 ≤ a ∧ a < 0x80400 ∧ a % 16 = 12 then 1 else 0

def Ctl.byte2 (s : Ctl) (a : Nat) : Byte := tblGet resetBar2 s.bar2 a
def Ctl.setByte2 (s : Ctl) (a : Nat) (b : Byte) : Ctl := { s with bar2 := tblPut resetBar2 s.bar2 a b }

def Ctl.setBytes2 (s : Ctl) (a : Nat) : List Byte → Ctl
  | [] => s
  | b :: bs => Ctl.setBytes2 (s.setByte2 a b) (a + 1) bs

def Ctl.bytes2 (s : Ctl) (a n : Nat) : List Byte := (List.range n).map (fun i => s.byte2 (a + i))

/-- Send an MSI-X message: a masked vector leaves its pending bit in the PBA instead. -/
def Ctl.msix (s : Ctl) (v : Nat) : Ctl :=
  if s.host.perst then s
  else if nbit (s.byte2 (0x80000 + 16 * v + 12)).toNat 0 then
    s.setByte2 (0x81000 + v / 8) (s.byte2 (0x81000 + v / 8) ||| (1 <<< (v % 8) : Byte))
  else s.emit (.msix v)

/-- Set a wake reason (R415): its bit, the slot, and WAKE_N in D3cold before training has started. -/
def Ctl.wakeReason (s : Ctl) (f : FRef) : Ctl :=
  let s := s.wrB f true
  let s := s.wr PWR_WAKE_REASON.LAST_SLOT s.now
  if s.rd PWR_STATE.HOST_D = 3 ∧ !s.host.training ∧ s.host.connected then s.wrB PWR_WAKE_REASON.WAKE_N true else s

/-! ## The collector (R347-R359) -/

/-- The level of a reaction (Table FLT-10). -/
def reactLevel : Nat → Nat
  | 1 | 2 => 1
  | 3 => 2
  | 4 | 5 => 3
  | _ => 0

/-- The dies of a slice, a link and a stack, numbered as in Table FLT-8. -/
def sliceDie (s : Ctl) (n : Nat) : Nat := s.rd (SLC_STATE.DIE n)
def linkDie (l : Nat) : Nat := 18 + l / 6
def stackDie (k : Nat) : Nat := 26 + k / 4

/-- The die that FENCE_DIE names. -/
def Ctl.dieOf (s : Ctl) (j : Subj) : Option Nat :=
  match j.die, j.slice, j.link, j.stack with
  | some k, _, _, _ => some k
  | _, some n, _, _ => some (sliceDie s n)
  | _, _, some l, _ => some (linkDie l)
  | _, _, _, some k => some (stackDie k)
  | _, _, _, _ => none

/-- The reaction that an event takes: FATAL takes at least ORDERLY_STOP, one whose subject is absent
acts as LOG, and FENCE_DIE of a control die as SAFE (R354, R355). -/
def Ctl.reactOf (s : Ctl) (src : Nat) (j : Subj) : Nat :=
  let r := s.rd (FLT_ACTION.REACT src)
  if s.rd (FLT_ACTION.SEV src) = Sev.FATAL ∧ r < 4 then 4
  else match r with
    | 1 => if j.slice.isSome then 1 else 0
    | 2 => if j.domain.isSome then 2 else 0
    | 3 => match s.dieOf j with
      | none => 0
      | some k => if 30 ≤ k then 5 else 3
    | _ => r

def Ctl.levelOf (s : Ctl) (src : Nat) (j : Subj) : Nat := max (srcLevel src) (reactLevel (s.reactOf src j))

/-- Word 2 of a record: the subject (Table FLT-8). -/
def Subj.word2 (j : Subj) : Nat :=
  let f (o : Option Nat) (lo v : Nat) : Nat := match o with | none => 0 | some x => (x <<< lo) + (1 <<< v)
  f j.domain 0 6 + f j.slice 8 14 + f j.link 16 22 + f j.port 24 31 + (j.lanes % 256) <<< 32
    + f j.stack 40 44 + f j.stream 45 47 + f j.die 48 53

/-- Word 3 of a record: operation and chunk. -/
def Subj.word3 (j : Subj) : Nat :=
  (match j.opTag with | none => 0 | some t => t % 2 ^ 15 + 2 ^ 15) + (j.chunk % 2 ^ 20) <<< 32

/-- Order of first faults raised together (R348): higher severity, then lower source, then lower
subject on slice, link, stack and domain, an absent subject lowest. -/
def Subj.key (j : Subj) : List Nat :=
  let k (o : Option Nat) : Nat := match o with | none => 0 | some x => x + 1
  [k j.slice, k j.link, k j.stack, k j.domain]

def lexLt : List Nat → List Nat → Bool
  | a :: as, b :: bs => if a = b then lexLt as bs else decide (a < b)
  | _, _ => false

def Ctl.evLt (s : Ctl) (a b : Event) : Bool :=
  let k (e : Event) : List Nat := [3 - s.rd (FLT_ACTION.SEV e.src), e.src] ++ e.subj.key
  lexLt (k a) (k b)

def Ctl.evInsert (s : Ctl) (e : Event) : List Event → List Event
  | [] => [e]
  | x :: t => if s.evLt e x then e :: x :: t else x :: s.evInsert e t

def Ctl.evSort (s : Ctl) (l : List Event) : List Event := l.foldl (fun acc e => s.evInsert e acc) []

/-- The register image of a first fault. -/
def Ctl.firstWord (s : Ctl) (e : Event) (same : Bool) : Nat :=
  e.src + (s.rd (FLT_ACTION.SEV e.src)) <<< 10 + (s.levelOf e.src e.subj) <<< 12 + (b2n e.forced) <<< 14 + 1 <<< 15
    + (e.cyc % 512) <<< 16 + (b2n same) <<< 25 + (e.subj.word2 % 2 ^ 32) <<< 32

def Ctl.setFirst (s : Ctl) (e : Event) : Ctl :=
  (s.wrWord FLT_FIRST.addr (s.firstWord e false)).wr FLT_FIRST_TIME.COUNT e.slot

def Ctl.setNext (s : Ctl) (e : Event) (same : Bool) : Ctl :=
  (s.wrWord FLT_NEXT.addr (s.firstWord e same)).wr FLT_NEXT_TIME.COUNT e.slot

/-- Fill FLT_FIRST and FLT_NEXT from the qualifying events raised together, in order (R348). -/
def Ctl.firstFaults (s : Ctl) (evs : List Event) : Ctl :=
  let q := s.evSort (evs.filter (fun e =>
    decide (s.rd FLT_CTRL.FIRST_MIN ≤ s.rd (FLT_ACTION.SEV e.src)) && !s.bit (FLT_ACTION.MASK e.src)))
  if !s.bit FLT_FIRST.VALID then
    match q with
    | [] => s
    | [a] => s.setFirst a
    | a :: b :: _ =>
      let s := s.setFirst a
      if s.bit FLT_NEXT.VALID then s else s.setNext b true
  else if !s.bit FLT_NEXT.VALID then
    match q with
    | [] => s
    | a :: _ => s.setNext a (a.slot = s.rd FLT_FIRST_TIME.COUNT && a.cyc = s.rd FLT_FIRST.CYCLE)
  else s

/-- The device is in the safe state (R362). -/
def Ctl.inSafe (s : Ctl) : Bool := s.bit FLT_STATUS.SAFE

/-- Every source that is ACTIVE; one whose word is not listed reads as inactive. -/
def Ctl.activeSrcs (s : Ctl) : List Nat :=
  ((s.listed 0x24000 0x26000).map (fun e => (e.1 - 0x24000) / 8)).filter (fun k => s.bit (FLT_SRC.ACTIVE k))

/-- Recompute FLT_STATUS and FAULT_N from the per-source state (R356, R363). -/
def Ctl.fltRefresh (s : Ctl) : Ctl :=
  let act := s.activeSrcs
  let hi := listMax (act.map (fun x => s.rd (FLT_ACTION.SEV x)))
  let pin := act.any (fun x => s.bit (FLT_ACTION.PIN x) || nbit (s.rd FLT_PIN_EN.SEV) (s.rd (FLT_ACTION.SEV x)))
  let s := s.wrB FLT_STATUS.ANY_ACTIVE (!act.isEmpty)
  let s := s.wr FLT_STATUS.HIGHEST hi
  let s := s.wr FLT_STATUS.ACTIVE_COUNT act.length
  let s := s.wr FLT_STATUS.PENDING_COUNT s.flt.pend.length
  s.wrB FLT_STATUS.FAULT_N (s.inSafe || s.bit FLT_STATUS.ORDERLY || pin)

/-- Add an event to the sources waiting for the writer (R351). -/
def addPend (e : Event) : List PendSrc → List PendSrc
  | [] => [{ src := e.src, first := e, count := 1 }]
  | p :: t => if p.src = e.src then { p with count := satAdd 16 p.count 1 } :: t else p :: addPend e t

/-- What the collector does with one event (R347, R355, R357). -/
def Ctl.collect (s : Ctl) (e : Event) : Ctl :=
  let masked := s.bit (FLT_ACTION.MASK e.src)
  let react := s.reactOf e.src e.subj
  let s := s.sat (FLT_SRC.COUNT e.src) 1
  let s := s.wr (FLT_SRC.LAST e.src) e.slot
  let s := if masked then s else
    let s := s.wrB (FLT_SRC.ACTIVE e.src) true
    let s := s.wrB (FLT_SRC.PENDING e.src) true
    { s with flt := { s.flt with pend := addPend e s.flt.pend } }
  let s := if s.inSafe then s
    else if react = 5 then
      (match s.flt.safeReq with
       | none => { s with flt := { s.flt with safeReq := some e.src } }
       | some _ => s)
    else if react = 0 then s
    else { s with flt := { s.flt with due := s.flt.due ++ [(react, e)] } }
  if masked || !s.bit (FLT_ACTION.IRQ e.src) then s else
    let v := s.rd (FLT_ACTION.VECTOR e.src)
    let s := s.wakeReason PWR_WAKE_REASON.FAULT
    if s.flt.msixSent.contains v then s
    else
      let s := s.msix v
      { s with flt := { s.flt with msixSent := v :: s.flt.msixSent } }

/-- The collector takes a group of events of one stamp (R346-R348). -/
def Ctl.collectGroup (s : Ctl) (evs : List Event) : Ctl :=
  let n := evs.length
  let evs := evs.map (fun e =>
    { e with same := decide (1 < n), sev := s.rd (FLT_ACTION.SEV e.src), level := s.levelOf e.src e.subj, react := s.reactOf e.src e.subj })
  let s := s.firstFaults evs
  (forEach evs s Ctl.collect).fltRefresh

/-- The events of the oldest stamp in flight reach the collector. -/
def Ctl.collectOldest (s : Ctl) : Ctl :=
  match s.flt.inflight with
  | [] => s
  | e :: _ =>
    let g := s.flt.inflight.filter (fun x => x.slot = e.slot && x.cyc = e.cyc)
    let r := s.flt.inflight.filter (fun x => !(x.slot = e.slot && x.cyc = e.cyc))
    ({ s with flt := { s.flt with inflight := r } }).collectGroup g

/-- Deliver groups while the oldest stamp satisfies a test, at most `n` times. -/
def Ctl.collectWhile (p : Event → Bool) : Nat → Ctl → Ctl
  | 0, s => s
  | n + 1, s =>
    match s.flt.inflight with
    | [] => s
    | e :: _ => if p e then Ctl.collectWhile p n s.collectOldest else s

/-! ## Memories -/

/-- Bytes of one slice's staging SRAM (R283). -/
def stagingBytes : Nat := 36 * 1048576

def Ram.dramByte (r : Ram) (a : Nat) : Byte := tblGet (fun _ => 0) r.dram a
def Ram.setDramByte (r : Ram) (a : Nat) (b : Byte) : Ram := { r with dram := tblPut (fun _ => 0) r.dram a b }

def Ram.dramBytes (r : Ram) (a n : Nat) : List Byte := (List.range n).map (fun i => r.dramByte (a + i))

def Ram.setDramBytes (r : Ram) (a : Nat) : List Byte → Ram
  | [] => r
  | b :: bs => Ram.setDramBytes (r.setDramByte a b) (a + 1) bs

def Ram.stageByte (r : Ram) (n o : Nat) : Byte := tblGet (fun _ => 0) r.staging (n * stagingBytes + o)
def Ram.setStageByte (r : Ram) (n o : Nat) (b : Byte) : Ram :=
  { r with staging := tblPut (fun _ => 0) r.staging (n * stagingBytes + o) b }

def Ram.stageBytes (r : Ram) (n o k : Nat) : List Byte := (List.range k).map (fun i => r.stageByte n (o + i))

def Ram.setStageBytes (r : Ram) (n o : Nat) : List Byte → Ram
  | [] => r
  | b :: bs => Ram.setStageBytes (r.setStageByte n o b) n (o + 1) bs

/-- Zero every staging byte of a slice in `[a, b)`. -/
def Ram.zeroStaging (r : Ram) (n a b : Nat) : Ram :=
  { r with staging := r.staging.filter (fun e =>
      !(decide (n * stagingBytes + a ≤ e.1) && decide (e.1 < n * stagingBytes + b))) }

/-- Zero every DRAM byte in `[a, b)`. -/
def Ram.zeroDram (r : Ram) (a b : Nat) : Ram :=
  { r with dram := r.dram.filter (fun e => !(decide (a ≤ e.1) && decide (e.1 < b))) }

/-- Both memories are in canonical form. -/
def Ram.wf (r : Ram) : Bool := tblWf (fun _ => (0 : Byte)) r.dram && tblWf (fun _ => (0 : Byte)) r.staging

/-! ## Lifting -/

/-- A change of everything but the memories. -/
def Dev.onCtl (d : Dev) (f : Ctl → Ctl) : Dev := { d with ctl := f d.ctl }

/-- A change of the memories. -/
def Dev.onRam (d : Dev) (f : Ram → Ram) : Dev := { d with ram := f d.ram }

/-- A command that completes with a change of everything but the memories. -/
def State.ctlNext (s : State) (f : Ctl → Ctl) : Host.Outcome State Fault Refusal :=
  .next { s with dev := s.dev.onCtl f }

/-- A command that completes with a change of the device. -/
def State.devNext (s : State) (f : Dev → Dev) : Host.Outcome State Fault Refusal :=
  .next { s with dev := f s.dev }

end Sys2Proof.Machine
end

