-- ==== Sys2Proof/Machine/Crc.lean ====
section
/-!
DEFINITION. The check values of the part: CRC-32C, CRC-32K and CRC-64/ECMA-182 (Table FLT-4),
CRC-16/IBM-3740 of packet headers (R98) and CRC-8 of training control words (Table LAN-4); and the
bytes of packets that they cover (Tables LNK-2 and LNK-4).
-/

namespace Sys2Proof.Machine

/-- One bit of a reflected register. -/
def crcBitR (poly r : Nat) : Nat := if r % 2 = 1 then (r >>> 1) ^^^ poly else r >>> 1

/-- One byte into a reflected register; `poly` is the reflected polynomial. -/
def crcByteR (poly r : Nat) (b : Byte) : Nat := iter (crcBitR poly) 8 (r ^^^ b.toNat)

/-- One bit of an unreflected `w`-bit register. -/
def crcBitN (w poly r : Nat) : Nat :=
  if r / 2 ^ (w - 1) % 2 = 1 then ((r * 2) % 2 ^ w) ^^^ poly else (r * 2) % 2 ^ w

/-- One byte into an unreflected `w`-bit register. -/
def crcByteN (w poly r : Nat) (b : Byte) : Nat := iter (crcBitN w poly) 8 (r ^^^ (b.toNat * 2 ^ (w - 8)))

/-- The start value of a running check register (Table FLT-4, INIT). -/
def chkInit (sel : Nat) : Nat := if sel = 2 then 0 else 0xFFFF_FFFF

/-- One byte into the running value V of a check unit (R340). -/
def chkByte (sel v : Nat) (b : Byte) : Nat :=
  match sel with
  | 0 => crcByteR 0x82F6_3B78 v b
  | 1 => crcByteR 0xEB31_D82E v b
  | _ => crcByteN 64 0x42F0_E1EB_A9EA_3693 v b

/-- Bytes into a running value. -/
def chkRun (sel v : Nat) (bs : List Byte) : Nat := bs.foldl (chkByte sel) v

/-- V xor XOROUT. -/
def chkFinal (sel v : Nat) : Nat := if sel = 2 then v else v ^^^ 0xFFFF_FFFF

/-- The check value of bytes by CHK_SEL. -/
def chkValue (sel : Nat) (bs : List Byte) : Nat := chkFinal sel (chkRun sel (chkInit sel) bs)

def crc32c (bs : List Byte) : Nat := chkValue 0 bs
def crc64 (bs : List Byte) : Nat := chkValue 2 bs

/-- CRC-16/IBM-3740 (R98). -/
def crc16 (bs : List Byte) : Nat := bs.foldl (crcByteN 16 0x1021) 0xFFFF

/-- CRC-8 over bits [55:0] of a training control word, taken from bit 0 up (Table LAN-4). -/
def crc8Word (w : Nat) : Nat :=
  (List.range 56).foldl (fun r i =>
    let b := ((r / 128) % 2 + (w >>> i) % 2) % 2
    if b = 1 then ((r * 2) % 256) ^^^ 0x07 else (r * 2) % 256) 0

/-! ## Packet bytes -/

def Pkt.w0 (p : Pkt) : Nat :=
  p.typ % 64 + (p.vc % 8) <<< 6 + (p.epoch % 8) <<< 9 + (p.dstDev % 4096) <<< 12 + (p.dstPort % 256) <<< 24
    + (p.srcDev % 4096) <<< 32 + (p.srcPort % 256) <<< 44 + (p.len % 4096) <<< 52

def Pkt.w1 (p : Pkt) : Nat :=
  p.domain % 64 + (p.ticket % 2 ^ 26) <<< 6 + (p.stream % 65536) <<< 32 + (p.alive % 65536) <<< 48

def Pkt.w2 (p : Pkt) : Nat :=
  p.addr % 2 ^ 57 + (p.chkSel % 4) <<< 57 + (b2n p.isFirst) <<< 59 + (b2n p.isLast) <<< 60
    + (b2n p.ackReq) <<< 61 + (b2n p.reissue) <<< 62 + (b2n p.reform) <<< 63

/-- Word 3 without HDR_CHECK. -/
def Pkt.w3 (p : Pkt) : Nat :=
  p.opTag % 2 ^ 15 + (p.contrib % 4096) <<< 15 + (p.chunk % 2 ^ 20) <<< 27 + (b2n p.hopLocal) <<< 47

/-- Header bytes 0-29, over which HDR_CHECK is formed. -/
def Pkt.hdrBytes (p : Pkt) : List Byte := toBytes 8 p.w0 ++ toBytes 8 p.w1 ++ toBytes 8 p.w2 ++ toBytes 6 p.w3

/-- Recompute HDR_CHECK (R98). -/
def Pkt.seal (p : Pkt) : Pkt := { p with hdrCheck := crc16 p.hdrBytes }

/-- The CHECK field of a payload (Table LNK-4): 0 with LEN 0. -/
def payloadCheck (sel : Nat) (bs : List Byte) : Nat := if bs.isEmpty then 0 else chkValue sel bs

/-- Form a packet (R339): LEN, CHECK and HDR_CHECK from its fields and payload; a payload fills its
last 16-byte unit with zero bytes. -/
def Pkt.form (p : Pkt) : Pkt :=
  let n := cdiv p.payload.length 16
  let body := fitBytes (16 * n) p.payload
  ({ p with payload := body, len := n, check := payloadCheck p.chkSel body }).seal

/-- The payload agrees with the carried CHECK. -/
def Pkt.chkGood (p : Pkt) : Bool := p.check = payloadCheck p.chkSel p.payload

/-- Read a header from its four words. -/
def Pkt.ofHeader (a b c d : Nat) : Pkt :=
  { typ := nfld a 0 6, vc := nfld a 6 3, epoch := nfld a 9 3, dstDev := nfld a 12 12, dstPort := nfld a 24 8,
    srcDev := nfld a 32 12, srcPort := nfld a 44 8, len := nfld a 52 12,
    domain := nfld b 0 6, ticket := nfld b 6 26, stream := nfld b 32 16, alive := nfld b 48 16,
    addr := nfld c 0 57, chkSel := nfld c 57 2, isFirst := nbit c 59, isLast := nbit c 60, ackReq := nbit c 61,
    reissue := nbit c 62, reform := nbit c 63,
    opTag := nfld d 0 15, contrib := nfld d 15 12, chunk := nfld d 27 20, hopLocal := nbit d 47,
    hdrCheck := nfld d 48 16 }

/-- Read a whole packet from its bytes: header, 16 x LEN payload bytes, 16-byte tail. -/
def Pkt.ofBytes (bs : List Byte) : Pkt :=
  let h := Pkt.ofHeader (leAt bs 0 8) (leAt bs 8 8) (leAt bs 16 8) (leAt bs 24 8)
  let t := (bs.drop (32 + 16 * h.len)).take 16
  { h with payload := (bs.drop 32).take (16 * h.len), check := leAt t 0 8,
           poison := nbit (leAt t 8 1) 0, code := leAt t 9 1 }

/-- Bytes of link payload a packet occupies (R96), and its units (R103). -/
def Pkt.size (p : Pkt) : Nat := 48 + 16 * p.len
def Pkt.units (p : Pkt) : Nat := cdiv p.size 256

/-! ## Types (Table LNK-5) -/

def Typ.WRITE : Nat := 0x01
def Typ.READ_REQ : Nat := 0x02
def Typ.READ_RSP : Nat := 0x03
def Typ.CONTRIB : Nat := 0x04
def Typ.MCAST : Nat := 0x05
def Typ.ZENITH : Nat := 0x06
def Typ.MGMT_CMD : Nat := 0x08
def Typ.MGMT_RSP : Nat := 0x09
def Typ.NACK : Nat := 0x0C
def Typ.CREDIT : Nat := 0x0D
def Typ.SYNC : Nat := 0x0E

/-- TYPE is defined, and VC and LEN are permitted for it (R102, Table LNK-5). -/
def typeOk (p : Pkt) : Bool :=
  let l := p.len
  match p.typ with
  | 0x01 => [0, 2, 7].contains p.vc && decide (1 ≤ l ∧ l ≤ 512)
  | 0x02 => p.vc = 0 && l = 0
  | 0x03 => p.vc = 1 && decide (l ≤ 512)
  | 0x04 => [0, 2, 3, 4].contains p.vc && decide (1 ≤ l ∧ l ≤ 512)
  | 0x05 => [2, 3, 4, 7].contains p.vc && decide (1 ≤ l ∧ l ≤ 512)
  | 0x06 => p.vc = 5 && decide (1 ≤ l ∧ l ≤ 13)
  | 0x08 => p.vc = 6 && decide (l ≤ 512)
  | 0x09 => p.vc = 6 && decide (l ≤ 512)
  | 0x0C => (p.vc = 1 || p.vc = 6) && l = 0
  | 0x0D => p.vc = 1 && l = 0
  | 0x0E => p.vc = 6 && l = 3
  | _ => false

/-- A tracked request (R125): READ_REQ, WRITE with ACK_REQ, MGMT_CMD. -/
def Pkt.isRequest (p : Pkt) : Bool :=
  p.typ = Typ.READ_REQ || (p.typ = Typ.WRITE && p.ackReq) || p.typ = Typ.MGMT_CMD

/-- Scheduled virtual channels (R135). -/
def schedVc (v : Nat) : Bool := v = 2 || v = 3 || v = 4

end Sys2Proof.Machine
end

