-- ==== Sys2Proof/Machine/Switch.lean ====
section
/-!
DEFINITION. The switch core (spec/05_switch_core.md): offering packets, the ingress checks of Table
SWX-1, destination resolution, epochs and draining, the output buffers, arbitration and egress, and
a port going down.
-/

namespace Sys2Proof.Machine

/-! ## Numbers and tables -/

/-- This device's number (R149). -/
def Ctl.devNum (s : Ctl) : Nat := s.rd SWX_CTRL.DEV_NUM

/-- A link carries packets: UP, and not DRAINING (R126, R304). -/
def Ctl.linkUp (s : Ctl) (n : Nat) : Bool :=
  decide (n < 48) && s.bit (LNK_STATUS.UP n) && s.rd (LNK_STATUS.LIFECYCLE n) != 3

/-- Address of a device-table entry and of a link-table entry (R128). -/
def devEntryAddr (d k i : Nat) : Nat := 0x0500_0000 + d * 0x2_0000 + k * 0x1_0000 + i * 8
def linkEntryAddr (d k n : Nat) : Nat := 0x0500_0000 + d * 0x2_0000 + k * 0x1_0000 + 0x8000 + n * 8
/-- Address of a management route table entry (R130). -/
def mgmtEntryAddr (i : Nat) : Nat := 0x0580_0000 + i * 8

def Ctl.linkEntry (s : Ctl) (d k n : Nat) : Nat := s.rdWord (linkEntryAddr d k n)

def Ctl.liveBank (s : Ctl) (d : Nat) : Nat := s.rd (MER_PHASE.BANK d)
def Ctl.epoch (s : Ctl) (d : Nat) : Nat := s.rd (MER_PHASE.EPOCH d)

def Ctl.outSt (s : Ctl) (o : Nat) : OutSt := tblGet (fun _ => {}) s.sw.out o
def Ctl.setOut (s : Ctl) (o : Nat) (x : OutSt) : Ctl :=
  { s with sw := { s.sw with out := tblPut (fun _ => {}) s.sw.out o x } }

/-- The packets waiting at an input: received on a link, or offered by a slice or the control dies. -/
def Ctl.inQ (s : Ctl) (i : Nat) : List InPkt :=
  if i < 48 then (s.link i).rxq else tblGet (fun _ => []) s.sw.tx i

def Ctl.setInQ (s : Ctl) (i : Nat) (q : List InPkt) : Ctl :=
  if i < 48 then s.modLink i (fun l => { l with rxq := q })
  else { s with sw := { s.sw with tx := tblPut (fun _ => []) s.sw.tx i q } }

/-- The packets delivered to an endpoint: slice n at n, the control dies at 64. -/
def Ctl.rxQ (s : Ctl) (e : Nat) : List InPkt := tblGet (fun _ => []) s.sw.rx e
def Ctl.setRxQ (s : Ctl) (e : Nat) (q : List InPkt) : Ctl :=
  { s with sw := { s.sw with rx := tblPut (fun _ => []) s.sw.rx e q } }

/-! ## Offering packets -/

/-- A slice (input 48 + n) or the control dies (112) offer a packet; `mask` is the egress that a
schedule entry or a hop-local reply names. -/
def Ctl.offer (s : Ctl) (inp : Nat) (p : Pkt) (mask : Option Nat := none) : Ctl :=
  s.setInQ inp (s.inQ inp ++ [{ pkt := p.form, inp := inp, mask := mask }])

/-- Address a reply to a packet (R102, R452): to its source, or hop-local on the link it came by. -/
def Ctl.replyTo (s : Ctl) (from_ : Nat) (x : InPkt) (p : Pkt) : Pkt × Option Nat :=
  let p := { p with srcDev := s.devNum, srcPort := from_ }
  if x.pkt.hopLocal ∧ x.inp < 48 then
    ({ p with hopLocal := true, dstDev := 0, dstPort := x.pkt.srcPort }, some (1 <<< x.inp))
  else ({ p with hopLocal := false, dstDev := x.pkt.srcDev, dstPort := x.pkt.srcPort }, none)

/-- The NACK of one packet (Table LNK-5, R102). -/
def nackOf (p : Pkt) (code : Nat) : Pkt :=
  { typ := Typ.NACK, vc := if p.vc = 6 then 6 else 1, domain := p.domain, ticket := p.ticket, stream := p.stream,
    alive := p.alive, addr := p.typ, opTag := p.opTag, contrib := p.contrib, chunk := p.chunk,
    reissue := p.reissue, code := code }

/-- Refuse a packet with a NACK from a port: a slice's port, or 128 for the control dies and the
switch core, which send through the control-die port. -/
def Ctl.nack (s : Ctl) (port : Nat) (x : InPkt) (code : Nat) : Ctl :=
  let (p, m) := s.replyTo port x (nackOf x.pkt code)
  s.offer (if 64 ≤ port ∧ port < 128 then port - 64 + 48 else 112) p m

/-- A reply (READ_RSP or MGMT_RSP) to a request: its STREAM, ALIVE, TICKET, OP_TAG and ADDR, and the
outcome's CODE (R102); CHK_SEL is the request's (Table FLT-3). -/
def rspOf (p : Pkt) (typ code : Nat) (data : List Byte) : Pkt :=
  { typ := typ, vc := if typ = Typ.MGMT_RSP then 6 else 1, domain := p.domain, ticket := p.ticket,
    stream := p.stream, alive := p.alive, addr := p.addr, opTag := p.opTag, chkSel := p.chkSel,
    isFirst := true, isLast := true, payload := data, code := code }

/-! ## Draining (R131-R134) -/

/-- The packets of a domain's old epoch that the device holds: admitted and not yet sent. -/
def Ctl.heldOf (s : Ctl) (d e : Nat) : Nat :=
  let own (p : Pkt) : Bool := p.domain = d && p.epoch = e && p.vc != 6
  (s.sw.out.map (fun o =>
    (o.2.q.filter (fun x => own x.pkt)).length
      + (match o.2.cur with | some x => b2n (own x.pkt) | none => 0)
      + (match o.2.zcur with | some x => b2n (own x.pkt) | none => 0))).foldl (· + ·) 0

/-- DRAIN_HOLD slots have passed since the swap. -/
def Ctl.holdPassed (s : Ctl) (d : Nat) : Bool :=
  decide (tblGet (fun _ => 0) s.sw.drainFrom d + s.rd SWX_CTRL.DRAIN_HOLD ≤ s.slots)

/-- Recompute DRAIN_COUNT of a draining domain (R133). -/
def Ctl.drainRefresh (s : Ctl) (d : Nat) : Ctl :=
  if s.bit (SWX_EPOCH.DRAINING d) then
    let c := s.heldOf d ((s.epoch d + 7) % 8)
    let c := if s.holdPassed d then c else max 1 c
    s.wr (SWX_EPOCH.DRAIN_COUNT d) (min c 65535)
  else s.wr (SWX_EPOCH.DRAIN_COUNT d) 0

/-- A bank is draining. -/
def Ctl.draining (s : Ctl) (d k : Nat) : Bool := s.bit (SWX_EPOCH.DRAINING d) && s.rd (SWX_EPOCH.DRAIN_BANK d) == k

/-- The routing bank that check 5 selects for a packet's epoch (R132). -/
def Ctl.bankFor (s : Ctl) (d e : Nat) : Option Nat :=
  if e = s.epoch d then some (s.liveBank d)
  else if e = (s.epoch d + 7) % 8 ∧ s.bit (SWX_EPOCH.DRAINING d) then some (s.rd (SWX_EPOCH.DRAIN_BANK d))
  else none

/-- Draining ends: the bank becomes writable and armable, and the slots it took are recorded. -/
def Ctl.drainFinish (s : Ctl) (d : Nat) : Ctl :=
  let took := s.slots - tblGet (fun _ => 0) s.sw.drainFrom d
  let s := s.wrB (SWX_EPOCH.DRAINING d) false
  let s := s.wr (SWX_EPOCH.DRAIN_SLOTS d) (min took 65535)
  s.drainRefresh d

/-! ## Flushing and discarding -/

/-- Count a packet discarded at an output (R134, R144, R145). -/
def Ctl.countFlush (s : Ctl) (o : Nat) (p : Pkt) : Ctl :=
  (s.inc (SWX_FLUSH.PACKETS o) 1).inc (SWX_FLUSH.UNITS o) p.units

/-- A credited virtual channel (R103, R142). -/
def credited (v : Nat) : Bool := !schedVc v

/-- Return the credits of a packet that came by a link (R142). -/
def Ctl.returnCredit (s : Ctl) (inp : Nat) (p : Pkt) : Ctl :=
  if inp < 48 ∧ credited p.vc then
    s.modLink inp (fun l =>
      let r := (l.returned ++ List.replicate 8 0).take 8
      { l with returned := r.set p.vc ((r.getD p.vc 0 + p.units) % 65536) })
  else s

/-- Refuse a packet at an ingress check: only a tracked request is answered (R125). -/
def Ctl.refuseIn (s : Ctl) (x : InPkt) (code : Nat) : Ctl :=
  let s := s.returnCredit x.inp x.pkt
  if x.pkt.isRequest then s.nack 128 x code else s

/-- Discard a header at a link (R93, R95, R99, R102). -/
def Ctl.hdrBad (s : Ctl) (l : Nat) (p : Pkt) : Ctl :=
  (s.sat (LNK_SCREEN.HDR_BAD l) 1).raise Src.HDR_BAD { link := some l, port := some l }
    (s.rdWord (LNK_STATUS.addr l)) p.w0 p.w1

/-! ## Destination resolution (R126) -/

inductive Dest where
  /-- Meridian logic of the ingress link -/
  | sync
  /-- link egress, by lookup -/
  | egress (l : Nat)
  /-- egresses of a schedule entry -/
  | sched (mask : Nat)
  /-- hop-local egress fixed by the forming agent (R452) -/
  | via (l : Nat)
  | slice (n : Nat)
  | control
  /-- no destination, with the code of the NACK -/
  | no (code : Nat)
  /-- the routing-table word fails parity (R148) -/
  | parity (addr : Nat)
deriving DecidableEq, Repr

/-- The egress that a device-table word gives (R126 step 4, R115). -/
def Ctl.egressOf (s : Ctl) (p : Pkt) (w : Nat) : Dest :=
  let prim := nfld w 0 6
  let alt := nfld w 8 6
  if !nbit w 14 then .no St.NOT_FOUND
  else
    let (a, b) := if p.reissue ∧ p.srcDev = s.devNum then (alt, prim) else (prim, alt)
    if s.linkUp a then .egress a else if s.linkUp b then .egress b
    else if a < 48 ∨ b < 48 then .no St.LINK_LOST else .no St.NOT_FOUND

/-- Resolve the destination of a packet that passed checks 1 to 5; `bank` is none for VC6. -/
def Ctl.resolve (s : Ctl) (x : InPkt) (bank : Option Nat) : Dest :=
  let p := x.pkt
  if p.typ = Typ.SYNC ∧ x.inp < 48 then .sync
  else if !p.hopLocal ∧ 48 ≤ x.inp ∧ x.inp < 112 ∧ x.mask.isSome then .sched (x.mask.getD 0)
  else if p.hopLocal ∧ 48 ≤ x.inp then
    (match x.mask with
     | some m => .via (Nat.log2 m)
     | none => .no St.NOT_FOUND)
  else if p.hopLocal ∨ p.dstDev = s.devNum then
    if p.dstPort < 48 then (if s.linkUp p.dstPort then .egress p.dstPort else .no St.LINK_LOST)
    else if 64 ≤ p.dstPort ∧ p.dstPort < 128 then .slice (p.dstPort - 64)
    else if p.dstPort = 128 then .control
    else .no St.NOT_FOUND
  else
    let a := match bank with
      | none => mgmtEntryAddr p.dstDev
      | some k => devEntryAddr p.domain k p.dstDev
    if s.sw.badParity.contains a then .parity a else s.egressOf p (s.rdWord a)

/-! ## Admission -/

/-- Units of an output's area for a VC that the switch ports share (Table SWX-6). -/
def sharedArea (v : Nat) : Nat := match v with | 2 => 384 | 3 => 128 | 4 => 128 | 5 => 1 | _ => 240

/-- Units a switch port's or the control-die port's packets of a VC class hold in an output. -/
def OutSt.sharedUse (o : OutSt) (v inp : Nat) : Nat :=
  let cls (w : Nat) : Bool := if schedVc v || v = 5 then w = v else !schedVc w && w != 5
  let sel (x : OutPkt) : Bool := decide (48 ≤ x.inp) && cls x.pkt.vc && (v != 5 || x.inp = inp)
  (((o.q ++ o.cur.toList ++ o.zcur.toList).filter sel).map (fun x => x.pkt.units)).foldl (· + ·) 0

/-- The output's area for the packet's VC has room (R141, R142): a link ingress always finds its
reservation, a switch port shares. A packet larger than an empty area enters it alone. -/
def Ctl.hasRoom (s : Ctl) (o : Nat) (p : Pkt) (inp : Nat) : Bool :=
  if inp < 48 then true
  else
    let u := (s.outSt o).sharedUse p.vc inp
    decide (u + p.units ≤ sharedArea p.vc) || u = 0

/-- Put a packet in an output buffer. -/
def Ctl.enqueue (s : Ctl) (o : Nat) (x : InPkt) (p : Pkt) : Ctl :=
  let q := s.outSt o
  (s.setOut o { q with q := q.q ++ [{ pkt := p.seal, inp := x.inp, slotIn := s.slots, chkOk := x.chkOk }] }).drainRefresh
    p.domain

/-- The ring and dateline rules for one egress (R138): the VC to leave with, or none. -/
def Ctl.ringVc (s : Ctl) (d bank l vc : Nat) : Option Nat :=
  if vc = 3 ∨ vc = 4 then
    let w := s.linkEntry d bank l
    if !nbit w 1 then none
    else if nbit w 4 then (if vc = 3 then some 4 else none)
    else some vc
  else some vc

def Ctl.ringBad (s : Ctl) (x : InPkt) : Ctl :=
  let s := s.sat SWX_DISCARD.RING 1
  let s := s.raise Src.RING_VC { domain := some x.pkt.domain, port := some x.inp } x.pkt.w0 x.pkt.w1
  s.refuseIn x St.BAD_PARAM

/-- The addressing that a link's table entry gives a scheduled packet (R127). -/
def addressFor (w : Nat) (p : Pkt) : Pkt :=
  if nbit w 28 then { p with hopLocal := true, dstDev := 0, dstPort := 64 + p.opTag / 512 }
  else { p with hopLocal := false, dstDev := nfld w 8 12, dstPort := nfld w 20 8 }

/-- Offer one copy of a scheduled packet to a link egress: discarded at crossbar entry while the link
is not UP, drains, or may carry no scheduled traffic (R144, R297, R304, R361). -/
def Ctl.admitSched (s : Ctl) (x : InPkt) (bank l : Nat) : Ctl :=
  let p := addressFor (s.linkEntry x.pkt.domain bank l) x.pkt
  match s.ringVc p.domain bank l p.vc with
  | none => s.ringBad x
  | some v =>
    let p := { p with vc := v }
    let stopped := schedVc v && ((s.link l).resvOver || s.bit FLT_STATUS.ORDERLY)
    if !s.linkUp l || stopped || s.inSafe then s.countFlush l p
    else s.enqueue l x p

/-- Deliver a packet to a slice or the control dies, or discard it where the slice is not ON (R145). -/
def Ctl.deliver (s : Ctl) (e : Nat) (x : InPkt) : Ctl :=
  let s := if x.pkt.typ = Typ.ZENITH ∧ x.inp < 48 then s else s.returnCredit x.inp x.pkt
  s.setRxQ e (s.rxQ e ++ [x])

def Ctl.sliceOn (s : Ctl) (n : Nat) : Bool := s.rd (SLC_STATE.LIFECYCLE n) == 2

def Ctl.toSlice (s : Ctl) (n : Nat) (x : InPkt) : Ctl :=
  if s.sliceOn n then s.deliver n x
  else
    let s := s.countFlush (48 + n) x.pkt
    let s := { s with sw := { s.sw with zenithOpen := s.sw.zenithOpen.filter (fun k => k != (x.pkt.srcDev, x.pkt.srcPort) || x.pkt.typ != Typ.ZENITH) } }
    s.refuseIn x St.NOT_FOUND

/-- Unroutable (R126). -/
def Ctl.unroutable (s : Ctl) (x : InPkt) (code : Nat) : Ctl :=
  let s := s.sat SWX_DISCARD.UNROUTABLE 1
  let s := s.raise Src.UNROUTABLE { domain := some x.pkt.domain, port := some x.inp } x.pkt.w0 x.pkt.w1
  s.refuseIn x code

/-- Routing-table parity (R148): the bank's VALID clears. -/
def Ctl.parityBad (s : Ctl) (x : InPkt) (a : Nat) : Ctl :=
  let s := if a < 0x0580_0000 then
      let d := (a - 0x0500_0000) / 0x2_0000
      let k := (a - 0x0500_0000) % 0x2_0000 / 0x1_0000
      let s := s.wr (if k = 0 then MER_PHASE.VALID_A d else MER_PHASE.VALID_B d) 0
      s.raise Src.ROUTE_PARITY { domain := some d, port := some x.inp } x.pkt.w0 x.pkt.w1
    else s.raise Src.ROUTE_PARITY { port := some x.inp } x.pkt.w0 x.pkt.w1
  let s := s.sat SWX_DISCARD.UNROUTABLE 1
  s.refuseIn x St.NOT_FOUND

/-- An unscheduled packet leaves a slice within its quota of units per slot, or waits (R307). -/
def Ctl.overQuota (s : Ctl) (x : InPkt) : Bool :=
  if 48 ≤ x.inp ∧ x.inp < 112 then
    let cap := s.rd (SLC_QUOTA.TX_UNITS (x.inp - 48))
    let used := tblGet (fun _ => 0) s.sw.txUsed (x.inp - 48)
    decide (0 < cap ∧ 0 < used ∧ cap < used + x.pkt.units)
  else false

def Ctl.useQuota (s : Ctl) (x : InPkt) : Ctl :=
  if 48 ≤ x.inp ∧ x.inp < 112 then
    let k := x.inp - 48
    { s with sw := { s.sw with txUsed := tblPut (fun _ => 0) s.sw.txUsed k (tblGet (fun _ => 0) s.sw.txUsed k + x.pkt.units) } }
  else s

/-- A packet's source is a switch port or the control-die port and its output has no room, or its
slice's quota is used up: it stays at its input (R142, R307). -/
def Ctl.mustWait (s : Ctl) (x : InPkt) (dst : Dest) : Bool :=
  match dst with
  | .egress l => !s.hasRoom l x.pkt x.inp || (!schedVc x.pkt.vc && s.overQuota x)
  | .via l => s.linkUp l && !s.hasRoom l x.pkt x.inp
  | .sched m => (!schedVc x.pkt.vc && s.overQuota x) || (bitsOf 48 m).any (fun l => s.linkUp l && !s.hasRoom l x.pkt x.inp)
  | _ => false

/-- Note the first hop of an open transaction's request (R114, R115). -/
def Ctl.noteHop (s : Ctl) (l : Nat) (p : Pkt) : Ctl :=
  let is (t : Txn) : Bool := t.req.srcPort = p.srcPort && t.req.stream = p.stream && t.req.alive = p.alive
  let us := max 8 (s.rd (LNK_REPLAY_CFG.E2E_TIMEOUT l))
  if p.srcDev = s.devNum ∧ p.isRequest then
    { s with net := { s.net with txns := updFirst is (fun t => { t with hop := some l, timer := us }) s.net.txns } }
  else s

/-- Check 7 and admission of a packet with a link egress found by lookup. -/
def Ctl.admitEgress (s : Ctl) (x : InPkt) (bank : Option Nat) (l : Nat) : Ctl :=
  let p := x.pkt
  if schedVc p.vc ∧ x.inp < 48 then
    let s := s.sat SWX_DISCARD.SCHED_TRANSIT 1
    let s := s.raise Src.SCHED_TRANSIT { domain := some p.domain, port := some x.inp } p.w0 p.w1
    s.refuseIn x St.BAD_PARAM
  else if p.typ = Typ.ZENITH ∧ x.inp < 48 then s.unroutable x St.NOT_FOUND
  else
    match s.ringVc p.domain (bank.getD 0) l p.vc with
    | none => s.ringBad x
    | some v => ((s.useQuota x).noteHop l p).enqueue l x { p with vc := v }

/-- Zenith admission at a switch port (R146). -/
def Ctl.admitZenith (s : Ctl) (n : Nat) (x : InPkt) : Ctl :=
  let k := (x.pkt.srcDev, x.pkt.srcPort)
  if s.sw.zenithOpen.contains k then
    let s := s.sat SWX_ZENITH.BUSY 1
    let s := s.raise Src.ZENITH_BUSY { domain := some x.pkt.domain, port := some x.inp } x.pkt.w0 x.pkt.w1
    (s.returnCredit x.inp x.pkt).nack 128 x St.BUSY
  else ({ s with sw := { s.sw with zenithOpen := k :: s.sw.zenithOpen } }).toSlice n x

/-- A SYNC packet goes to the Meridian logic (R126 step 1). -/
def Ctl.pushSync (s : Ctl) (x : InPkt) : Ctl := { s with mer := { s.mer with rx := s.mer.rx ++ [x] } }

/-- Route a packet that has passed checks 1 to 5. -/
def Ctl.route (s : Ctl) (x : InPkt) (bank : Option Nat) (dst : Dest) : Ctl :=
  match dst with
  | .sync => (s.returnCredit x.inp x.pkt).pushSync x
  | .sched m =>
    let s := if schedVc x.pkt.vc then s else s.useQuota x
    (bitsOf 48 m).foldl (fun s l => s.admitSched x (bank.getD 0) l) s
  | .via l => if s.linkUp l then s.enqueue l x x.pkt else s.countFlush l x.pkt
  | .egress l => s.admitEgress x bank l
  | .slice n => if x.pkt.typ = Typ.ZENITH ∧ x.inp < 48 then s.admitZenith n x else s.toSlice n x
  | .control => s.deliver 64 x
  | .no code => s.unroutable x code
  | .parity a => s.parityBad x a

/-- Before SWX_CTRL.GO the core passes only SYNC and hop-local VC6 packets, to and from the control
dies (R149). -/
def Ctl.goPass (s : Ctl) (x : InPkt) : Bool :=
  s.sw.go || x.pkt.typ = Typ.SYNC ||
    (x.pkt.vc = 6 && x.pkt.hopLocal && (x.inp = 112 || (x.inp < 48 && x.pkt.dstPort = 128)))

/-- SYNC and VC6 packets are exempt from checks 4 and 5. -/
def Pkt.exempt (p : Pkt) : Bool := p.typ = Typ.SYNC || p.vc = 6

/-- Checks 4 and 5 as far as they stamp the packet: DOMAIN and source at a switch port (R306), EPOCH
at a switch port, the control-die port and an edge link (R131). -/
def Ctl.stampPkt (s : Ctl) (x : InPkt) : InPkt :=
  let p := x.pkt
  let p := if 48 ≤ x.inp ∧ x.inp < 112 then
      { p with domain := s.rd (SLC_DOMAIN.DOMAIN (x.inp - 48)), srcDev := s.devNum, srcPort := x.inp + 16 }
    else p
  let edge := x.inp < 48 ∧ s.rd (LNK_CTRL.ROLE x.inp) = 1
  let p := if p.exempt then p else if 48 ≤ x.inp ∨ edge then { p with epoch := s.epoch p.domain } else p
  { x with pkt := p.seal }

/-- Address of word `w` of live descriptor `i` of slice `n` (R183). -/
def liveDescAddr (n i w : Nat) : Nat := 0x0600_0000 + n * 0x2_0000 + 0x1_0000 + i * 0x40 + w * 8

/-- A descriptor is OPEN. -/
def Ctl.descOpen (s : Ctl) (n i : Nat) : Bool := s.rd (COL_DESC_STATUS.STATE n i) == 1

/-- TICKET[24:16] of a scheduled contribution, written at an edge-link ingress from the descriptor
open at its OP_TAG, 0 where none is open (R157). -/
def Ctl.edgeTicket (s : Ctl) (x : InPkt) : InPkt :=
  if x.inp < 48 ∧ s.rd (LNK_CTRL.ROLE x.inp) = 1 ∧ x.pkt.typ = Typ.CONTRIB ∧ x.pkt.vc = 2 then
    let n := x.pkt.opTag / 512
    let i := x.pkt.opTag % 512
    let hi := if s.descOpen n i then nfld (s.rdWord (liveDescAddr n i 7)) 16 9 else 0
    { x with pkt := ({ x.pkt with ticket := x.pkt.ticket % 2 ^ 16 + hi * 2 ^ 16 + x.pkt.ticket / 2 ^ 25 * 2 ^ 25 }).seal }
  else x

/-- The ingress checks of Table SWX-1 on the packet at the head of an input, and its admission. -/
def Ctl.ingress (s : Ctl) (inp : Nat) : Ctl :=
  match s.inQ inp with
  | [] => s
  | x :: rest =>
    let x := { x with inp := inp }
    let take := s.setInQ inp rest
    if !s.goPass x then take.returnCredit inp x.pkt
    else if inp < 48 ∧ (x.pkt.hdrCheck ≠ crc16 x.pkt.hdrBytes ∨ !typeOk x.pkt ∨ x.pkt.chkSel = 3) then
      (take.hdrBad inp x.pkt).returnCredit inp x.pkt
    else if inp < 48 ∧ s.rd (LNK_CTRL.ROLE inp) = 1 ∧ (x.pkt.srcDev ≠ s.devNum ∨ x.pkt.srcPort ≠ inp) then
      (take.hdrBad inp x.pkt).returnCredit inp x.pkt
    else
      let x := s.edgeTicket (s.stampPkt x)
      let p := x.pkt
      if inp < 48 ∧ !p.exempt ∧ (s.rd (DOM_STATE.STATE p.domain) = 0 ∨ !nbit (s.rd (DOM_LINKS.LINKS p.domain)) inp) then
        let s := take.sat SWX_DISCARD.DOMAIN 1
        let s := s.raise Src.DOMAIN_VIOLATION { domain := some p.domain, port := some inp, link := some inp } p.w0 p.w1
        s.refuseIn x St.DENIED
      else
        let bank := if p.exempt then some none else (s.bankFor p.domain p.epoch).map some
        match bank with
        | none =>
          let s := take.sat (SWX_EPOCH.MISMATCH p.domain) 1
          let s := s.raiseOnce Src.EPOCH_MISMATCH p.domain { domain := some p.domain, port := some inp } p.w0 p.w1
          s.refuseIn x St.DENIED
        | some b =>
          let dst := s.resolve x b
          if s.mustWait x dst then s else take.route x b dst

/-! ## Output arbitration (R139, R140) -/

/-- The next hop's credits cover a packet on a credited VC (R103). -/
def Ctl.hasCredit (s : Ctl) (l : Nat) (p : Pkt) : Bool :=
  !credited p.vc || decide (p.units ≤ ((s.link l).credits.getD p.vc 0))

/-- The head of a VC's queue in an output. -/
def OutSt.head (o : OutSt) (v : Nat) : Option OutPkt := o.q.find? (fun x => x.pkt.vc = v)

def Ctl.inSlotPkt (s : Ctl) (x : OutPkt) : Bool := schedVc x.pkt.vc && decide (s.slots ≤ x.slotIn + 1)

/-- The oldest in-slot scheduled packet, ties by the lowest input. -/
def Ctl.inSlotPick (s : Ctl) (o : OutSt) : Option OutPkt :=
  (o.q.filter s.inSlotPkt).foldl (fun best x =>
    match best with
    | none => some x
    | some y => if x.slotIn < y.slotIn ∨ (x.slotIn = y.slotIn ∧ x.inp < y.inp) then some x else some y) none

/-- Take the first packet equal to one out of a buffer. -/
def OutSt.take (o : OutSt) (x : OutPkt) : OutSt := { o with q := dropFirst (fun y => y = x) o.q }

/-- The eligible head of a VC for the weighted class. -/
def Ctl.eligible (s : Ctl) (l : Nat) (o : OutSt) (v : Nat) : Option OutPkt :=
  match o.head v with
  | none => none
  | some x => if s.inSlotPkt x then none else if s.hasCredit l x.pkt then some x else none

/-- The round order of R140. -/
def nextVc (v : Nat) : Nat := match v with | 4 => 6 | 7 => 0 | _ => v + 1

/-- Deficit round robin (R140), at most `n` visits. -/
def Ctl.drr (s : Ctl) (l : Nat) : Nat → OutSt → OutSt
  | 0, o => o
  | n + 1, o =>
    let v := o.ptr
    let w := s.rd (SWX_VC_WEIGHT.WEIGHT v)
    let df := o.deficit.getD v 0
    match s.eligible l o v with
    | none => s.drr l n { o with deficit := o.deficit.set v 0, ptr := nextVc v }
    | some x =>
      if w = 0 then s.drr l n { o with ptr := nextVc v }
      else if x.pkt.size ≤ df then { o.take x with deficit := o.deficit.set v (df - x.pkt.size), cur := some x }
      else
        let df := df + w * 32
        if x.pkt.size ≤ df then { o.take x with deficit := o.deficit.set v (df - x.pkt.size), cur := some x }
        else s.drr l n { o with deficit := o.deficit.set v df, ptr := nextVc v }

/-- The choice an output makes at a packet boundary. -/
def Ctl.arbitrate (s : Ctl) (l : Nat) (o : OutSt) : OutSt :=
  let o := match o.zcur with
    | some _ => o
    | none =>
      match o.head 5 with
      | some z => if s.hasCredit l z.pkt then { o.take z with zcur := some z } else o
      | none => o
  match o.cur with
  | some _ => o
  | none =>
    match s.inSlotPick o with
    | some x => { o.take x with cur := some x }
    | none =>
      let el := [0, 1, 2, 3, 4, 6, 7].filter (fun v => (s.eligible l o v).isSome)
      if el.isEmpty then o
      else if el.all (fun v => s.rd (SWX_VC_WEIGHT.WEIGHT v) = 0) then
        (match s.eligible l o (listMin 0 el) with
         | some x => { o.take x with cur := some x }
         | none => o)
      else s.drr l 4096 o

/-! ## Egress (R123, R337, R141) -/

/-- Deduct the next hop's credits as the header starts (R103). -/
def Ctl.deductCredit (s : Ctl) (l : Nat) (p : Pkt) : Ctl :=
  if credited p.vc then
    s.modLink l (fun k => { k with credits := k.credits.set p.vc (k.credits.getD p.vc 0 - p.units) })
  else s

/-- A packet leaves on a link: the egress check (R337), the buffer error (R141), credits, the drain
count, and one block of the link's stream that carries it (log entry 8). -/
def Ctl.sendOut (s : Ctl) (l : Nat) (x : OutPkt) (err : MemErr) : Ctl :=
  let p := x.pkt
  let s := match err with
    | .good => s
    | .ce => s.raise Src.OBUF_CE { domain := some p.domain, port := some l } p.w0 p.w1
    | .ue => s.raise Src.OBUF_UE { domain := some p.domain, port := some l } p.w0 p.w1
  let bad := !p.poison && x.chkOk && !p.chkGood
  let s := if bad then
      (s.sat FLT_CHK_COUNT.INTERNAL 1).raise Src.CHK_INTERNAL { domain := some p.domain, port := some l } p.w0 p.w1
    else s
  let p := { p with poison := p.poison || bad || err = .ue || !x.chkOk }
  let s := s.deductCredit l p
  let s := s.returnCredit x.inp p
  let k := s.link l
  let s := s.setLink l { k with stored := k.stored ++ [{ bseq := k.txBseq, pkts := [p] }], txBseq := (k.txBseq + 1) % 65536 }
  (s.emit (.packet l p)).drainRefresh p.domain

/-- The replay buffer holds 128 blocks (R107). -/
def Ctl.replayFull (s : Ctl) (l : Nat) : Bool := decide (128 ≤ (s.link l).stored.length)

/-- The egress starts the Zenith flit, else the packet that arbitration chose. -/
def Ctl.egressStart (s : Ctl) (l : Nat) (err : MemErr) : Ctl :=
  if !s.bit (LNK_STATUS.UP l) || s.replayFull l then s
  else
    let o := s.outSt l
    match o.zcur with
    | some z => (s.setOut l { o with zcur := none }).sendOut l z err
    | none =>
      match o.cur with
      | some x => (s.setOut l { o with cur := none }).sendOut l x err
      | none => s

/-! ## Port down (R144) -/

/-- Discard every packet queued for a link, and count them. -/
def Ctl.flushOutput (s : Ctl) (l : Nat) : Ctl :=
  let o := s.outSt l
  let all := o.q ++ o.cur.toList ++ o.zcur.toList
  let s := s.setOut l {}
  let s := all.foldl (fun s x => (s.countFlush l x.pkt).returnCredit x.inp x.pkt) s
  let s := (all.map (fun x => x.pkt.domain)).foldl Ctl.drainRefresh s
  s.raise Src.PORT_FLUSH { port := some l, link := some l }

/-! ## The commands -/

/-- PACKET_INGRESS (R125). -/
def execPacketIngress (inp : Fin 113) (s : State) : Host.Outcome State Fault Refusal :=
  s.ctlNext (fun c => c.ingress inp.val)

/-- OUTPUT_ARBITRATION (R139). -/
def execOutputArbitration (l : Fin 48) (s : State) : Host.Outcome State Fault Refusal :=
  s.ctlNext (fun c => c.setOut l.val (c.arbitrate l.val (c.outSt l.val)))

/-- EGRESS_START (R123). -/
def execEgressStart (l : Fin 48) (err : MemErr) (s : State) : Host.Outcome State Fault Refusal :=
  s.ctlNext (fun c => c.egressStart l.val err)

/-- Draining of domain `d` may end: its hold has passed and its count is zero (R133). -/
def Ctl.drainDue (s : Ctl) (d : Nat) : Bool :=
  s.bit (SWX_EPOCH.DRAINING d) && s.holdPassed d && s.heldOf d ((s.epoch d + 7) % 8) == 0

/-- DRAIN_END (R133). -/
def execDrainEnd (d : Fin 64) (s : State) : Host.Outcome State Fault Refusal :=
  s.ctlNext (fun c => if c.drainDue d.val then c.drainFinish d.val else c)

/-- Discard the packets of an epoch still held in the outputs; one whose egress has been chosen goes
out poisoned (R134). -/
def Ctl.dropEpoch (s : Ctl) (d e : Nat) : Ctl :=
  let own (p : Pkt) : Bool := p.domain = d && p.epoch = e && p.vc != 6
  s.sw.out.foldl (fun s o =>
    let st := s.outSt o.1
    let gone := st.q.filter (fun x => own x.pkt)
    let st := { st with q := st.q.filter (fun x => !own x.pkt),
                        cur := st.cur.map (fun x => if own x.pkt then { x with chkOk := false } else x) }
    gone.foldl (fun s x => (s.countFlush o.1 x.pkt).returnCredit x.inp x.pkt) (s.setOut o.1 st)) s

/-- DRAIN_STUCK at DRAIN_LIMIT (R134); written limits below 16 read as 16. -/
def Ctl.drainStuck (s : Ctl) (d : Nat) : Ctl :=
  let lim := max 16 (s.rd SWX_CTRL.DRAIN_LIMIT)
  if s.bit (SWX_EPOCH.DRAINING d) ∧ tblGet (fun _ => 0) s.sw.drainFrom d + lim ≤ s.slots ∧ !s.drainDue d then
    let s := s.dropEpoch d ((s.epoch d + 7) % 8)
    (s.raise Src.DRAIN_STUCK { domain := some d }).drainFinish d
  else s

/-- DRAIN_STUCK (R134). -/
def execDrainStuck (d : Fin 64) (s : State) : Host.Outcome State Fault Refusal :=
  s.ctlNext (fun c => c.drainStuck d.val)

end Sys2Proof.Machine
end

