-- ==== Sys2Proof/Machine/Transport.lean ====
section
/-!
DEFINITION. End-to-end transport (R109-R116): the alive screen of an endpoint, its reply cache, and
the transactions it holds, with their re-issue on a lost link.
-/

namespace Sys2Proof.Machine

/-- Port number of an endpoint: slice n at 64 + n, the control dies (64) at 128. -/
def epPort (e : Nat) : Nat := e + 64

/-- The switch input by which an endpoint sends (R122). -/
def epInput (e : Nat) : Nat := if e < 64 then 48 + e else 112

/-- Raise a link protocol source with LNK_STATUS as its detail (Table FLT-9, sources 448-455). -/
def Ctl.raiseLink (s : Ctl) (src l : Nat) : Ctl :=
  s.raise src { link := some l, port := some l } (s.rdWord (LNK_STATUS.addr l))

/-- The subject of a screening fault: the endpoint's port, and the link the packet came by (R120). -/
def screenSubj (e : Nat) (x : InPkt) : Subj :=
  { port := some (epPort e), link := if x.inp < 48 then some x.inp else none }

/-- A count of LNK_SCREEN for a packet that entered the device on a link (R121). -/
def Ctl.screenCount (s : Ctl) (x : InPkt) (f : Nat → FRef) (k : Nat) : Ctl :=
  if x.inp < 48 then s.sat (f x.inp) k else s

/-! ## The alive screen (R110-R112) -/

inductive AliveClass where
  | untracked | fresh | late | duplicate | inProgress | stale | noEntry
deriving DecidableEq, Repr

/-- The packet may have an effect. -/
def AliveClass.accepted : AliveClass → Bool
  | .untracked | .fresh | .late => true
  | _ => false

def AliveEnt.is (p : Pkt) (a : AliveEnt) : Bool := a.dev = p.srcDev && a.port = p.srcPort && a.stream = p.stream

def Ctl.aliveOf (s : Ctl) (e : Nat) : List AliveEnt := tblGet (fun _ => []) s.net.alive e
def Ctl.setAlive (s : Ctl) (e : Nat) (l : List AliveEnt) : Ctl :=
  { s with net := { s.net with alive := tblPut (fun _ => []) s.net.alive e l } }

/-- Entries that an endpoint keeps (R110). -/
def aliveCap (e : Nat) : Nat := if e < 64 then 4096 else 1024

/-- The values that leave the window unseen when H moves by `d` (R111). -/
def AliveEnt.lostBy (a : AliveEnt) (d : Nat) : Nat :=
  let from_ := 4096 - min d 4096
  let to_ := min a.adv 4096
  (((List.range (to_ - from_)).map (fun i => from_ + i)).filter (fun i => !nbit a.seen i)).length + (d - 4096)

/-- H moves by `d`, and the window with it. -/
def AliveEnt.move (a : AliveEnt) (d : Nat) : AliveEnt :=
  { a with h := (a.h + d) % 65536, seen := low 4096 (a.seen <<< d), prog := low 4096 (a.prog <<< d),
           adv := min 65536 (a.adv + d) }

/-- Class of a value against an entry (Table LNK-9), by delta = (a - H) mod 65,536. -/
def AliveEnt.classify (a : AliveEnt) (alive : Nat) : AliveClass :=
  let delta := (alive + 65536 - a.h % 65536) % 65536
  let back := (65536 - delta) % 65536
  if 1 ≤ delta ∧ delta ≤ 32767 then .fresh
  else if back ≤ 4095 then
    (if nbit a.seen back then .duplicate else if nbit a.prog back then .inProgress else .late)
  else .stale

/-- Screen a packet at its endpoint, at the header (R111, R112). -/
def Ctl.screen (s : Ctl) (e : Nat) (x : InPkt) : AliveClass × Ctl :=
  let p := x.pkt
  if p.stream = 0 then (.untracked, s)
  else
    let l := s.aliveOf e
    match l.find? (AliveEnt.is p) with
    | none =>
      if aliveCap e ≤ l.length then (.noEntry, s.nack (epPort e) x St.NO_SLOT)
      else
        let a : AliveEnt := { dev := p.srcDev, port := p.srcPort, stream := p.stream,
                              h := (p.alive + 65535) % 65536, last := s.slots }
        let a := a.move 1
        (.fresh, s.setAlive e (l ++ [{ a with prog := 1 }]))
    | some a =>
      let c := a.classify p.alive
      let s := s.setAlive e (updFirst (AliveEnt.is p) (fun a => { a with last := s.slots }) l)
      let l := s.aliveOf e
      match c with
      | .fresh =>
        let d := (p.alive + 65536 - a.h % 65536) % 65536
        let lost := a.lostBy d
        let s := s.setAlive e (updFirst (AliveEnt.is p) (fun a => let b := a.move d; { b with prog := b.prog ||| 1 }) l)
        let s := s.screenCount x LNK_SCREEN.LOST lost
        (.fresh, if lost = 0 then s else
          s.raiseOnce Src.ALIVE_LOST e (screenSubj e x) (if x.inp < 48 then s.rdWord (LNK_STATUS.addr x.inp) else 0) p.w0)
      | .late =>
        let i := (a.h + 65536 - p.alive % 65536) % 65536
        (.late, s.setAlive e (updFirst (AliveEnt.is p) (fun a => { a with prog := a.prog ||| (1 <<< i) }) l))
      | .duplicate | .inProgress => (c, s.screenCount x LNK_SCREEN.DUPLICATE 1)
      | .stale =>
        let s := s.screenCount x LNK_SCREEN.STALE 1
        let s := s.raise Src.ALIVE_STALE (screenSubj e x) (if x.inp < 48 then s.rdWord (LNK_STATUS.addr x.inp) else 0) p.w0 p.w1
        (.stale, if p.isRequest then s.nack (epPort e) x St.STALE else s)
      | c => (c, s)

/-- The tail of an accepted packet: good sets the seen bit, else a re-send is accepted (R112). -/
def Ctl.tailDone (s : Ctl) (e : Nat) (p : Pkt) (good : Bool) : Ctl :=
  if p.stream = 0 then s
  else
    s.setAlive e (updFirst (AliveEnt.is p) (fun a =>
      let i := (a.h + 65536 - p.alive % 65536) % 65536
      let bit : Nat := 1 <<< i
      { a with prog := a.prog ^^^ (a.prog &&& bit), seen := if good then a.seen ||| bit else a.seen }) (s.aliveOf e))

/-- Free a stream entry (R110, R389). -/
def Ctl.dropAlive (s : Ctl) (e : Nat) (p : AliveEnt → Bool) : Ctl :=
  s.setAlive e ((s.aliveOf e).filter (fun a => !p a))

/-! ## The reply cache (R113) -/

def Ctl.cacheOf (s : Ctl) (e : Nat) : List CachedReply := tblGet (fun _ => []) s.net.cache e

/-- Keep a reply among the last 256 of a slice. -/
def Ctl.cacheReply (s : Ctl) (e : Nat) (req rsp : Pkt) : Ctl :=
  if e < 64 ∧ req.stream ≠ 0 then
    let c : CachedReply := { dev := req.srcDev, port := req.srcPort, stream := req.stream, alive := req.alive, rsp := rsp }
    let l := s.cacheOf e ++ [c]
    { s with net := { s.net with cache := tblPut (fun _ => []) s.net.cache e (l.drop (l.length - 256)) } }
  else s

/-- Send a reply from an endpoint, and keep it. -/
def Ctl.answer (s : Ctl) (e : Nat) (x : InPkt) (rsp : Pkt) : Ctl :=
  let (p, m) := s.replyTo (epPort e) x rsp
  (s.offer (epInput e) p m).cacheReply e x.pkt p

/-- Answer a duplicate request (R113): from the cache, or that it is cached no longer. A duplicate of
a request still in progress waits for the original's reply. -/
def Ctl.answerDup (s : Ctl) (e : Nat) (x : InPkt) (c : AliveClass) : Ctl :=
  if !x.pkt.isRequest || c = .inProgress then s
  else
    match (s.cacheOf e).find? (fun r => r.dev = x.pkt.srcDev && r.port = x.pkt.srcPort && r.stream = x.pkt.stream && r.alive = x.pkt.alive) with
    | some r => s.offer (epInput e) r.rsp (if r.rsp.hopLocal ∧ x.inp < 48 then some (1 <<< x.inp) else none)
    | none => s.nack (epPort e) x St.DUPLICATE

/-! ## Transactions (R114-R116) -/

/-- The next ALIVE of a stream that an endpoint sends (R109). -/
def Ctl.takeAlive (s : Ctl) (e stream : Nat) : Nat × Ctl :=
  let k := e * 65536 + stream
  let a := tblGet (fun _ => 0) s.net.nextAlive k
  (a, { s with net := { s.net with nextAlive := tblPut (fun _ => 0) s.net.nextAlive k ((a + 1) % 65536) } })

/-- Open transactions that an endpoint may hold (R114, SLC_QUOTA.TXN_LIMIT). -/
def Ctl.txnLimit (s : Ctl) (e : Nat) : Nat :=
  let v := s.rd (SLC_QUOTA.TXN_LIMIT e)
  if v = 0 ∨ 1024 < v then 1024 else v

/-- A transaction completes: it leaves the open ones and its outcome waits for its issuer. -/
def Ctl.finishTxn (s : Ctl) (t : Txn) (code : Nat) (data : List Byte := []) : Ctl :=
  { s with net := { s.net with
      txns := dropFirst (fun u => u = t) s.net.txns,
      done := s.net.done ++ [{ ep := t.ep, req := t.req, code := code, data := data }] } }

/-- Send a tracked packet of an endpoint; a request opens a transaction, or completes at once with
NO_SLOT at the slice's limit. -/
def Ctl.issue (s : Ctl) (e : Nat) (p : Pkt) (mask : Option Nat := none) : Ctl :=
  let (a, s) := if p.stream = 0 then (0, s) else s.takeAlive e p.stream
  let p := ({ p with srcDev := s.devNum, srcPort := epPort e, alive := a } : Pkt).form
  if p.isRequest then
    let t : Txn := { ep := e, req := p }
    let n := (s.net.txns.filter (fun t => t.ep = e)).length
    if e < 64 ∧ s.txnLimit e ≤ n then
      { s with net := { s.net with done := s.net.done ++ [{ ep := e, req := p, code := St.NO_SLOT }] } }
    else ({ s with net := { s.net with txns := s.net.txns ++ [t] } }).offer (epInput e) p mask
  else s.offer (epInput e) p mask

/-- The alternate egress that the routing gives for a request's destination, while it is UP. -/
def Ctl.altEgress (s : Ctl) (p : Pkt) : Option Nat :=
  let w := s.rdWord (if p.vc = 6 then mgmtEntryAddr p.dstDev else devEntryAddr p.domain (s.liveBank p.domain) p.dstDev)
  let a := nfld w 8 6
  if nbit w 14 && s.linkUp a then some a else none

/-- A transaction whose path lost a link: one re-issue on the alternate egress, or LINK_LOST. -/
def Ctl.lostTxn (s : Ctl) (t : Txn) : Ctl :=
  if t.reissued ∨ (s.altEgress t.req).isNone then
    (s.finishTxn t St.LINK_LOST).raise Src.REISSUE_FAIL { port := some (epPort t.ep), link := t.hop }
      (match t.hop with | some l => s.rdWord (LNK_STATUS.addr l) | none => 0)
  else
    let p := { t.req with reissue := true }
    let s := { s with net := { s.net with txns := updFirst (fun u => u = t) (fun _ => { t with req := p.seal, hop := none, timer := 50, reissued := true }) s.net.txns } }
    s.offer (epInput t.ep) p

/-- The open transaction of an endpoint that a reply or a NACK names. -/
def Ctl.txnOf (s : Ctl) (e : Nat) (p : Pkt) : Option Txn :=
  s.net.txns.find? (fun t => t.ep = e && t.req.stream = p.stream && t.req.alive = p.alive && t.req.opTag = p.opTag)

/-- Every open transaction of an endpoint completes with a status, without re-issue (R302, R362). -/
def Ctl.endTxns (s : Ctl) (e code : Nat) : Ctl :=
  (s.net.txns.filter (fun t => t.ep = e)).foldl (fun s t => s.finishTxn t code) s

/-- A packet lost with a link: its holder is told (R108 step 4). The holder of a request is its
source and of a reply its destination. -/
def Ctl.noticeLost (s : Ctl) (p : Pkt) : Ctl :=
  let reply := p.typ = Typ.READ_RSP ∨ p.typ = Typ.MGMT_RSP
  if !(p.isRequest || reply) then s
  else
    let dev := if reply then p.dstDev else p.srcDev
    let port := if reply then p.dstPort else p.srcPort
    if !p.hopLocal ∧ dev = s.devNum ∧ 64 ≤ port ∧ port ≤ 128 then
      (match s.txnOf (port - 64) p with
       | some t => if t.reissued ∧ !p.reissue ∧ !reply then s else s.lostTxn t
       | none => s)
    else if p.hopLocal then s
    else
      s.offer 112 { (nackOf p St.LINK_LOST) with dstDev := dev, dstPort := port, srcDev := s.devNum, srcPort := 128 }

/-- STREAM_ENTRY_EXPIRY (R110). -/
def epIndex : Endpoint → Nat
  | .slice n => n.val
  | .control => 64

def execStreamEntryExpiry (ep : Endpoint) (key : StreamKey) (s : State) : Host.Outcome State Fault Refusal :=
  s.ctlNext (fun c => c.dropAlive (epIndex ep) (fun a =>
    a.dev = key.dev.toNat && a.port = key.port.toNat && a.stream = key.stream.toNat && c.elapsed a.last 65536))

/-- E2E_TIMEOUT (R114): transaction number `txn` of the endpoint's open ones. -/
def Ctl.e2eTimeout (s : Ctl) (e i : Nat) : Ctl :=
  match (s.net.txns.filter (fun t => t.ep = e))[i]? with
  | none => s
  | some t => (s.finishTxn t St.TIMEOUT).raise Src.E2E_TIMEOUT { port := some (epPort e), link := t.hop }
      (match t.hop with | some l => s.rdWord (LNK_STATUS.addr l) | none => 0)

def execE2eTimeout (ep : Endpoint) (txn : Nat) (s : State) : Host.Outcome State Fault Refusal :=
  s.ctlNext (fun c => c.e2eTimeout (epIndex ep) txn)

/-- A reply reaches its holder (R114): it completes the transaction, or is discarded and counted. -/
def Ctl.takeReply (s : Ctl) (e : Nat) (x : InPkt) : Ctl :=
  if x.pkt.poison || !x.pkt.chkGood then s
  else
    match s.txnOf e x.pkt with
    | some t => s.finishTxn t x.pkt.code x.pkt.payload
    | none => s.screenCount x LNK_SCREEN.DUPLICATE 1

/-- A NACK reaches the holder of the packet it refuses (R115, R116). -/
def Ctl.takeNack (s : Ctl) (e : Nat) (x : InPkt) : Ctl :=
  match s.txnOf e x.pkt with
  | none => s.screenCount x LNK_SCREEN.DUPLICATE 1
  | some t =>
    if x.pkt.code = St.LINK_LOST then
      (if t.reissued ∧ !x.pkt.reissue then s else s.lostTxn t)
    else s.finishTxn t x.pkt.code

/-- Take the packet at the head of an endpoint's receive queue if its type is one of a row's. -/
def Ctl.popRx (s : Ctl) (e typ : Nat) : Option (InPkt × Ctl) :=
  match s.rxQ e with
  | [] => none
  | x :: rest => if x.pkt.typ = typ then some (x, s.setRxQ e rest) else none

/-- READ_RSP (R114). -/
def execReadRsp (ep : Endpoint) (s : State) : Host.Outcome State Fault Refusal :=
  s.ctlNext (fun c => match c.popRx (epIndex ep) Typ.READ_RSP with | some (x, c) => c.takeReply (epIndex ep) x | none => c)

/-- MGMT_RSP (R114). -/
def execMgmtRsp (ep : Endpoint) (s : State) : Host.Outcome State Fault Refusal :=
  s.ctlNext (fun c => match c.popRx (epIndex ep) Typ.MGMT_RSP with | some (x, c) => c.takeReply (epIndex ep) x | none => c)

/-- NACK (R115). -/
def execNack (ep : Endpoint) (s : State) : Host.Outcome State Fault Refusal :=
  s.ctlNext (fun c => match c.popRx (epIndex ep) Typ.NACK with | some (x, c) => c.takeNack (epIndex ep) x | none => c)

end Sys2Proof.Machine
end

