-- ==== Sys2Proof/Machine/Meridian.lean ====
section
/-!
DEFINITION. The Meridian count and alignment (R32-R40): parent choice, SYNC exchanges, monitoring,
holdover, root conflict; and the state of domains' banks that other chapters read.
-/

namespace Sys2Proof.Machine

/-! ## Bank headers and per-domain Meridian state -/

def Ctl.bank (s : Ctl) (d k : Nat) : BankHdr := tblGet (fun _ => {}) s.banks (2 * d + k)
def Ctl.setBank (s : Ctl) (d k : Nat) (b : BankHdr) : Ctl :=
  { s with banks := tblPut (fun _ => {}) s.banks (2 * d + k) b }
def Ctl.domMer (s : Ctl) (d : Nat) : DomMer := tblGet (fun _ => {}) s.dom d
def Ctl.setDomMer (s : Ctl) (d : Nat) (x : DomMer) : Ctl := { s with dom := tblPut (fun _ => {}) s.dom d x }

/-- A domain is created on the device (R294). -/
def Ctl.created (s : Ctl) (d : Nat) : Bool := s.rd (DOM_STATE.STATE d) != 0

def Ctl.armed (s : Ctl) (d : Nat) : Bool := s.bit (MER_SWAP_STATUS.ARMED d)
def Ctl.bankValid (s : Ctl) (d k : Nat) : Bool := if k = 0 then s.bit (MER_PHASE.VALID_A d) else s.bit (MER_PHASE.VALID_B d)
def Ctl.setBankValid (s : Ctl) (d k : Nat) (b : Bool) : Ctl :=
  if k = 0 then s.wrB (MER_PHASE.VALID_A d) b else s.wrB (MER_PHASE.VALID_B d) b

/-- A bank is live, or armed to be. -/
def Ctl.bankInUse (s : Ctl) (d k : Nat) : Bool := s.created d && (s.liveBank d == k || s.armed d)

/-- A live or armed bank of some domain uses a link (R53). -/
def Ctl.linkInBanks (s : Ctl) (l : Nat) : Bool :=
  (List.range 64).any (fun d => (List.range 2).any (fun k => s.bankInUse d k && nbit (s.bank d k).linkUse l))

/-- The device is in twin operation: HANDSHAKE, PAIRED or RESILVER (R314). -/
def Ctl.twinOn (s : Ctl) : Bool := [1, 2, 5].contains (s.rd TWN_STATUS.PAIR)

def Ctl.isTwinLink (s : Ctl) (l : Nat) : Bool := s.rd TWN_CTRL.LINK0 = l || s.rd TWN_CTRL.LINK1 = l

/-- A link is held out of electrical idle (R53). -/
def Ctl.heldAwake (s : Ctl) (l : Nat) : Bool :=
  s.bit (LNK_CTRL.STAY_AWAKE l) || (s.twinOn && s.isTwinLink l)

/-! ## Time -/

def Ctl.syncState (s : Ctl) : Nat := s.rd MER_SYNC_STATUS.STATE
def Ctl.aligned (s : Ctl) : Bool := s.syncState == 2

/-- The device's count in units of 1/65,536 slot; before alignment its own slot count stands in. -/
def Ctl.clock (s : Ctl) : Nat :=
  (if s.mer.counting then s.now else s.slots) * 65536 + s.cyc * 65536 / max 1 s.slotCycles

/-- A full time from a 64-bit stamp and the upper bits of a count not before it (R36). -/
def fullTime (count stamp : Nat) : Nat :=
  let hi := count / 2 ^ 48
  let t := hi * 2 ^ 64 + stamp
  if count * 65536 + 65535 < t then t - 2 ^ 64 else t

/-- SYNC payload (Table MER-1). -/
def Ctl.syncPayload (s : Ctl) (kind t1 t2 t3 : Nat) : List Byte :=
  let w0 := kind + (s.rd MER_SYNC_STATUS.DEPTH) <<< 4 + (b2n s.aligned) <<< 9 + (b2n (s.bit MER_CTRL.ROOT)) <<< 10
  toBytes 8 w0 ++ toBytes 8 t1 ++ toBytes 8 t2 ++ toBytes 8 t3 ++ toBytes 8 (s.clock / 65536) ++ toBytes 8 0

/-- Send a SYNC packet on a link, hop-local on VC6. -/
def Ctl.sendSync (s : Ctl) (l kind t1 t2 t3 : Nat) : Ctl :=
  s.offer 112 { typ := Typ.SYNC, vc := 6, srcDev := s.devNum, srcPort := 128, dstPort := 128, hopLocal := true,
                isFirst := true, isLast := true, payload := s.syncPayload kind t1 t2 t3 } (some (1 <<< l))

/-- Announce on every UP link (R36). -/
def Ctl.announceAll (s : Ctl) : Ctl :=
  ((List.range 48).filter s.linkUp).foldl (fun s l => s.sendSync l 3 0 0 0) s

/-- Set DEPTH, and announce a change of it. -/
def Ctl.setDepth (s : Ctl) (d : Nat) : Ctl :=
  if s.rd MER_SYNC_STATUS.DEPTH = d then s
  else
    let s := s.wr MER_SYNC_STATUS.DEPTH d
    if s.aligned then s.announceAll else s

/-! ## Parents (R35, R37, R39) -/

/-- A candidate parent: an aligned neighbour on an UP link, the pinned one where PARENT_PIN names a
link. -/
def Ctl.parentCand (s : Ctl) : List Neighbour :=
  let pin := s.rd MER_CTRL.PARENT_PIN
  s.mer.neighbours.filter (fun n => n.aligned && s.linkUp n.link && (48 ≤ pin || n.link = pin))

/-- The aligned neighbour with the lowest DEPTH, ties to the lowest link; never one at DEPTH 16. -/
def bestParent (l : List Neighbour) : Option Neighbour :=
  (l.filter (fun n => decide (n.depth < 16))).foldl (fun b n =>
    match b with
    | none => some n
    | some m => if n.depth < m.depth ∨ (n.depth = m.depth ∧ n.link < m.link) then some n else some m) none

/-- Start an exchange with the parent: a SYNC REQ with the device's time t1. -/
def Ctl.askParent (s : Ctl) (l : Nat) : Ctl :=
  let t1 := s.clock
  let s := { s with mer := { s.mer with asked := some (l, t1), lastSync := s.slots } }
  s.sendSync l 1 (t1 % 2 ^ 64) 0 0

/-- Choose a parent and measure it at once; MER_DEPTH where every candidate stands at DEPTH 16. -/
def Ctl.chooseParent (s : Ctl) : Ctl :=
  match bestParent s.parentCand with
  | some n =>
    let s := s.wr MER_SYNC_STATUS.PARENT n.link
    let s := { s with mer := { s.mer with samples := [], rootDev := if n.root then some n.dev else s.mer.rootDev } }
    let s := if s.aligned then s.setDepth (n.depth + 1)
      else (s.wr MER_SYNC_STATUS.DEPTH (n.depth + 1)).wr MER_SYNC_STATUS.STATE 1
    s.askParent n.link
  | none =>
    let s := s.wr MER_SYNC_STATUS.PARENT 0x3F
    let s := { s with mer := { s.mer with asked := none } }
    if s.parentCand.isEmpty then s
    else s.raise Src.MER_DEPTH {} (s.rdWord MER_SYNC_STATUS.addr)

/-- The parent link has gone down (R39). -/
def Ctl.parentLost (s : Ctl) (l : Nat) : Ctl :=
  let s := { s with mer := { s.mer with neighbours := s.mer.neighbours.filter (fun n => n.link != l) } }
  if s.rd MER_SYNC_STATUS.PARENT = l then
    let s := if s.aligned || s.syncState = 3 then s else s.wr MER_SYNC_STATUS.STATE 0
    s.chooseParent
  else s

/-! ## SYNC packets -/

structure SyncMsg where
  kind : Nat
  depth : Nat
  aligned : Bool
  root : Bool
  t1 : Nat
  t2 : Nat
  t3 : Nat
  count : Nat

def SyncMsg.of (bs : List Byte) : SyncMsg :=
  let w := leAt bs 0 8
  { kind := nfld w 0 4, depth := nfld w 4 5, aligned := nbit w 9, root := nbit w 10,
    t1 := leAt bs 8 8, t2 := leAt bs 16 8, t3 := leAt bs 24 8, count := leAt bs 32 7 }

/-- What every SYNC packet tells of its sender, and the root conflict of R40. -/
def Ctl.learn (s : Ctl) (x : InPkt) : Ctl :=
  let m := SyncMsg.of x.pkt.payload
  let n : Neighbour := { link := x.inp, dev := x.pkt.srcDev, depth := m.depth, aligned := m.aligned, root := m.root }
  let s := { s with mer := { s.mer with neighbours := s.mer.neighbours.filter (fun k => k.link != x.inp) ++ [n] } }
  let s := if !m.root then s
    else if s.bit MER_CTRL.ROOT || (match s.mer.rootDev with | some r => r != n.dev | none => false) then
      (s.wrB MER_SYNC_STATUS.ROOT_CONFLICT true).raise Src.MER_ROOT_CONFLICT { link := some x.inp }
        (s.rdWord MER_SYNC_STATUS.addr)
    else { s with mer := { s.mer with rootDev := some n.dev } }
  if s.rd MER_SYNC_STATUS.PARENT = x.inp && m.aligned && s.aligned && !s.bit MER_CTRL.ROOT && decide (m.depth < 16) then
    s.setDepth (m.depth + 1)
  else s

/-- The oldest SYNC packet of a link: taken if it is of the kind a row handles; of an undefined kind
it is discarded and counted (Table MER-1). -/
def Ctl.takeSync (s : Ctl) (l kind : Nat) : Option InPkt × Ctl :=
  match s.mer.rx.find? (fun x => x.inp = l) with
  | none => (none, s)
  | some x =>
    let k := (SyncMsg.of x.pkt.payload).kind
    let gone := { s with mer := { s.mer with rx := dropFirst (fun y => y.inp = l) s.mer.rx } }
    if k = 0 ∨ 3 < k then (none, gone.sat (LNK_SCREEN.HDR_BAD l) 1)
    else if k ≠ kind then (none, s)
    else if x.pkt.poison || !x.pkt.chkGood then (none, gone)
    else (some x, gone.learn x)

/-- SYNC_REQ (R36): the parent's answer carries the times of arrival and of sending. -/
def execSyncReq (l : Fin 48) (t2 t3 : W64) (s : State) : Host.Outcome State Fault Refusal :=
  s.ctlNext (fun c =>
    match c.takeSync l.val 1 with
    | (none, c) => c
    | (some x, c) => c.sendSync l.val 2 (SyncMsg.of x.pkt.payload).t1 t2.toNat t3.toNat)

/-! ## Measuring and correcting (R36, R38) -/

/-- Insert into a rising list. -/
def insInt (x : Int) : List Int → List Int
  | [] => [x]
  | y :: t => if x ≤ y then x :: y :: t else y :: insInt x t

/-- The median; of an even number of values, the mean of the middle two. -/
def median (l : List Int) : Int :=
  let v := l.foldl (fun a x => insInt x a) []
  let n := v.length
  if n % 2 = 1 then v.getD (n / 2) 0 else (v.getD (n / 2 - 1) 0 + v.getD (n / 2) 0) / 2

def clampInt (lo hi x : Int) : Int := if x < lo then lo else if hi < x then hi else x

/-- Report a measurement: OFFSET in ps, LINK_DELAY in 0.1 ns; inputs in 1/65,536 slot. -/
def Ctl.reportSync (s : Ctl) (offset delay : Int) : Ctl :=
  let ps := clampInt (-32768) 32767 (offset * 320000 / 65536)
  let d := clampInt 0 65535 (delay * 3200 / 65536)
  (s.wr MER_SYNC_STATUS.OFFSET (ofInt 16 ps)).wr MER_SYNC_STATUS.LINK_DELAY d.toNat

/-- The initial correction: the whole slots at once, the rest by the edge delay line in steps of
62.5 ps (5,120 steps a slot), and STATE = ALIGNED. -/
def Ctl.alignNow (s : Ctl) (offset : Int) : Ctl :=
  let whole := offset / 65536
  let frac := offset % 65536
  let count := ((s.clock / 65536 : Nat) : Int) + whole
  let s := s.wr MER_NOW.COUNT (count % (2 ^ 56 : Nat)).toNat
  let s := { s with mer := { s.mer with counting := true, edge := s.mer.edge - frac * 5120 / 65536 } }
  let s := (s.wr MER_SYNC_STATUS.STATE 2).wrB MER_SYNC_STATUS.IS_ROOT false
  s.announceAll

/-- The reaction to a measured offset (R38), in half picoseconds. -/
def Ctl.monitor (s : Ctl) (offset : Int) : Ctl :=
  let half := offset * 640000 / 65536
  let mag := half.natAbs
  if mag ≤ 500 then s
  else if mag ≤ 2 * s.rd MER_SLOT_CFG.ALARM_PS then
    let s := { s with mer := { s.mer with slew := some half } }
    s.raise Src.MER_SLEW {} (s.rdWord MER_SYNC_STATUS.addr)
  else
    let s := s.wr MER_SYNC_STATUS.STATE 3
    s.raise Src.MER_LOST {} (s.rdWord MER_SYNC_STATUS.addr)

/-- One slot of slewing: the edge moves 62.5 ps toward the parent until the offset is below 250 ps. -/
def Ctl.slewStep (s : Ctl) : Ctl :=
  match s.mer.slew with
  | none => s
  | some h =>
    if h.natAbs < 500 then { s with mer := { s.mer with slew := none } }
    else
      let d : Int := if 0 < h then 1 else -1
      let h' := h - d * 125
      { s with mer := { s.mer with edge := s.mer.edge - d, slew := if h'.natAbs < 500 then none else some h' } }

/-- A SYNC RSP of the exchange in progress. -/
def Ctl.syncRsp (s : Ctl) (l : Nat) (x : InPkt) (t4 : Nat) : Ctl :=
  let m := SyncMsg.of x.pkt.payload
  match s.mer.asked with
  | none => s
  | some (al, t1) =>
    if al ≠ l ∨ m.t1 ≠ t1 % 2 ^ 64 then s
    else
      let t3 : Int := fullTime m.count m.t3
      let t2 : Int := let t := fullTime m.count m.t2; if (t : Int) ≤ t3 then t else (t : Int) - (2 ^ 64 : Nat)
      let t4 : Int := fullTime (s.clock / 65536 + 1) t4
      let delay : Int := ((t4 - t1) - (t3 - t2)) / 2
      let offset : Int := (t2 - t1) - delay
      let s := { s with mer := { s.mer with asked := none } }
      if s.syncState = 1 then
        let ss := s.mer.samples ++ [{ offset := offset, delay := delay, count := m.count }]
        let s := { s with mer := { s.mer with samples := ss } }
        if ss.length < 16 then s.askParent l
        else
          let o := median (ss.map (fun k => k.offset))
          let s := s.reportSync o (median (ss.map (fun k => k.delay)))
          s.alignNow o
      else if s.aligned then (s.reportSync offset delay).monitor offset
      else s

/-- SYNC_RSP (R36). -/
def execSyncRsp (l : Fin 48) (t4 : W64) (s : State) : Host.Outcome State Fault Refusal :=
  s.ctlNext (fun c =>
    match c.takeSync l.val 2 with
    | (none, c) => c
    | (some x, c) => c.syncRsp l.val x t4.toNat)

/-- ANNOUNCE (R36): a device without a parent takes it as the trigger to choose one. -/
def execAnnounce (l : Fin 48) (s : State) : Host.Outcome State Fault Refusal :=
  s.ctlNext (fun c =>
    match c.takeSync l.val 3 with
    | (none, c) => c
    | (some _, c) =>
      if c.mer.goDone && !c.bit MER_CTRL.ROOT && c.rd MER_SYNC_STATUS.PARENT = 0x3F && c.syncState ≠ 3 then c.chooseParent
      else c)

/-- SYNC_INTERVAL_EXPIRY (R38). -/
def execSyncIntervalExpiry (s : State) : Host.Outcome State Fault Refusal :=
  s.ctlNext (fun c =>
    let p := c.rd MER_SYNC_STATUS.PARENT
    if c.aligned && c.linkUp p && c.elapsed c.mer.lastSync (2 ^ (12 + c.rd MER_CTRL.SYNC_INTERVAL)) then c.askParent p else c)

/-- Alignment starts (R35): the root starts its count in the next slot; another device waits for a
parent, or chooses one it has heard. -/
def Ctl.alignGo (s : Ctl) : Ctl :=
  if s.mer.goDone then s
  else
    let s := { s with mer := { s.mer with goDone := true } }
    if s.bit MER_CTRL.ROOT then { s with mer := { s.mer with startNext := true } }
    else if (s.parentCand).isEmpty then s else s.chooseParent

/-- The count at a boundary: it advances, or the root starts it at 0 (R32, R35); then one step of
slewing. -/
def Ctl.countSlot (s : Ctl) : Ctl :=
  let s := { s with mer := { s.mer with slots := s.mer.slots + 1 }, cyc := 0 }
  let s := if s.mer.startNext then
      let s := { s with mer := { s.mer with startNext := false, counting := true } }
      let s := s.wr MER_NOW.COUNT 0
      let s := (s.wr MER_SYNC_STATUS.STATE 2).wr MER_SYNC_STATUS.DEPTH 0
      (s.wrB MER_SYNC_STATUS.IS_ROOT true).announceAll
    else if s.mer.counting then s.inc MER_NOW.COUNT 1 else s
  s.slewStep

end Sys2Proof.Machine
end

