-- ==== Sys2Proof/Machine/Lanes.lean ====
section
/-!
DEFINITION. Serial lanes (spec/03_lanes.md): training (Table LAN-3), taps, detectors, electrical idle
and wake, test patterns, injection and margining.
-/

namespace Sys2Proof.Machine

/-! ## States (Table LAN-3) -/

def LanSt.OFF : Nat := 0
def LanSt.DETECT : Nat := 1
def LanSt.EQ : Nat := 2
def LanSt.LOCK : Nat := 3
def LanSt.ALIGN : Nat := 4
def LanSt.CAPS : Nat := 5
def LanSt.UP : Nat := 6
def LanSt.IDLE : Nat := 7
def LanSt.WAKE : Nat := 8
def LanSt.RETUNE : Nat := 9
def LanSt.TEST : Nat := 10
def LanSt.FAILED : Nat := 11

def lanes8 : List Nat := [0, 1, 2, 3, 4, 5, 6, 7]

def Ctl.linkState (s : Ctl) (l : Nat) : Nat := s.rd (LNK_TRAIN.STATE l)
def Ctl.laneState (s : Ctl) (l i : Nat) : Nat := s.rd (LANE_STATUS.STATE l i)

/-- End a manual scan point whose lane has left UP and TEST (R85). -/
def Ctl.marginAbort (s : Ctl) (l i : Nat) : Ctl :=
  if s.bit (LANE_MARGIN.BUSY l i) then
    ((s.wrB (LANE_MARGIN.BUSY l i) false).wrB (LANE_MARGIN.DONE l i) true).wrB (LANE_MARGIN.ABORTED l i) true
  else s

/-- A lane enters a state. -/
def Ctl.setLaneState (s : Ctl) (l i st : Nat) : Ctl :=
  let s := s.wr (LANE_STATUS.STATE l i) st
  if st = LanSt.UP ∨ st = LanSt.TEST then s else s.marginAbort l i

/-- The link and all its lanes enter a state together (R66). CURRENT reads 0 when not UP, and UP
follows the state (Tables of LNK_RATE and LNK_STATUS). -/
def Ctl.setLinkState (s : Ctl) (l st : Nat) : Ctl :=
  let s := s.wr (LNK_TRAIN.STATE l) st
  let s := lanes8.foldl (fun s i => s.setLaneState l i st) s
  let s := s.wr (LNK_RATE.CURRENT l) (if st = LanSt.UP then (s.link l).rate else 0)
  s.wrB (LNK_STATUS.UP l) (st = LanSt.UP)

/-- Raise a lane source of a link with the mask of its lanes; word 4 is LANE_STATUS of the lowest
(R86, Table FLT-9). -/
def Ctl.raiseLane (s : Ctl) (src l mask : Nat) : Ctl :=
  s.raise src { link := some l, port := some l, lanes := mask }
    (s.rdWord (LANE_STATUS.addr l (listMin 0 (bitsOf 8 mask))))

/-! ## Control words (Table LAN-4) -/

/-- The rates that this end advertises (R69, R70). -/
def Ctl.rateCap (s : Ctl) (l : Nat) : Nat := s.rd (LNK_RATE.ALLOW l) ^^^ (s.rd (LNK_RATE.ALLOW l) &&& (s.link l).removed)

/-- This end has deskewed and aligned all lanes, in a lane order that R65 allows. -/
def LinkSt.orderOk (k : LinkSt) : Bool :=
  let f (i : Nat) : Nat := nfld (k.lane i).word 36 3
  let n (i : Nat) : Nat := nfld (k.lane i).word 39 6
  (lanes8.all (fun i => f i == i) || lanes8.all (fun i => f i == 7 - i)) && lanes8.all (fun i => n i == n 0)

def LinkSt.deskewed (k : LinkSt) : Bool := lanes8.all (fun i => (k.lane i).deskewed)

/-- Every lane has received its control word twice with the bits of a mask set. -/
def LinkSt.received (k : LinkSt) (p : Nat → Bool) : Bool :=
  lanes8.all (fun i => decide (2 ≤ (k.lane i).same) && p (k.lane i).word)

/-- The link is aligning: ALIGN, WAKE, or the last part of a retune. -/
def Ctl.aligning (s : Ctl) (l : Nat) : Bool :=
  let st := s.linkState l
  st = LanSt.ALIGN || st = LanSt.WAKE || (st = LanSt.RETUNE && (s.link l).sub = LanSt.ALIGN)

def Ctl.alignReady (s : Ctl) (l : Nat) : Bool :=
  s.aligning l && (s.link l).orderOk && (s.link l).deskewed

/-- The control word that the device sends on a lane. It asks for no preset or tap change of its own
(a choice that R70 allows, log entry 20). -/
def Ctl.ownWord (s : Ctl) (l i tstate : Nat) : Nat :=
  let k := s.link l
  let a := k.lane i
  let now := if tstate = LanSt.DETECT then 1 else k.rate
  let w := tstate % 16 + (s.rateCap l) <<< 4 + now <<< 7 + a.tapSts <<< 24 + (b2n a.adapted) <<< 34
    + (b2n (s.alignReady l)) <<< 35 + i <<< 36 + l <<< 39
  w + (crc8Word w) <<< 56

/-- Send one training frame on every lane; it counts toward the two of R91 while aligned. -/
def Ctl.sendFrame (s : Ctl) (l tstate : Nat) : Ctl :=
  let s := s.emit (.frame l (lanes8.map (fun i => s.ownWord l i tstate)))
  if s.alignReady l then s.modLink l (fun k => { k with readyTx := k.readyTx + 1 })
  else s.modLink l (fun k => { k with readyTx := 0 })

/-! ## Taps (R68, Table LAN-5) -/

def preset : Nat → Int × Int × Int × Int
  | 0 => (0, 0, 0, 0)
  | 1 => (0, -4, 0, 0)
  | 2 => (0, -8, 0, 0)
  | 3 => (0, 0, -8, 0)
  | 4 => (0, -4, -4, 0)
  | 5 => (2, -8, -4, 0)
  | 6 => (2, -10, 0, 0)
  | _ => (3, -12, -4, 0)

def LaneSt.setPreset (a : LaneSt) (p : Nat) : LaneSt :=
  let (m2, m1, p1, p2) := preset p
  { a with tapM2 := m2, tapM1 := m1, tapP1 := p1, tapP2 := p2 }

/-- The main tap: 64 less the magnitudes of the other four. -/
def mainTap (m2 m1 p1 p2 : Int) : Int := 64 - m2.natAbs - m1.natAbs - p1.natAbs - p2.natAbs

/-- One requested step of one tap (0 c(-2), 1 c(-1), 3 c(+1), 4 c(+2)) and its TAP_STS. -/
def LaneSt.tapStep (a : LaneSt) (tap req : Nat) : LaneSt × Nat :=
  if req ≠ 1 ∧ req ≠ 2 then (a, 0)
  else
    let d : Int := if req = 1 then 1 else -1
    let limit := if req = 1 then 3 else 2
    let b := match tap with
      | 0 => { a with tapM2 := a.tapM2 + d }
      | 1 => { a with tapM1 := a.tapM1 + d }
      | 3 => { a with tapP1 := a.tapP1 + d }
      | 4 => { a with tapP2 := a.tapP2 + d }
      | _ => a
    let ok := decide (0 ≤ b.tapM2 ∧ b.tapM2 ≤ 8 ∧ -16 ≤ b.tapM1 ∧ b.tapM1 ≤ 0 ∧ -16 ≤ b.tapP1 ∧ b.tapP1 ≤ 0
      ∧ -4 ≤ b.tapP2 ∧ b.tapP2 ≤ 4 ∧ 40 ≤ mainTap b.tapM2 b.tapM1 b.tapP1 b.tapP2)
    if tap = 2 then (a, 0) else if ok then (b, 1) else (a, limit)

/-- Answer the requests of a control word just received. -/
def LaneSt.answerTaps (a : LaneSt) (w : Nat) : LaneSt :=
  if nbit w 13 then { a.setPreset (nfld w 10 3) with tapSts := 0 }
  else
    (List.range 5).foldl (fun a t =>
      let (b, sts) := a.tapStep t (nfld w (14 + 2 * t) 2)
      { b with tapSts := b.tapSts + sts <<< (2 * t) }) { a with tapSts := 0 }

/-! ## Entering states -/

/-- Forget the words received, as a new state begins. -/
def Ctl.freshWords (s : Ctl) (l : Nat) : Ctl :=
  lanes8.foldl (fun s i => s.modLane l i (fun a => { a with same := 0, word := 0, filler := 0, deskewed := false })) s

/-- Training starts in DETECT (R66, R108). -/
def Ctl.startTraining (s : Ctl) (l : Nat) : Ctl :=
  let s := s.freshWords l
  let s := s.modLink l (fun k => { k with removed := 0, rate := 0, hint := 0, readyTx := 0, fromIdle := false,
                                          trainSince := s.slots, squelched := false, capsDone := false, retrainAt := none, sub := 0 })
  let s := lanes8.foldl (fun s i => s.modLane l i (fun a => { a with adapted := false, tapSts := 0 })) s
  let s := (s.wr (LNK_TRAIN.FAIL_CAUSE l) 0).wrB (LNK_TRAIN.REVERSED l) false
  let s := (s.wr (LNK_TRAIN.POLARITY l) 0).wr (LNK_STATUS.CAPS_FAIL l) 0
  let s := (s.wrB (LNK_STATUS.SIG_DIFF l) false).setLinkState l LanSt.DETECT
  s.sendFrame l LanSt.DETECT

/-- Training ends in FAILED with the transmitters squelched. -/
def Ctl.trainFail (s : Ctl) (l cause src : Nat) : Ctl :=
  let s := s.wr (LNK_TRAIN.FAIL_CAUSE l) cause
  let s := s.modLink l (fun k => { k with squelched := true })
  let s := s.setLinkState l LanSt.FAILED
  s.raiseLane src l 0xFF

def topRate (m : Nat) : Nat := if nbit m 2 then 4 else if nbit m 1 then 2 else if nbit m 0 then 1 else 0

/-- EQ starts at a rate, with the initial preset (R70). -/
def Ctl.enterEq (s : Ctl) (l rate : Nat) : Ctl :=
  let p := s.rd (LNK_RATE.PRESET_INIT l)
  let s := s.modLink l (fun k => { k with rate := rate, eqSince := s.slots })
  let s := lanes8.foldl (fun s i => s.modLane l i (fun a => { a.setPreset p with adapted := false, tapSts := 0, same := 0, word := 0 })) s
  (s.setLinkState l LanSt.EQ).sendFrame l LanSt.EQ

/-- The link's flit stream starts: scrambler seeds and an empty parse (R90, R91). -/
def Ctl.startStream (s : Ctl) (l : Nat) : Ctl :=
  s.modLink l (fun k => { k with scr := [], firstBlock := true, partial_ := [], resync := false })

/-- The capability record and credits of a CAPS block, header words 1 to 6 (Table LNK-7, R142). -/
def Ctl.capsWords (s : Ctl) (l turn : Nat) : List Nat :=
  let k := s.link l
  [0x0100 + (s.devNum) <<< 16 + l <<< 28 + (s.rd (LNK_CTRL.ROLE l)) <<< 36 + 0x0F <<< 40,
   k.capsSeq + k.capsEcho <<< 16 + turn <<< 32,
   s.rdWord GLB_DET_SIG.addr, 0,
   34 + 34 <<< 16, 1 <<< 16 + 34 <<< 32 + 48 <<< 48]

/-- Send one CAPS block, advancing CAPS_SEQ. -/
def Ctl.sendCaps (s : Ctl) (l turn : Nat) : Ctl :=
  let s := s.emit (.caps l (s.capsWords l turn))
  s.modLink l (fun k => { k with capsSeq := (k.capsSeq + 1) % 65536 })

def Ctl.enterCaps (s : Ctl) (l : Nat) : Ctl :=
  let s := s.startStream l
  let s := s.modLink l (fun k => { k with capsSince := s.slots, capsSeq := 0, capsEcho := 0, capsRx := [], capsLast := [],
                                          capsSame := 0, capsCred := [], rttMin := 0, rttCount := 0, capsDone := false })
  (s.setLinkState l LanSt.CAPS).sendCaps l 0

/-- Units per slot that the created domains reserve on a link in one direction (R297). -/
def Ctl.resvUnits (s : Ctl) (l : Nat) (out : Bool) : Nat :=
  ((List.range 64).filter s.created).foldl (fun n d =>
    n + s.rd (if out then DOM_RESV.OUT_UNITS d l else DOM_RESV.IN_UNITS d l)) 0

/-- Payload units that reservations may take at a one-hot rate (R46). -/
def resvCap (rate : Nat) : Nat := if rate = 4 then 480 else if rate = 2 then 240 else 120

/-- The reservations exceed what a link carries at a rate. -/
def Ctl.resvOverAt (s : Ctl) (l rate : Nat) : Bool :=
  decide (resvCap rate < s.resvUnits l true ∨ resvCap rate < s.resvUnits l false)

/-- RESV_OVER against every domain with a reservation on the link. -/
def Ctl.raiseResvOver (s : Ctl) (l : Nat) : Ctl :=
  ((List.range 64).filter (fun d => s.created d &&
    (s.rd (DOM_RESV.IN_UNITS d l) != 0 || s.rd (DOM_RESV.OUT_UNITS d l) != 0))).foldl (fun s d =>
      s.raise Src.RESV_OVER { domain := some d, link := some l, port := some l }) s

/-- The link enters UP. TRAINS and TRAIN_SLOTS count trainings and retunes, not fast exits; deficits
restart at 0 (R140); the reservations are compared with the trained rate (R297). -/
def Ctl.enterUp (s : Ctl) (l : Nat) (counted : Bool) : Ctl :=
  let k := s.link l
  let s := if counted then
      (s.wr (LNK_TRAIN.TRAIN_SLOTS l) (min 65535 (s.slots - k.trainSince))).inc (LNK_TRAIN.TRAINS l) 1
    else s
  let above := s.resvOverAt l k.rate
  let s := s.setLink l { k with resvOver := above, wakeSince := 0, squelched := false, idleDue := false }
  let s := lanes8.foldl (fun s i => s.modLane l i (fun a => { a with lastScan := s.slots, fecFrom := s.slots, fecWin := 0 })) s
  let o := s.outSt l
  let s := s.setOut l { o with deficit := [0, 0, 0, 0, 0, 0, 0, 0], ptr := 0 }
  let s := s.setLinkState l LanSt.UP
  let s := if above ∧ !k.resvOver then s.raiseResvOver l else s
  if s.aligned then s.sendSync l 3 0 0 0 else s

/-- ALIGN has ended: CAPS after training, UP after a wake (R77, R91). -/
def Ctl.alignDone (s : Ctl) (l : Nat) : Ctl :=
  let k := s.link l
  if k.fromIdle then
    let fast := s.linkState l = LanSt.WAKE
    (s.startStream l).enterUp l (!fast)
  else s.enterCaps l

/-! ## Idle and wake (R76-R80) -/

/-- The link's lanes enter electrical idle. -/
def Ctl.enterIdle (s : Ctl) (l : Nat) : Ctl :=
  let s := s.emit (.frame l (lanes8.map (fun i => s.ownWord l i 12)))
  let s := s.modLink l (fun k => { k with idleSince := s.slots, squelched := true, idleDue := false })
  s.setLinkState l LanSt.IDLE

/-- A wake begins by fast exit, or by a full retune (R77, R78). -/
def Ctl.startWakeAs (s : Ctl) (l : Nat) (fast : Bool) : Ctl :=
  if s.linkState l ≠ LanSt.IDLE then s
  else
    let s := s.freshWords l
    let s := lanes8.foldl (fun s i => s.modLane l i (fun a => { a with adapted := false, tapSts := 0 })) s
    let s := s.modLink l (fun k => { k with fromIdle := true, squelched := false, wakeSince := s.slots, eqSince := s.slots,
                                            trainSince := s.slots, readyTx := 0, hint := 0, sub := LanSt.EQ })
    if fast then (s.setLinkState l LanSt.WAKE).sendFrame l LanSt.WAKE
    else (s.setLinkState l LanSt.RETUNE).sendFrame l LanSt.RETUNE

/-- A wake begins: fast exit up to 31,250 slots of idle, else a full retune (R77, R78). -/
def Ctl.startWake (s : Ctl) (l : Nat) : Ctl :=
  s.startWakeAs l (s.slots - (s.link l).idleSince ≤ 31250)

/-- IDLE_ENTER received (R76, R79): idle, or an immediate wake of a link in use or held awake. -/
def Ctl.idleEnter (s : Ctl) (l : Nat) : Ctl :=
  if s.linkState l ≠ LanSt.UP then s
  else
    let s := lanes8.foldl (fun s i => s.modLane l i (fun a => { a with word := 12 })) s
    if s.linkInBanks l || s.heldAwake l then
      let s := s.sat (LNK_TRAIN.IDLE_CONFLICTS l) 1
      let s := s.modLink l (fun k => { k with idleSince := s.slots, partnerWoken := false })
      (s.setLinkState l LanSt.IDLE).startWake l
    else
      let s := s.modLink l (fun k => { k with idleSince := s.slots, squelched := true, idleDue := false })
      s.setLinkState l LanSt.IDLE

/-- IDLE_ENTER (R79). -/
def execIdleEnter (l : Fin 48) (s : State) : Host.Outcome State Fault Refusal :=
  s.ctlNext (fun c => c.idleEnter l.val)

/-- The link may idle now: the decision has been taken, nothing uses it, and its output and replay
buffers are empty (R53). -/
def Ctl.idleReady (s : Ctl) (l : Nat) : Bool :=
  let o := s.outSt l
  (s.link l).idleDue && s.linkState l = LanSt.UP && !s.linkInBanks l && !s.heldAwake l
    && o.q.isEmpty && o.cur.isNone && o.zcur.isNone && (s.link l).stored.isEmpty

/-- LINK_IDLE_ENTRY (R53). -/
def execLinkIdleEntry (l : Fin 48) (s : State) : Host.Outcome State Fault Refusal :=
  s.ctlNext (fun c => if c.idleReady l.val then c.enterIdle l.val else c)

/-- WAKE_FAIL (R80): a fast exit that misses its bound goes on as a retune. -/
def Ctl.wakeFail (s : Ctl) (l : Nat) : Ctl :=
  if s.linkState l = LanSt.WAKE then
    let s := s.raiseLane (Src.WAKE_FAIL l) l 0xFF
    let s := s.freshWords l
    let s := s.modLink l (fun k => { k with sub := LanSt.EQ, eqSince := s.slots, trainSince := s.slots, readyTx := 0 })
    (s.setLinkState l LanSt.RETUNE).sendFrame l LanSt.RETUNE
  else s

/-- WAKE_FAIL (R80). -/
def execWakeFail (l : Fin 48) (s : State) : Host.Outcome State Fault Refusal :=
  s.ctlNext (fun c => c.wakeFail l.val)

/-! ## Training frames (R67) -/

/-- One lane takes its control word and what its receiver reports. -/
def LaneSt.take (a : LaneSt) (w : Nat) (i : Nat) (obs : TrainObs) : LaneSt :=
  let good := decide (crc8Word w = nfld w 56 8) && [1, 2, 3, 4, 8, 9, 12].contains (nfld w 0 4)
  let a := if !good then a else
    if w = a.word then { a with same := min 2 (a.same + 1) } else { a with word := w, same := 1 }
  { a with adapted := a.adapted || nbit obs.adapted i,
           filler := if nbit obs.fillerOk i then min 4096 (a.filler + 1) else 0,
           deskewed := nbit obs.deskewed i }

/-- A tap request that has just become received is answered (R68). -/
def LaneSt.takeTaps (old new : LaneSt) : LaneSt :=
  if old.same < 2 ∧ new.same = 2 then new.answerTaps new.word else new

/-- Take a frame of all eight lanes. -/
def Ctl.takeFrame (s : Ctl) (l : Nat) (words : List W64) (obs : TrainObs) (eq : Bool) : Ctl :=
  let s := lanes8.foldl (fun s i =>
    let old := s.lane l i
    let new := old.take ((words.getD i 0).toNat) i obs
    s.setLane l i (if eq then old.takeTaps new else new)) s
  let s := s.wr (LNK_TRAIN.POLARITY l) (s.rd (LNK_TRAIN.POLARITY l) ||| (obs.inverted % 256))
  s.wr (LNK_RATE.PARTNER_CAP l) (nfld (s.lane l 0).word 4 3)

/-- Leave DETECT: the highest rate common to both ends, or FAILED with RATE (R69). -/
def Ctl.stepDetect (s : Ctl) (l : Nat) : Ctl :=
  if (s.link l).received (fun _ => true) then
    let common := s.rateCap l &&& nfld (s.lane l 0).word 4 3
    if common = 0 then s.trainFail l 1 (Src.TRAIN_FAIL l) else s.enterEq l (topRate common)
  else s.sendFrame l LanSt.DETECT

def Ctl.eqDone (s : Ctl) (l : Nat) : Bool :=
  (s.link l).received (fun w => nbit w 34) && lanes8.all (fun i => (s.lane l i).adapted)

def Ctl.lockDone (s : Ctl) (l : Nat) : Bool := lanes8.all (fun i => decide (4096 ≤ (s.lane l i).filler))

/-- Aligning: REVERSED and the cause that the bound would give, then CAPS or UP once two frames with
ALIGN_READY have been sent and two received (R65, R91). -/
def Ctl.stepAlign (s : Ctl) (l tstate : Nat) : Ctl :=
  let k := s.link l
  let s := if k.orderOk then s.wrB (LNK_TRAIN.REVERSED l) (nfld (k.lane 0).word 36 3 = 7) else s
  let s := s.modLink l (fun k => { k with hint := if !k.orderOk then 4 else if k.deskewed then 0 else 5 })
  if s.alignReady l && decide (2 ≤ k.readyTx) && k.received (fun w => nbit w 35) then s.alignDone l
  else s.sendFrame l tstate

def Ctl.zeroFiller (s : Ctl) (l : Nat) : Ctl := lanes8.foldl (fun s i => s.modLane l i (fun a => { a with filler := 0 })) s

/-- One training frame received on a link (Table LAN-3). -/
def Ctl.trainingFrame (s : Ctl) (l : Nat) (words : List W64) (obs : TrainObs) : Ctl :=
  let st := s.linkState l
  let sub := (s.link l).sub
  if st = LanSt.UP then
    (if lanes8.all (fun i => let w := (words.getD i 0).toNat; crc8Word w = nfld w 56 8 && nfld w 0 4 = 12) then s.idleEnter l else s)
  else if st = LanSt.DETECT then (s.takeFrame l words obs false).stepDetect l
  else if st = LanSt.EQ then
    let s := s.takeFrame l words obs true
    if s.eqDone l then ((s.zeroFiller l).setLinkState l LanSt.LOCK).sendFrame l LanSt.LOCK else s.sendFrame l LanSt.EQ
  else if st = LanSt.LOCK then
    let s := s.takeFrame l words obs false
    if s.lockDone l then (s.setLinkState l LanSt.ALIGN).sendFrame l LanSt.ALIGN else s.sendFrame l LanSt.LOCK
  else if st = LanSt.ALIGN then (s.takeFrame l words obs false).stepAlign l LanSt.ALIGN
  else if st = LanSt.WAKE then (s.takeFrame l words obs false).stepAlign l LanSt.WAKE
  else if st = LanSt.RETUNE then
    let s := s.takeFrame l words obs (sub = LanSt.EQ)
    if sub = LanSt.EQ then
      (if s.eqDone l then (s.zeroFiller l).modLink l (fun k => { k with sub := LanSt.LOCK }) else s).sendFrame l LanSt.RETUNE
    else if sub = LanSt.LOCK then
      (if s.lockDone l then s.modLink l (fun k => { k with sub := LanSt.ALIGN }) else s).sendFrame l LanSt.RETUNE
    else s.stepAlign l LanSt.RETUNE
  else s

/-- TRAINING_FRAME (R67). -/
def execTrainingFrame (l : Fin 48) (words : List W64) (obs : TrainObs) (s : State) : Host.Outcome State Fault Refusal :=
  s.ctlNext (fun c => c.trainingFrame l.val words obs)

/-- EQ not complete within 4,688 slots (R70): the failed rate falls out, or FAILED with EQ. -/
def Ctl.eqTimeout (s : Ctl) (l : Nat) : Ctl :=
  if s.linkState l = LanSt.EQ ∧ s.elapsed (s.link l).eqSince 4688 then
    if s.bit (LNK_RATE.FALLBACK l) then
      let s := s.freshWords l
      let s := s.modLink l (fun k => { k with removed := k.removed ||| k.rate, rate := 0, readyTx := 0 })
      (s.setLinkState l LanSt.DETECT).sendFrame l LanSt.DETECT
    else s.trainFail l 2 (Src.TRAIN_FAIL l)
  else s

/-- EQ_TIMEOUT (R70). -/
def execEqTimeout (l : Fin 48) (s : State) : Host.Outcome State Fault Refusal :=
  s.ctlNext (fun c => c.eqTimeout l.val)

/-- The total training bound of 6,250 slots passes in LOCK, ALIGN or a retune (R71, R78). -/
def Ctl.trainTimeout (s : Ctl) (l : Nat) : Ctl :=
  let k := s.link l
  let st := s.linkState l
  if !s.elapsed k.eqSince 6250 then s
  else if st = LanSt.LOCK then s.trainFail l 3 (Src.TRAIN_FAIL l)
  else if st = LanSt.ALIGN then s.trainFail l (if k.hint = 4 then 4 else 5) (Src.TRAIN_FAIL l)
  else if st = LanSt.RETUNE then s.trainFail l 6 (Src.WAKE_FAIL l)
  else s

/-- TRAIN_TIMEOUT (R71). -/
def execTrainTimeout (l : Fin 48) (s : State) : Host.Outcome State Fault Refusal :=
  s.ctlNext (fun c => c.trainTimeout l.val)

/-! ## Detectors (R72-R75, R64) -/

/-- LOS asserts on a lane: reported of an UP link unless the partner's last word was IDLE_ENTER. -/
def Ctl.losAssert (s : Ctl) (l i : Nat) : Ctl :=
  let old := s.bit (LANE_STATUS.LOS l i)
  let s := s.wrB (LANE_STATUS.LOS l i) true
  if !old && s.linkState l = LanSt.UP && nfld (s.lane l i).word 0 4 != 12 then s.raiseLane (Src.LOS l) l (1 <<< i) else s

/-- LOS_ASSERT (R74). -/
def execLosAssert (l : Fin 48) (ln : Fin 8) (s : State) : Host.Outcome State Fault Refusal :=
  s.ctlNext (fun c => c.losAssert l.val ln.val)

/-- CDR_LOL changes on a lane (R73, R74). -/
def Ctl.cdrLol (s : Ctl) (l i : Nat) (on : Bool) : Ctl :=
  let old := s.bit (LANE_STATUS.CDR_LOL l i)
  let s := s.wrB (LANE_STATUS.CDR_LOL l i) on
  if on && !old && s.linkState l = LanSt.UP then s.raiseLane (Src.CDR_LOL l) l (1 <<< i) else s

/-- CDR_LOL (R73). -/
def execCdrLol (l : Fin 48) (ln : Fin 8) (on : Bool) (s : State) : Host.Outcome State Fault Refusal :=
  s.ctlNext (fun c => c.cdrLol l.val ln.val on)

/-- PLL_LOL changes on a lane: reported of any lane not OFF (Table LAN-8). -/
def Ctl.pllLol (s : Ctl) (l i : Nat) (on : Bool) : Ctl :=
  let old := s.bit (LANE_STATUS.PLL_LOL l i)
  let s := s.wrB (LANE_STATUS.PLL_LOL l i) on
  if on && !old && s.laneState l i != LanSt.OFF then s.raiseLane (Src.PLL_LOL l) l (1 <<< i) else s

/-- PLL_LOL (R73). -/
def execPllLol (l : Fin 48) (ln : Fin 8) (on : Bool) (s : State) : Host.Outcome State Fault Refusal :=
  s.ctlNext (fun c => c.pllLol l.val ln.val on)

/-- Bytes that a lane carries in an averaging window of 65,536 slots: 20, 10 or 5 blocks a slot of
896 bytes (R75, R88, R90). -/
def fecTotal (rate : Nat) : Nat := (if rate = 4 then 20 else if rate = 2 then 10 else 5) * 896 * 65536

/-- The end of an averaging window: above 1e-5 the flag is raised once, below 1e-6 it is freed. -/
def Ctl.fecWindow (s : Ctl) (l i : Nat) : Ctl :=
  let a := s.lane l i
  if !s.elapsed a.fecFrom 65536 then s
  else
    let total := fecTotal (s.link l).rate
    let high := decide (total < a.fecWin * 100000)
    let clear := decide (a.fecWin * 1000000 < total)
    let s' := s.setLane l i { a with fecWin := 0, fecFrom := s.slots, fecHeld := if high then true else if clear then false else a.fecHeld }
    if high && !a.fecHeld then s'.raiseLane (Src.FEC_SYM l) l (1 <<< i) else s'

/-- FEC_SYM (R75). -/
def execFecSym (l : Fin 48) (ln : Fin 8) (s : State) : Host.Outcome State Fault Refusal :=
  s.ctlNext (fun c => c.fecWindow l.val ln.val)

/-- The receiver reports the tracked offset (R64): above 10 ppm for a full slot raises REF_TRACK, above
20 ppm it loses lock. -/
def Ctl.refTrack (s : Ctl) (l i : Nat) (ppm : BitVec 8) : Ctl :=
  let s := s.wr (LANE_STATUS.FREQ_OFS l i) ppm.toNat
  let mag := ppm.toInt.natAbs
  let a := s.lane l i
  let s := if 20 < mag then s.cdrLol l i true else s
  if mag ≤ 10 then s.modLane l i (fun a => { a with refSince := none, refRaised := false })
  else
    match a.refSince with
    | none => s.modLane l i (fun a => { a with refSince := some s.slots })
    | some t =>
      if s.elapsed t 1 && !a.refRaised then
        (s.modLane l i (fun a => { a with refRaised := true })).raiseLane (Src.REF_TRACK l) l (1 <<< i)
      else s

/-- REF_TRACK (R64). -/
def execRefTrack (l : Fin 48) (ln : Fin 8) (ppm : BitVec 8) (s : State) : Host.Outcome State Fault Refusal :=
  s.ctlNext (fun c => c.refTrack l.val ln.val ppm)

/-! ## Patterns (R81, R82) -/

/-- The link is OFF in its lifecycle, so its configuration may be written (R24, R87). -/
def Ctl.linkOff (s : Ctl) (l : Nat) : Bool := s.rd (LNK_STATUS.LIFECYCLE l) == 0

/-- A lane enters or leaves TEST as its selections say (R81). -/
def Ctl.patternState (s : Ctl) (l i : Nat) : Ctl :=
  let any := s.rd (LANE_PRBS_CFG.TX_PAT l i) != 0 || s.rd (LANE_PRBS_CFG.RX_PAT l i) != 0
  let s := if any then
      let s := if s.laneState l i = LanSt.TEST then s else s.modLane l i (fun a => { a with chkGood := 0, chkWin := [], chkBits := 0, chkReg := 0, chkPos := 0, genReg := 0 })
      s.setLaneState l i LanSt.TEST
    else if s.laneState l i = LanSt.TEST then
      (s.setLaneState l i LanSt.OFF).wrB (LANE_PRBS_ERR.SYNC l i) false
    else s
  s.wr (LNK_TRAIN.STATE l) (if lanes8.all (fun j => s.laneState l j = LanSt.TEST) then LanSt.TEST else LanSt.OFF)

/-- Zero the checker counters (R82). -/
def Ctl.prbsClear (s : Ctl) (l i : Nat) : Ctl :=
  let s := (s.wr (LANE_PRBS_ERR.ERRORS l i) 0).wr (LANE_PRBS_ERR.BITS l i) 0
  s.modLane l i (fun a => { a with chkBits := 0 })

/-- The bit that a pattern's generator gives next, from the bits before it (bit 0 the latest), and
whether the register can stand in the pattern (Table LAN-7). -/
def patternNext (pat user reg : Nat) : Bool × Bool :=
  let x (i j : Nat) : Bool := nbit reg i != nbit reg j
  match pat with
  | 1 => (x 6 5, true)
  | 2 => ((x 12 11) != (x 1 0), true)
  | 3 => (x 30 27, true)
  | 4 =>
    let bits := (List.range 64).map (nbit user)
    let rotated (r : Nat) : Bool := (List.range 64).all (fun i => nbit reg (63 - i) == bits.getD ((i + r) % 64) false)
    (nbit reg 63, (List.range 64).any rotated)
  | _ => (false, false)

/-- One received bit at the checker. -/
def Ctl.checkBit (s : Ctl) (l i : Nat) (b : Bool) : Ctl :=
  let a := s.lane l i
  let user := s.rdWord (LANE_PRBS_USER.addr l i)
  let b := b != s.bit (LANE_PRBS_CFG.INVERT l i)
  let (p, fits) := patternNext (s.rd (LANE_PRBS_CFG.RX_PAT l i)) user a.chkReg
  if !s.bit (LANE_PRBS_ERR.SYNC l i) then
    let good := if p = b ∧ fits then a.chkGood + 1 else 0
    let s := s.setLane l i { a with chkReg := (a.chkReg * 2 + b2n b) % 2 ^ 64, chkGood := if 1024 ≤ good then 0 else good, chkWin := [] }
    if 1024 ≤ good then s.wrB (LANE_PRBS_ERR.SYNC l i) true else s
  else
    let err := p != b
    let win := (err :: a.chkWin).take 1024
    let n := a.chkBits + 1
    let s := if err then s.sat (LANE_PRBS_ERR.ERRORS l i) 1 else s
    let s := if n = 2 ^ 20 then s.sat (LANE_PRBS_ERR.BITS l i) 1 else s
    let lost := decide (128 < (win.filter (fun e => e)).length)
    let s := s.setLane l i { a with chkReg := (a.chkReg * 2 + b2n p) % 2 ^ 64, chkWin := if lost then [] else win,
                                    chkBits := n % 2 ^ 20, chkGood := 0 }
    if lost then s.wrB (LANE_PRBS_ERR.SYNC l i) false else s

/-- PRBS_SYNC (R82): bits received on a lane in TEST with a checker pattern selected. -/
def execPrbsSync (l : Fin 48) (ln : Fin 8) (bits : List Bool) (s : State) : Host.Outcome State Fault Refusal :=
  s.ctlNext (fun c =>
    if c.laneState l.val ln.val = LanSt.TEST ∧ c.rd (LANE_PRBS_CFG.RX_PAT l.val ln.val) ≠ 0 then
      bits.foldl (fun c b => c.checkBit l.val ln.val b) c
    else c)

/-! ## Injection and margining (R83-R85) -/

/-- GO of LANE_INJECT: SINGLE in TEST and UP, BURST in TEST. -/
def Ctl.injectGo (s : Ctl) (l i : Nat) : Ctl :=
  let st := s.laneState l i
  let mode := s.rd (LANE_INJECT.MODE l i)
  if mode = 1 ∧ (st = LanSt.TEST ∨ st = LanSt.UP) then
    (s.inc (LANE_INJECT.INJECTED l i) 1).modLane l i (fun a => { a with injecting := 1 })
  else if mode = 3 ∧ st = LanSt.TEST then
    let n := s.rd (LANE_INJECT.BURST_SYM l i)
    (s.inc (LANE_INJECT.INJECTED l i) 1).modLane l i (fun a => { a with injecting := n })
  else s

/-- PERIODIC_INJECTION (R83): PERIOD x 1,024 symbols have passed. -/
def execPeriodicInjection (l : Fin 48) (ln : Fin 8) (s : State) : Host.Outcome State Fault Refusal :=
  s.ctlNext (fun c =>
    let st := c.laneState l.val ln.val
    if c.rd (LANE_INJECT.MODE l.val ln.val) = 2 ∧ (st = LanSt.TEST ∨ st = LanSt.UP) then
      (c.inc (LANE_INJECT.INJECTED l.val ln.val) 1).modLane l.val ln.val (fun a => { a with injecting := 1 })
    else c)

/-- An automatic scan of an UP lane, once every 4,096 slots, paused by a manual one (R84). -/
def Ctl.autoScan (s : Ctl) (l i h w : Nat) : Ctl :=
  let a := s.lane l i
  if s.laneState l i = LanSt.UP ∧ s.elapsed a.lastScan 4096 ∧ !s.bit (LANE_MARGIN.BUSY l i) then
    let s := (s.wr (LANE_STATUS.MARGIN_H l i) h).wr (LANE_STATUS.MARGIN_W l i) w
    let n := if h < 10 ∨ w < 4 then a.lowScans + 1 else 0
    let s := s.setLane l i { a with lastScan := s.slots, lowScans := min n 17 }
    if n = 16 then s.raiseLane (Src.MARGIN_LOW l) l (1 <<< i) else s
  else s

/-- AUTO_MARGIN_SCAN (R84). -/
def execAutoMarginScan (l : Fin 48) (ln : Fin 8) (height : BitVec 8) (width : BitVec 6) (s : State) :
    Host.Outcome State Fault Refusal :=
  s.ctlNext (fun c => c.autoScan l.val ln.val height.toNat width.toNat)

/-- A manual scan point starts; it is valid only on a lane UP or in TEST (R85). -/
def Ctl.marginGo (s : Ctl) (l i : Nat) : Ctl :=
  let s := (s.wrB (LANE_MARGIN.DONE l i) false).wrB (LANE_MARGIN.ABORTED l i) false
  let s := (s.wr (LANE_MARGIN.ERRORS l i) 0).wrB (LANE_MARGIN.BUSY l i) true
  if s.laneState l i = LanSt.UP ∨ s.laneState l i = LanSt.TEST then s else s.marginAbort l i

/-- MARGIN_DONE (R85): the dwell is complete, with its disagreements. -/
def execMarginDone (l : Fin 48) (ln : Fin 8) (errors : Nat) (s : State) : Host.Outcome State Fault Refusal :=
  s.ctlNext (fun c =>
    if c.bit (LANE_MARGIN.BUSY l.val ln.val) then
      let c := c.wr (LANE_MARGIN.ERRORS l.val ln.val) (min errors (2 ^ 32 - 1))
      (c.wrB (LANE_MARGIN.BUSY l.val ln.val) false).wrB (LANE_MARGIN.DONE l.val ln.val) true
    else c)

end Sys2Proof.Machine
end

