-- ==== Sys2Proof/Machine/Fec.lean ====
section
/-!
DEFINITION. The forward error correction of a block (R89, R90): GF(2^8), the decoder of the shortened
RS(224, 202) code, the lane mapping and the descrambler.
-/

namespace Sys2Proof.Machine

/-- Multiplication by x in GF(2^8) with polynomial 0x11D. -/
def gfX (a : Nat) : Nat := if a < 128 then 2 * a else (2 * a) ^^^ 0x11D

def gfMulLoop : Nat → Nat → Nat → Nat → Nat
  | 0, _, _, r => r
  | n + 1, a, b, r => gfMulLoop n (gfX a) (b / 2) (if b % 2 = 1 then r ^^^ a else r)

def gfMul (a b : Nat) : Nat := gfMulLoop 8 a b 0

/-- Powers of alpha = 2. -/
def gfExp (n : Nat) : Nat := iter gfX (n % 255) 1

/-- The inverse, a^254. -/
def gfInv (a : Nat) : Nat :=
  let a2 := gfMul a a
  let a4 := gfMul a2 a2
  let a8 := gfMul a4 a4
  let a16 := gfMul a8 a8
  let a32 := gfMul a16 a16
  let a64 := gfMul a32 a32
  let a128 := gfMul a64 a64
  gfMul a128 (gfMul a64 (gfMul a32 (gfMul a16 (gfMul a8 (gfMul a4 a2)))))

/-- Evaluate a word whose position 0 is the highest-degree coefficient. -/
def gfHorner (x : Nat) (word : List Nat) : Nat := word.foldl (fun acc c => gfMul acc x ^^^ c) 0

/-- The 22 syndromes. -/
def syndromes (word : List Nat) : List Nat := (List.range 22).map (fun j => gfHorner (gfExp j) word)

/-- Polynomials, lowest degree first. -/
def polyEval (p : List Nat) (x : Nat) : Nat := p.foldr (fun c acc => gfMul acc x ^^^ c) 0

def polyAdd : List Nat → List Nat → List Nat
  | [], q => q
  | p, [] => p
  | a :: p, b :: q => (a ^^^ b) :: polyAdd p q

def polyScale (k : Nat) (p : List Nat) : List Nat := p.map (gfMul k)

def polyMul : List Nat → List Nat → List Nat
  | [], _ => []
  | a :: p, q => polyAdd (polyScale a q) (0 :: polyMul p q)

/-- State of the Berlekamp-Massey recursion. -/
structure BmSt where
  c : List Nat := [1]
  b : List Nat := [1]
  len : Nat := 0
  m : Nat := 1
  d : Nat := 1

def bmStep (syn : List Nat) (k : BmSt) (n : Nat) : BmSt :=
  let d := (List.range (k.len + 1)).foldl (fun acc i => acc ^^^ gfMul (k.c.getD i 0) (syn.getD (n - i) 0)) 0
  if d = 0 then { k with m := k.m + 1 }
  else
    let c := polyAdd k.c (List.replicate k.m 0 ++ polyScale (gfMul d (gfInv k.d)) k.b)
    if 2 * k.len ≤ n then { c := c, b := k.c, len := n + 1 - k.len, m := 1, d := d }
    else { k with c := c, m := k.m + 1 }

/-- The formal derivative over characteristic 2. -/
def polyDeriv (p : List Nat) : List Nat := (List.range (p.length - 1)).map (fun i => if i % 2 = 0 then p.getD (i + 1) 0 else 0)

/-- Correct a codeword of 224 bytes: the corrected word and the positions corrected, or none where it
holds more than 11 errors. -/
def rsDecode (word : List Nat) : Option (List Nat × List Nat) :=
  let syn := syndromes word
  if syn.all (fun x => x == 0) then some (word, [])
  else
    let k := (List.range 22).foldl (bmStep syn) {}
    let at_ (p : Nat) : Nat := gfExp (255 - (223 - p))
    let pos := (List.range 224).filter (fun p => polyEval k.c (at_ p) == 0)
    if 11 < k.len ∨ pos.length ≠ k.len then none
    else
      let om := (polyMul syn k.c).take 22
      let dv := polyDeriv k.c
      let fixed := pos.foldl (fun w p =>
        let e := gfMul (gfExp (223 - p)) (gfMul (polyEval om (at_ p)) (gfInv (polyEval dv (at_ p))))
        w.set p (w.getD p 0 ^^^ e)) word
      if (syndromes fixed).all (fun x => x == 0) then some (fixed, pos) else none

/-! ## Lanes of a block (R90) -/

def lsfrMask : Nat := 0x7FFF_FFFF

/-- One byte through the additive scrambler, most significant bit first. -/
def scrambleByte (st : Nat) (b : Byte) : Nat × Byte :=
  let step (x : Nat × Nat) (i : Nat) : Nat × Nat :=
    let k := (x.1 >>> 30 ^^^ x.1 >>> 27) % 2
    ((x.1 * 2 + k) % 2 ^ 31, x.2 * 2 + ((b.toNat >>> (7 - i)) % 2 ^^^ k))
  let (s, v) := (List.range 8).foldl step (st, 0)
  (s, BitVec.ofNat 8 v)

def scrambleBytes : Nat → List Byte → Nat × List Byte
  | st, [] => (st, [])
  | st, b :: bs =>
    let (st, c) := scrambleByte st b
    let (st, cs) := scrambleBytes st bs
    (st, c :: cs)

def scrSeed (lane : Nat) : Nat := 0x5A5A_5A00 + lane

/-- Byte p of codeword c out of the eight lanes' bytes. -/
def laneByte (lanes : List (List Byte)) (p c : Nat) : Nat :=
  (((lanes.getD ((c + p) % 8) []).getD (4 * p + c / 8) 0)).toNat

def codeword (lanes : List (List Byte)) (c : Nat) : List Nat := (List.range 224).map (fun p => laneByte lanes p c)

/-- The result of decoding a block: its 6,464 data bytes where every codeword decodes, and the
symbols corrected on each logical lane. -/
structure BlockDec where
  data : Option (List Byte) := none
  fixed : List Nat := []

def decodeBlock (lanes : List (List Byte)) : BlockDec :=
  let ws := (List.range 32).map (fun c => rsDecode (codeword lanes c))
  let fixed := lanes8.map (fun ln =>
    ((List.range 32).map (fun c => match ws.getD c none with
      | some (_, ps) => (ps.filter (fun p => (c + p) % 8 == ln)).length
      | none => 0)).foldl (· + ·) 0)
  let words := ws.filterMap (fun w => w.map (fun x => x.1))
  if words.length = 32 then
    { data := some ((List.range 202).flatMap (fun p => words.map (fun w => BitVec.ofNat 8 (w.getD p 0)))), fixed := fixed }
  else { data := none, fixed := fixed }

end Sys2Proof.Machine
end

