-- ==== Sys2Proof/Machine/Link.lean ====
section
/-!
DEFINITION. The link protocol (spec/04_link_protocol.md): blocks, the flit stream, replay, link down
and retraining, per-hop credits and the capability exchange.
-/

namespace Sys2Proof.Machine

/-! ## Link down (R108) -/

/-- A packet that was arriving when its ingress went down goes on poisoned (R101, R144). -/
def Ctl.poisonPartial (s : Ctl) (l : Nat) : Ctl :=
  let k := s.link l
  if 32 ≤ k.partial_.length then
    let h := Pkt.ofHeader (leAt k.partial_ 0 8) (leAt k.partial_ 8 8) (leAt k.partial_ 16 8) (leAt k.partial_ 24 8)
    let p := { h with payload := fitBytes (16 * h.len) (k.partial_.drop 32), check := 0, poison := true }
    s.setLink l { k with partial_ := [], resync := false, rxq := k.rxq ++ [{ pkt := p, inp := l, chkOk := false }] }
  else s.setLink l { k with partial_ := [], resync := false }

/-- Recompute REPLAYING (LNK_STATUS): an episode is open in either direction. -/
def Ctl.replayBit (s : Ctl) (l : Nat) : Ctl :=
  s.wrB (LNK_STATUS.REPLAYING l) ((s.link l).episodeFirst.isSome || (s.link l).nakState)

/-- The link is declared down (R108): 1 squelch, 2 UP and DOWN_LATCH, 3 flush, 4 notices, 5 own
transactions; then retraining in 3,125 slots under AUTO_RETRAIN. -/
def Ctl.linkDown (s : Ctl) (l cause : Nat) : Ctl :=
  let k := s.link l
  let queued := (let o := s.outSt l; (o.q ++ o.cur.toList ++ o.zcur.toList).map (fun x => x.pkt))
  let stored := k.stored.flatMap (fun b => b.pkts)
  let s := s.modLink l (fun k => { k with squelched := true })
  let s := s.setLinkState l LanSt.OFF
  let s := (s.wrB (LNK_STATUS.DOWN_LATCH l) true).wr (LNK_STATUS.DOWN_CAUSE l) cause
  let s := s.inc (LNK_REPLAY_STAT.DOWNS l) 1
  let s := s.raiseLink Src.LINK_DOWN l
  let s := s.flushOutput l
  let s := stored.foldl (fun s p => s.countFlush l p) s
  let s := s.poisonPartial l
  let auto := s.bit (LNK_CTRL.AUTO_RETRAIN l)
  let s := s.modLink l (fun k => { k with stored := [], episodeFirst := none, nakState := false, nakAck := none, attempts := 0, retrainAt := if auto then some (s.slots + 3125) else none })
  let s := s.replayBit l
  let s := (queued ++ stored).foldl Ctl.noticeLost s
  let s := (s.net.txns.filter (fun t => t.hop = some l)).foldl Ctl.lostTxn s
  s.parentLost l

/-- LINK_RETRAIN (R108): training restarts from DETECT 1 ms after the declaration. -/
def execLinkRetrain (l : Fin 48) (s : State) : Host.Outcome State Fault Refusal :=
  s.ctlNext (fun c =>
    match (c.link l.val).retrainAt with
    | some t => if t ≤ c.slots then c.startTraining l.val else c
    | none => c)

/-! ## Replay (R104-R107) -/

/-- MAX_ATTEMPTS: 1 to 8; other values read as 8. -/
def Ctl.maxAttempts (s : Ctl) (l : Nat) : Nat :=
  let v := s.rd (LNK_REPLAY_CFG.MAX_ATTEMPTS l)
  if 1 ≤ v ∧ v ≤ 8 then v else 8

/-- A replay attempt from the block after sequence number `a` (R105), or the declaration that a
further one is due (R106). -/
def Ctl.beginAttempt (s : Ctl) (l a : Nat) : Ctl :=
  let k := s.link l
  let again := k.stored.dropWhile (fun b => b.bseq != (a + 1) % 65536)
  if again.isEmpty then s
  else if k.episodeFirst.isSome ∧ s.maxAttempts l ≤ k.attempts then s.linkDown l 1
  else
    let s := s.inc (LNK_REPLAY_STAT.ATTEMPTS l) 1
    let first := k.episodeFirst.isNone
    let s := s.setLink l { k with attempts := k.attempts + 1, nakAck := some a, attemptNs := s.ns,
                                  episodeFirst := if first then some ((a + 1) % 65536) else k.episodeFirst,
                                  episodeNs := if first then s.ns else k.episodeNs }
    let s := (again.flatMap (fun b => b.pkts)).foldl (fun s p => s.emit (.packet l p)) s
    s.replayBit l

/-- The episode's first block has been acknowledged: the episode ends (R106). -/
def Ctl.endEpisode (s : Ctl) (l : Nat) : Ctl :=
  let k := s.link l
  match k.episodeFirst with
  | none => s
  | some b =>
    if k.stored.any (fun x => x.bseq = b) then s
    else
      let took := (s.ns - k.episodeNs) / 16
      let s := s.inc (LNK_REPLAY_STAT.EPISODES l) 1
      let s := s.wr (LNK_REPLAY_STAT.LONGEST l) (max (s.rd (LNK_REPLAY_STAT.LONGEST l)) (min 65535 took))
      let s := s.modLink l (fun k => { k with episodeFirst := none, attempts := 0, nakAck := none })
      (s.replayBit l).raiseLink Src.LINK_REPLAY l

/-- ACK = a frees every stored block up to it. -/
def Ctl.takeAck (s : Ctl) (l a : Nat) : Ctl :=
  let k := s.link l
  if k.stored.any (fun b => b.bseq = a) then
    (s.setLink l { k with stored := (k.stored.dropWhile (fun b => b.bseq != a)).drop 1 }).endEpisode l
  else s

/-- NAK with ACK = a: an attempt, unless one with the same ACK began within one RTT (R105). -/
def Ctl.takeNak (s : Ctl) (l a : Nat) : Ctl :=
  let k := s.link l
  if k.nakAck = some a ∧ s.ns < k.attemptNs + s.rd (LNK_STATUS.RTT l) then s
  else s.beginAttempt l a

/-- Credits returned since UP (R103). -/
def Ctl.takeCredits (s : Ctl) (l : Nat) (cred : List Nat) : Ctl :=
  let k := s.link l
  s.setLink l { k with
                      credits := lanes8.map (fun v => k.credits.getD v 0 + (cred.getD v 0 + 65536 - k.lastCred.getD v 0 % 65536) % 65536),
                      lastCred := cred }

/-- An attempt from the oldest unacknowledged block (R105). -/
def Ctl.replayTimeout (s : Ctl) (l : Nat) : Ctl :=
  match (s.link l).stored with
  | [] => s
  | b :: _ => if s.linkState l = LanSt.UP then s.beginAttempt l ((b.bseq + 65535) % 65536) else s

/-- LINK_DOWN (R106): an episode, or the receiver's NAK state, has lasted tREPLAY_MAX. -/
def Ctl.downByTime (s : Ctl) (l : Nat) : Ctl :=
  let k := s.link l
  if s.linkState l ≠ LanSt.UP then s
  else if k.episodeFirst.isSome ∧ (!k.nakState ∨ k.episodeNs ≤ k.nakNs) then s.linkDown l 2
  else if k.nakState then s.linkDown l 3
  else s

/-! ## The flit stream (R94, R95) -/

/-- Parse state of a flit stream, with the packets completed and the headers rejected. -/
structure FlitSt where
  part : List Byte := []
  resync : Bool := false
  done : List Pkt := []
  bad : List Pkt := []

/-- A header that R95 lets stand. -/
def headerOk (p : Pkt) : Bool := p.hdrCheck = crc16 p.hdrBytes && typeOk p

/-- Take the bytes gathered so far: reject a bad header, complete a whole packet. -/
def FlitSt.settle (k : FlitSt) : FlitSt :=
  if k.part.length < 32 then k
  else
    let h := Pkt.ofHeader (leAt k.part 0 8) (leAt k.part 8 8) (leAt k.part 16 8) (leAt k.part 24 8)
    if k.part.length = 32 then
      (if headerOk h then k else { k with part := [], resync := true, bad := k.bad ++ [h] })
    else if h.size ≤ k.part.length then { k with part := [], done := k.done ++ [Pkt.ofBytes k.part] }
    else k

/-- One granule of a non-Zenith flit; `start` tells that START names it. -/
def FlitSt.granule (k : FlitSt) (g : List Byte) (start : Bool) : FlitSt :=
  let idle := leAt g 0 1 % 64 == 0
  if k.resync then (if start ∧ !idle then ({ k with resync := false, part := g } : FlitSt) else k)
  else if k.part.isEmpty then (if idle then k else { k with part := g })
  else ({ k with part := k.part ++ g } : FlitSt).settle

/-- One flit: bit 4 of START says that a header starts in it, bits [3:0] at which granule. -/
def FlitSt.flit (k : FlitSt) (bs : List Byte) (start : Nat) : FlitSt :=
  (List.range 16).foldl (fun k i => k.granule ((bs.drop (16 * i)).take 16) (nbit start 4 && start % 16 == i)) k

/-- A Zenith flit holds one ZENITH packet from granule 0. -/
def FlitSt.zenith (k : FlitSt) (bs : List Byte) : FlitSt :=
  let p := Pkt.ofBytes bs
  if headerOk p && p.typ = Typ.ZENITH then { k with done := k.done ++ [p] } else { k with bad := k.bad ++ [p] }

/-- START of flit i out of header words 1 to 3. -/
def startOf (data : List Byte) (i : Nat) : Nat :=
  if i < 12 then nfld (leAt data 8 8) (5 * i) 5
  else if i < 24 then nfld (leAt data 16 8) (5 * (i - 12)) 5
  else nfld (leAt data 24 8) 0 5

def flitBytes (data : List Byte) (i : Nat) : List Byte := (data.drop (64 + 256 * i)).take 256

def parseFlits (k : FlitSt) (data : List Byte) : FlitSt :=
  let zmask := nfld (leAt data 0 8) 36 25
  (List.range 25).foldl (fun k i =>
    if nbit zmask i then k.zenith (flitBytes data i) else k.flit (flitBytes data i) (startOf data i)) k

/-- The ingress check of a packet's payload as its tail arrives (R336). -/
def Ctl.arrive (s : Ctl) (l : Nat) (p : Pkt) : Ctl :=
  let ok := p.chkGood || decide (p.chkSel = 3)
  let s := if !p.poison && !ok then
      (s.sat FLT_CHK_COUNT.INGRESS 1).raise Src.CHK_INGRESS
        { domain := some p.domain, link := some l, port := some l } p.w0 p.w1
    else s
  s.modLink l (fun k => { k with rxq := k.rxq ++ [{ pkt := { p with poison := p.poison || !ok }, inp := l, chkOk := ok && !p.poison }] })

/-- The flits of an accepted block. -/
def Ctl.takeFlits (s : Ctl) (l : Nat) (data : List Byte) : Ctl :=
  let k := s.link l
  let r := parseFlits { part := k.partial_, resync := k.resync } data
  let s := s.setLink l { k with partial_ := r.part, resync := r.resync }
  let s := r.bad.foldl (fun s p => s.hdrBad l p) s
  r.done.foldl (fun s p => s.arrive l p) s

/-- A NULL block holds nothing but IDLE granules. -/
def nullClean (data : List Byte) : Bool :=
  nfld (leAt data 0 8) 36 25 == 0 && (List.range 400).all (fun i => leAt data (64 + 16 * i) 1 % 64 == 0)

/-! ## Receiving a block (R93, R104) -/

def creditsOf (data : List Byte) : List Nat := lanes8.map (fun v => leAt data (40 + 2 * v) 2)

/-- A bad block: NAK state; the first of a stream sends the link back to ALIGN (R91). -/
def Ctl.badBlock (s : Ctl) (l : Nat) : Ctl :=
  let k := s.link l
  if k.firstBlock then
    let s := s.modLink l (fun k => { k with readyTx := 0, firstBlock := false })
    let s := s.freshWords l
    if k.fromIdle then
      ((s.modLink l (fun k => { k with sub := LanSt.ALIGN })).setLinkState l LanSt.RETUNE).sendFrame l LanSt.RETUNE
    else (s.setLinkState l LanSt.ALIGN).sendFrame l LanSt.ALIGN
  else if s.linkState l = LanSt.UP ∧ !k.nakState then
    (s.setLink l { k with nakState := true, nakNs := s.ns }).replayBit l
  else s

/-- A good block in UP. -/
def Ctl.goodBlock (s : Ctl) (l : Nat) (data : List Byte) : Ctl :=
  let w0 := leAt data 0 8
  let null := nbit w0 34
  let seq := nfld w0 0 16
  let k := s.link l
  if !null ∧ seq ≠ k.expect then s
  else
    let s := if null then
        (if nullClean data then s
         else (s.sat (LNK_SCREEN.HDR_BAD l) 1).raise Src.HDR_BAD { link := some l, port := some l } (s.rdWord (LNK_STATUS.addr l)))
      else
        ((s.setLink l { k with expect := (k.expect + 1) % 65536, anyGood := true, nakState := false }).replayBit l).takeFlits l data
    let s := s.takeCredits l (creditsOf data)
    let ack := nfld w0 16 16
    let s := s.takeAck l ack
    if nbit w0 32 then s.takeNak l ack else s

/-- A block arrives on a link in CAPS or UP: logical lanes, descrambling, decoding and LCRC. -/
def Ctl.blockReceive (s : Ctl) (l : Nat) (lanes : List (List Byte)) : Ctl :=
  let st := s.linkState l
  if st ≠ LanSt.CAPS ∧ st ≠ LanSt.UP then s
  else
    let rev := s.bit (LNK_TRAIN.REVERSED l)
    let phys (i : Nat) : Nat := if rev then 7 - i else i
    let k := s.link l
    let ds := lanes8.map (fun i => scrambleBytes (k.scr.getD i (scrSeed i)) (lanes.getD (phys i) []))
    let dec := decodeBlock (ds.map (fun x => x.2))
    let s := s.setLink l { k with scr := ds.map (fun x => x.1) }
    let s := lanes8.foldl (fun s i =>
      let n := dec.fixed.getD i 0
      (s.inc (LANE_STATUS.FEC_SYM l (phys i)) n).modLane l (phys i) (fun a => { a with fecWin := a.fecWin + n })) s
    match dec.data with
    | none => s.badBlock l
    | some data =>
      if crc32c ((data.take 56) ++ data.drop 64) ≠ leAt data 56 4 then s.badBlock l
      else
        let s := s.modLink l (fun k => { k with firstBlock := false })
        let w0 := leAt data 0 8
        if st = LanSt.CAPS then
          (if nbit w0 34 && nbit w0 35 then s.modLink l (fun k => { k with capsRx := (List.range 6).map (fun i => leAt data (8 + 8 * i) 8) }) else s)
        else if nbit w0 35 then s
        else s.goodBlock l data

/-! ## Capability exchange (R118, R119) -/

/-- The roles form an allowed pair: edge with accelerator, twin with twin, trunk with trunk or
unassigned, unassigned with unassigned. -/
def rolePair (own partner : Nat) : Bool :=
  match own with
  | 1 => partner = 4
  | 2 => partner = 2
  | 3 => partner = 3 || partner = 0
  | 0 => partner = 0 || partner = 3
  | _ => false

/-- The failed check of R119, 0 where all pass. -/
def Ctl.capsCheck (s : Ctl) (l : Nat) (w1 : Nat) : Nat :=
  if nfld w1 8 8 ≠ 1 then 1
  else if !rolePair (s.rd (LNK_CTRL.ROLE l)) (nfld w1 36 4) then 2
  else if nfld w1 16 12 ≠ 0xFFF ∧ nfld w1 16 12 = s.devNum then 3
  else 0

def Ctl.capsFail (s : Ctl) (l code : Nat) : Ctl :=
  (s.wr (LNK_STATUS.CAPS_FAIL l) code).raiseLink Src.CAPS_MISMATCH l

/-- The exchange completes: RTT, the signatures compared (R370), the flit stream at sequence 0 with
the partner's initial credits. -/
def Ctl.capsComplete (s : Ctl) (l : Nat) : Ctl :=
  let k := s.link l
  let s := s.wr (LNK_STATUS.RTT l) (min 65535 k.rttMin)
  let differ := s.rd (LNK_PARTNER.DEV l) ≠ 0xFFF ∧ s.rdWord (LNK_PARTNER_SIG.addr l) ≠ s.rdWord GLB_DET_SIG.addr
  let s := if differ then (s.wrB (LNK_STATUS.SIG_DIFF l) true).raise Src.DET_SIG_DIFF { link := some l, port := some l } else s
  let s := s.setLink l { k with capsDone := true, txBseq := 0, expect := 0, anyGood := false, stored := [], attempts := 0,
                                episodeFirst := none, nakAck := none, nakState := false, credits := k.capsCred,
                                lastCred := [], returned := [], firstBlock := false }
  s.enterUp l true

/-- The record of a CAPS block, with the time its echo was sent and the time it arrived. -/
def Ctl.capsRecord (s : Ctl) (l sentNs rxNs : Nat) : Ctl :=
  let k := s.link l
  if s.linkState l ≠ LanSt.CAPS ∨ k.capsRx.isEmpty then s
  else
    let w (i : Nat) : Nat := k.capsRx.getD i 0
    let s := s.wrWord (LNK_PARTNER.addr l) (w 0 % 2 ^ 48)
    let s := s.wrWord (LNK_PARTNER_SIG.addr l) (w 2)
    let same := [w 0, w 2, w 3, w 4, w 5]
    let turn := nfld (w 1) 32 16
    let echoed := decide (nfld (w 1) 16 16 < k.capsSeq ∧ sentNs + turn ≤ rxNs)
    let rtt := rxNs - sentNs - turn
    let s := s.setLink l { k with
                                 capsRx := [], capsEcho := nfld (w 1) 0 16, capsLast := same,
                                 capsSame := if k.capsLast = same then k.capsSame + 1 else 1,
                                 capsCred := [nfld (w 4) 0 16, nfld (w 4) 16 16, nfld (w 4) 32 16, nfld (w 4) 48 16,
                                 nfld (w 5) 0 16, nfld (w 5) 16 16, nfld (w 5) 32 16, nfld (w 5) 48 16],
                                 rttMin := if !echoed then k.rttMin else if k.rttCount = 0 then rtt else min k.rttMin rtt,
                                 rttCount := if echoed then k.rttCount + 1 else k.rttCount }
    if s.rd (LNK_STATUS.CAPS_FAIL l) ≠ 0 ∨ (s.link l).capsSame < 2 then s.sendCaps l 0
    else
      let f := s.capsCheck l (w 0)
      if f ≠ 0 then s.capsFail l f
      else if 4 ≤ (s.link l).rttCount then s.capsComplete l
      else s.sendCaps l 0

/-- CAPS_RECORD (R118). -/
def execCapsRecord (l : Fin 48) (sentNs rxNs : Nat) (s : State) : Host.Outcome State Fault Refusal :=
  s.ctlNext (fun c => c.capsRecord l.val sentNs rxNs)

/-- CAPS_TIMEOUT (R118): 20 microseconds in CAPS without completing. -/
def execCapsTimeout (l : Fin 48) (s : State) : Host.Outcome State Fault Refusal :=
  s.ctlNext (fun c =>
    if c.linkState l.val = LanSt.CAPS ∧ c.rd (LNK_STATUS.CAPS_FAIL l.val) = 0 then c.capsFail l.val 4 else c)

end Sys2Proof.Machine
end

