-- ==== Sys2Proof/Machine/Faults.lean ====
section
/-!
DEFINITION. The fault collector's commands (spec/13_integrity_faults.md): events reaching it, the
record writer, forced and firmware events, and the clears of its registers.
-/

namespace Sys2Proof.Machine

/-! ## Events -/

/-- The subject of a detector's report. -/
def hwSubj (e : HwEvent) : Subj :=
  { die := e.die.map Fin.val, slice := e.slice.map Fin.val, link := e.link.map Fin.val }

/-- One detector's report. A routing word whose parity fails (`d4` its BAR0 address) is met by the next
packet that looks it up (R148); every other report is an event. -/
def Ctl.detect (s : Ctl) (e : HwEvent) : Ctl :=
  let a := e.d4.toNat
  if e.src.toNat = Src.ROUTE_PARITY then
    (if 0x0500_0000 ≤ a ∧ a < 0x0580_8000 ∧ a % 8 = 0 ∧ !s.sw.badParity.contains a then
      { s with sw := { s.sw with badParity := a :: s.sw.badParity } } else s)
  else s.raise e.src.toNat (hwSubj e) a

/-- FAULT_EVENT (R347): detectors without a command of their own raise their events, and the events
of the oldest stamp in flight reach the collector. -/
def execFaultEvent (evs : List HwEvent) (s : State) : Host.Outcome State Fault Refusal :=
  s.ctlNext (fun c => (evs.foldl Ctl.detect c).collectOldest)

/-- The subject of FLT_FORCE_ARG. -/
def Ctl.forceSubj (s : Ctl) : Subj :=
  { domain := if s.bit FLT_FORCE_ARG.DOMAIN_V then some (s.rd FLT_FORCE_ARG.DOMAIN) else none,
    slice := if s.bit FLT_FORCE_ARG.SLICE_V then some (s.rd FLT_FORCE_ARG.SLICE) else none,
    link := if s.bit FLT_FORCE_ARG.LINK_V then some (s.rd FLT_FORCE_ARG.LINK) else none,
    stack := if s.bit FLT_FORCE_ARG.STACK_V then some (s.rd FLT_FORCE_ARG.STACK) else none }

/-- An event with a mark: forced (R358) or from firmware (R359). A reserved source raises nothing. -/
def Ctl.raiseMarked (s : Ctl) (e : Event) : Ctl :=
  match srcSev e.src with
  | none => s
  | some _ => { s with flt := { s.flt with inflight := s.flt.inflight ++ [{ e with slot := s.now, cyc := s.cyc }] } }

/-- Writing FLT_FORCEi: every bit set raises its source once (R358). -/
def Ctl.fltForce (s : Ctl) (i v : Nat) : Ctl :=
  (bitsOf 64 v).foldl (fun s j => s.raiseMarked { src := 64 * i + j, subj := s.forceSubj, forced := true }) s

/-- FLT_FW_REPORT (R359): firmware reports source 960 + SOURCE. -/
def execFltFwReport (v : W64) (s : State) : Host.Outcome State Fault Refusal :=
  s.ctlNext (fun c => c.raiseMarked { src := 960 + getFld v 0 6, d4 := getFld v 32 32, fw := true })

/-! ## The record writer (R349-R352) -/

/-- The pending source that follows the one last written, wrapping from 1,023 to 0. -/
def nextPend (last : Nat) (l : List PendSrc) : Option PendSrc :=
  let key (p : PendSrc) : Nat := (p.src + 1023 - last) % 1024
  l.foldl (fun b p =>
    match b with
    | none => some p
    | some q => if key p < key q then some p else some q) none

/-- Word 0 of a record, with VALID. -/
def recWord0 (p : PendSrc) (afterDrop : Bool) : Nat :=
  let e := p.first
  e.src + e.sev <<< 10 + e.level <<< 12 + (b2n e.forced) <<< 14 + (b2n e.fw) <<< 15 + (e.cyc % 512) <<< 16
    + (b2n e.same) <<< 25 + (b2n afterDrop) <<< 26 + (p.count % 65536) <<< 32 + (e.react % 16) <<< 48 + 1 <<< 63

def ringAddr (i : Nat) : Nat := 0x2_8000 + (i % 256) * 0x40

def Ctl.ringFull (s : Ctl) : Bool := (s.rd FLT_RING_HEAD.HEAD + 512 - s.rd FLT_RING_TAIL.TAIL) % 512 == 256

/-- The writer takes the next pending source: its record, or a drop on a full ring. -/
def Ctl.recordWrite (s : Ctl) : Ctl :=
  match nextPend s.flt.lastSrc s.flt.pend with
  | none => s
  | some p =>
    let s := s.wrB (FLT_SRC.PENDING p.src) false
    let full := s.ringFull
    let after := s.flt.afterDrop
    let s := { s with flt := { s.flt with pend := s.flt.pend.filter (fun q => q.src != p.src), lastSrc := p.src, afterDrop := full } }
    let s :=
      if full then
        (s.sat FLT_DROPPED.EVENTS p.count).wr FLT_DROPPED.LAST_SOURCE p.src
      else
        let a := ringAddr (s.rd FLT_RING_HEAD.HEAD)
        let e := p.first
        let ws := [recWord0 p after, e.slot % 2 ^ 56, e.subj.word2, e.subj.word3, e.d4, e.d5, e.d6, e.d7]
        let s := (List.range 8).foldl (fun s i => s.wrWord (a + 8 * i) (ws.getD i 0)) s
        s.inc FLT_RING_HEAD.HEAD 1
    s.fltRefresh

/-- RECORD_WRITE (R351). -/
def execRecordWrite (s : State) : Host.Outcome State Fault Refusal := s.ctlNext Ctl.recordWrite

/-! ## Clears (R348, R363) -/

def Ctl.clearSource (s : Ctl) (src : Nat) : Ctl :=
  ((s.wrB (FLT_SRC.ACTIVE src) false).wr (FLT_SRC.COUNT src) 0).fltRefresh

def Ctl.clearAll (s : Ctl) : Ctl :=
  let srcs := (s.listed 0x24000 0x26000).map (fun e => (e.1 - 0x24000) / 8)
  (srcs.foldl (fun s x => (s.wrB (FLT_SRC.ACTIVE x) false).wr (FLT_SRC.COUNT x) 0) s).fltRefresh

def Ctl.clearFirst (s : Ctl) : Ctl :=
  [FLT_FIRST.addr, FLT_FIRST_TIME.addr, FLT_NEXT.addr, FLT_NEXT_TIME.addr].foldl (fun s a => s.wrWord a 0) s

def Ctl.clearDropped (s : Ctl) : Ctl := s.wrWord FLT_DROPPED.addr 0

/-- Advance FLT_RING_TAIL, unless it would overtake HEAD (R353); true where it was refused. -/
def Ctl.ringTail (s : Ctl) (v : Nat) : Bool × Ctl :=
  if 256 < (s.rd FLT_RING_HEAD.HEAD + 512 - v % 512) % 512 then (true, s)
  else (false, s.wr FLT_RING_TAIL.TAIL v)

def Ctl.chkClear (s : Ctl) : Ctl := s.wrWord FLT_CHK_COUNT.addr 0

/-- A parity failure of a collector word asks for the safe state directly (R360). -/
def Ctl.collectorParity (s : Ctl) (off : Nat) : Ctl :=
  let s := s.wrB FLT_STATUS.PARITY true
  let s := { s with flt := { s.flt with badWord := some off, safeReq := match s.flt.safeReq with | some x => some x | none => some 0 } }
  s.raise Src.COLLECTOR_PARITY {} off

/-- COLLECTOR_PARITY (R360). -/
def execCollectorParity (off : BitVec 16) (s : State) : Host.Outcome State Fault Refusal :=
  s.ctlNext (fun c => c.collectorParity off.toNat)

end Sys2Proof.Machine
end

