-- ==== Sys2Proof/Machine/Memory.lean ====
section
/-!
DEFINITION. DRAM and its hubs (spec/10_memory_pools.md): decoding of device addresses, poison and
retirement, stack loss and relocation, refresh windows, and the commands of the hubs.
-/

namespace Sys2Proof.Machine

/-! ## Device addresses (R268, R269) -/

def dramSize : Nat := 1536 * 2 ^ 30
def shardSize : Nat := 1280 * 2 ^ 30
def poolBase : Nat := 0x140_0000_0000
def progBase : Nat := 0x141_0000_0000
def reservedBase : Nat := 0x170_0000_0000

/-- Table MEM-2. -/
def stackOf (da : Nat) : Nat := da / 256 % 16
def chanOf (da : Nat) : Nat := da / 4096 % 16
def frameOf (da : Nat) : Nat := da / 65536

/-- First spare frame: the top 1 GiB of the reserved region (R280). -/
def spareFrame : Nat := (dramSize - 2 ^ 30) / 65536

def inRanges (l : List (Nat × Nat)) (x : Nat) : Bool := l.any (fun r => decide (r.1 ≤ x) && decide (x < r.2))

def rangesSize (l : List (Nat × Nat)) : Nat := (l.map (fun r => r.2 - r.1)).foldl (· + ·) 0

def Ctl.modMem (s : Ctl) (f : MemSt → MemSt) : Ctl := { s with mem := f s.mem }

/-! ## Stacks (R281, R282) -/

/-- State of a stack: 0 ACTIVE, 1 FAILED, 2 RELOCATING, 3 RELOCATED. -/
def Ctl.stackState (s : Ctl) (k : Nat) : Nat := nfld (s.rd MEM_STATUS.STACK) (2 * k) 2

def Ctl.setStackState (s : Ctl) (k v : Nat) : Ctl :=
  s.setWord MEM_STATUS.addr (setFld (s.word MEM_STATUS.addr) (2 * k) 2 v)

/-- Position of a used frame among the used frames, in ascending order. -/
def usedIndex : List (Nat × Nat) → Nat → Nat
  | [], _ => 0
  | (a, b) :: t, f => if f < b then f - a else (b - a) + usedIndex t f

/-- The surviving stack that holds a granule moved from the relocated stack (R282). -/
def Ctl.relocHost (s : Ctl) (da : Nat) : Option Nat :=
  match s.mem.reloc with
  | none => none
  | some k =>
    if stackOf da = k ∧ inRanges s.mem.used (frameOf da) then
      some (((List.range 16).filter (fun j => j != k)).getD (usedIndex s.mem.used (frameOf da) % 15) 0)
    else none

/-- A write to this device address is dropped (R281). -/
def Ctl.daDropped (s : Ctl) (da : Nat) : Bool :=
  match s.relocHost da with
  | some h => s.stackState h != 0
  | none => s.stackState (stackOf da) != 0

/-- The half-granule `h` reads as poison: marked, on a failed stack, or moved and not yet refilled. -/
def Ctl.halfPoisoned (s : Ctl) (h : Nat) : Bool :=
  let da := 64 * h
  tblGet (fun _ => false) s.mem.poison h || s.daDropped da ||
    ((s.relocHost da).isSome && !tblGet (fun _ => false) s.mem.filled h)

/-- The half-granules of bytes `[da, da + n)`. -/
def halves (da n : Nat) : List Nat :=
  if n = 0 then [] else (List.range ((da + n - 1) / 64 - da / 64 + 1)).map (fun i => da / 64 + i)

def Ctl.rangePoisoned (s : Ctl) (da n : Nat) : Bool := (halves da n).any s.halfPoisoned

/-- The half-granules of frame `f` on stack `k`. -/
def frameHalves (f k : Nat) : List Nat :=
  (List.range 64).map (fun i => f * 1024 + i / 4 * 64 + k * 4 + i % 4)

/-- A moved half-granule has been refilled; RELOC_FRAMES counts the used frames that are (R282). -/
def Ctl.markFilled (s : Ctl) (h : Nat) : Ctl :=
  if tblGet (fun _ => false) s.mem.filled h then s
  else
    let s := s.modMem (fun m => { m with filled := tblPut (fun _ => false) m.filled h true })
    let hs := frameHalves (h / 1024) (stackOf (64 * h))
    if hs.all (fun x => tblGet (fun _ => false) s.mem.filled x) then s.inc MEM_SPARES.RELOC_FRAMES 1 else s

/-- What a write of `n` bytes at offset `o` of half-granule `h` does to the marks: only one that
covers all 64 bytes clears poison (R278). -/
def Ctl.markWrite (s : Ctl) (h o n : Nat) : Ctl :=
  if o = 0 ∧ n = 64 then
    let s := s.modMem (fun m => { m with poison := tblPut (fun _ => false) m.poison h false })
    if (s.relocHost (64 * h)).isSome then s.markFilled h else s
  else s

/-- Write bytes inside one half-granule. -/
def Dev.writeHalf (d : Dev) (da : Nat) (bs : List Byte) : Dev :=
  if d.ctl.daDropped da then d
  else { ctl := d.ctl.markWrite (da / 64) (da % 64) bs.length, ram := d.ram.setDramBytes da bs }

/-- Write bytes at a device address. -/
def Dev.writeDA (d : Dev) (da : Nat) (bs : List Byte) : Dev :=
  (halves da bs.length).foldl (fun d h =>
    let lo := max da (64 * h)
    let hi := min (da + bs.length) (64 * h + 64)
    d.writeHalf lo ((bs.drop (lo - da)).take (hi - lo))) d

/-- Read bytes at a device address, with poison. -/
def Dev.readDA (d : Dev) (da n : Nat) : List Byte × Bool := (d.ram.dramBytes da n, d.ctl.rangePoisoned da n)

/-! ## Allocations (R270) -/

/-- The shard and the program allocation of a domain as device-address ranges. -/
def Ctl.shardRange (s : Ctl) (d : Nat) : Nat × Nat :=
  let b := s.rd (MEM_DOM_SHARD.BASE_GIB d) * 2 ^ 30
  (b, b + s.rd (MEM_DOM_SHARD.SIZE_GIB d) * 2 ^ 30)

def Ctl.progRange (s : Ctl) (d : Nat) : Nat × Nat :=
  let b := progBase + s.rd (MEM_DOM_PROG.BASE_MIB d) * 2 ^ 20
  (b, b + (s.rd (MEM_DOM_PROG.GRAD_MIB d) + s.rd (MEM_DOM_PROG.SCRATCH_MIB d)) * 2 ^ 20)

def rangesOverlap (a b : Nat × Nat) : Bool := decide (a.1 < b.2) && decide (b.1 < a.2)

/-- The domains whose allocation fields are locked: those created (R293). -/
def Ctl.lockedDoms (s : Ctl) : List Nat := (List.range 64).filter s.created

/-- Insert a range into a list of ranges that rises. -/
def insRange (r : Nat × Nat) : List (Nat × Nat) → List (Nat × Nat)
  | [] => [r]
  | x :: t => if r.1 ≤ x.1 then r :: x :: t else x :: insRange r t

def sortRanges (l : List (Nat × Nat)) : List (Nat × Nat) := l.foldl (fun a r => insRange r a) []

/-- The used frames (R282): the locked allocations, the pool region and the reserved region. -/
def Ctl.usedRanges (s : Ctl) : List (Nat × Nat) :=
  let l := s.lockedDoms.map s.shardRange ++ s.lockedDoms.map s.progRange ++
    [(poolBase, progBase), (reservedBase, dramSize)]
  sortRanges ((l.filter (fun r => decide (r.1 < r.2))).map (fun r => (r.1 / 65536, r.2 / 65536)))

/-- Take `n` frames below `hi` outside the ranges (falling), from the highest downward. -/
def takeDown : List (Nat × Nat) → Nat → Nat → List (Nat × Nat)
  | [], hi, n => if n = 0 ∨ hi = 0 then [] else [(hi - min n hi, hi)]
  | (a, b) :: t, hi, n =>
    if n = 0 then []
    else
      let free := hi - b
      let k := min n free
      (if k = 0 then [] else [(hi - k, hi)]) ++ takeDown t a (n - k)

/-- A stack is lost (R281, R282). -/
def Ctl.stackFail (s : Ctl) (k da : Nat) : Ctl :=
  if s.stackState k = 1 then s
  else
    let first := (List.range 16).all (fun j => s.stackState j = 0)
    let s := s.setStackState k 1
    let s := s.raise (Src.STACK_FAIL k) { stack := some k } da (frameOf da)
    if !first then (s.wrB MEM_STATUS.DEGRADED true).wrB MEM_STATUS.MULTI true
    else
      let used := s.usedRanges
      let f := cdiv (rangesSize used) 15
      let shards := (used.filter (fun r => decide (r.2 ≤ shardSize / 65536))).reverse
      let at_ := takeDown shards (shardSize / 65536) f
      if rangesSize at_ < f then s.wrB MEM_STATUS.DEGRADED true
      else (s.setStackState k 2).modMem (fun m =>
        { m with reloc := some k, used := used, relocAt := at_, filled := [] })

/-! ## Errors and retirement (R277-R280) -/

/-- Retire a frame: a free spare takes its place; `k` is the stack of the failing half-granule. -/
def Ctl.retireFrame (s : Ctl) (da : Nat) (k : Option Nat) : Ctl :=
  let f := frameOf da
  if spareFrame ≤ f || (tblGet (fun _ => none) s.mem.retired f).isSome then s
  else
    let left := s.rd MEM_SPARES.SPARES_LEFT
    if left = 0 then s.raise (Src.FRAME_RETIRE (k.getD 0)) { stack := k } da (f + 2 ^ 32)
    else
      let s := s.wr MEM_SPARES.SPARES_LEFT (left - 1)
      let s := s.modMem (fun m => { m with retired := tblPut (fun _ => none) m.retired f (some (spareFrame + 16384 - left)) })
      let s := s.inc MEM_ECC.RETIRED 1
      let s := s.raise (Src.FRAME_RETIRE (k.getD 0)) { stack := k } da f
      match k with
      | none => s
      | some j =>
        let n := tblGet (fun _ => 0) s.mem.retCount j + 1
        let s := s.modMem (fun m => { m with retCount := tblPut (fun _ => 0) m.retCount j n })
        if n = 1024 then s.stackFail j da else s

/-- A corrected error (R277), and the retirement it may cause (R280). -/
def Ctl.dramCe (s : Ctl) (da : Nat) : Ctl :=
  let k := stackOf da
  let h := da / 64
  let s := s.sat MEM_ECC.CE 1
  let s := s.raiseOnce (Src.MEM_CE k) 0 { stack := some k } da (frameOf da)
  if s.mem.ceSeen.contains h then s
  else
    let s := s.modMem (fun m => { m with ceSeen := h :: m.ceSeen })
    let n := (s.mem.ceSeen.filter (fun x => x / 1024 = frameOf da)).length
    if max 1 (s.rd MEM_SCRUB.CE_RETIRE) ≤ n then s.retireFrame da (some k) else s

/-- An uncorrectable error (R278): the read that first detects it marks, counts, raises and retires;
four within a scrub period lose the stack (R281). -/
def Ctl.dramUe (s : Ctl) (da : Nat) : Ctl :=
  let k := stackOf da
  let h := da / 64
  if tblGet (fun _ => false) s.mem.poison h then s
  else
    let s := s.modMem (fun m => { m with poison := tblPut (fun _ => false) m.poison h true })
    let s := s.sat MEM_ECC.UE 1
    let s := s.raise (Src.MEM_UE k) { stack := some k } da (frameOf da)
    let s := s.retireFrame da (some k)
    let n := tblGet (fun _ => 0) s.mem.ueCount k + 1
    let s := s.modMem (fun m => { m with ueCount := tblPut (fun _ => 0) m.ueCount k n })
    if n = 4 then s.stackFail k da else s

/-- The hub's error check of one half-granule. -/
def Ctl.dramErr (s : Ctl) (da : Nat) (e : MemErr) : Ctl :=
  if s.daDropped da then s
  else match e with
    | .good => s
    | .ce => s.dramCe da
    | .ue => s.dramUe da

/-! ## The hubs' commands -/

/-- A hub serves a request: a write stores its bytes as far as its half-granule reaches, a read
returns the half-granule, corrected or poisoned. -/
def Dev.serveDram (d : Dev) (rq : DramReq) : Dev :=
  if dramSize ≤ rq.addr || d.ctl.mem.selfRefresh then d
  else
    match rq.write with
    | some bs => d.writeHalf rq.addr (bs.take (64 - rq.addr % 64))
    | none =>
      let d := d.onCtl (fun c => c.dramErr rq.addr rq.err)
      let (bs, p) := d.readDA (rq.addr / 64 * 64) 64
      d.onCtl (fun c => c.emit (.hub (rq.addr / 64 * 64) bs p))

/-- The request's channel is in its refresh window (R275). -/
def Ctl.refreshing (s : Ctl) (da : Nat) : Bool :=
  match s.mem.refresh with
  | some (g, t) => decide (chanOf da % 8 = g) && decide (s.ns < t)
  | none => false

/-- Serve the requests that a window held, once it has ended. -/
def Dev.serveHeld (d : Dev) : Dev :=
  let go := d.ctl.mem.held.filter (fun r => !d.ctl.refreshing r.addr)
  let stay := d.ctl.mem.held.filter (fun r => d.ctl.refreshing r.addr)
  let d := d.onCtl (fun c => c.modMem (fun m => { m with held := stay }))
  go.foldl Dev.serveDram d

/-- DRAM_ACCESS (R277): a request that meets its channel's refresh window waits for its end. -/
def execDramAccess (rq : DramReq) (s : State) : Host.Outcome State Fault Refusal :=
  s.devNext (fun d =>
    if d.ctl.refreshing rq.addr then
      d.onCtl (fun c => c.modMem (fun m => { m with held := m.held ++ [rq] }))
    else (d.serveHeld).serveDram rq)

/-- The patrol scrubber reads the next granule of an active stack; after the last one its pass is
complete and a scrub period ends (R279). The verdict is that of half-granule `h` of the granule. -/
def Ctl.patrol (s : Ctl) (h : Nat) (e : MemErr) : Ctl :=
  let da := s.mem.scrubPos * 256
  let s := if s.stackState (stackOf da) = 0 then s.dramErr (da + 64 * h) e else s
  if dramSize ≤ da + 256 then
    (s.inc MEM_SCRUB.PASSES 1).modMem (fun m => { m with scrubPos := 0, ceSeen := [], ueCount := [] })
  else s.modMem (fun m => { m with scrubPos := m.scrubPos + 1 })

/-- PATROL_SCRUB (R279). -/
def execPatrolScrub (h : Fin 4) (err : MemErr) (s : State) : Host.Outcome State Fault Refusal :=
  s.ctlNext (fun c => c.patrol h.val err)

/-- RELOCATION_DONE (R282). -/
def execRelocationDone (stack : Fin 16) (s : State) : Host.Outcome State Fault Refusal :=
  s.ctlNext (fun c =>
    if c.stackState stack.val = 2 ∧ rangesSize c.mem.used ≤ c.rd MEM_SPARES.RELOC_FRAMES then
      c.setStackState stack.val 3
    else c)

/-- REFRESH_WINDOW (R275): window `w` holds refresh group w mod 8 for 130 ns. -/
def execRefreshWindow (w : Fin 16) (s : State) : Host.Outcome State Fault Refusal :=
  s.devNext (fun d =>
    (d.onCtl (fun c => c.modMem (fun m => { m with refresh := some (w.val % 8, c.ns + 130) }))).serveHeld)

/-- CHANNEL_INTERFACE_LOST (R281). -/
def execChannelInterfaceLost (stack : Fin 16) (chan : Nat) (s : State) : Host.Outcome State Fault Refusal :=
  s.ctlNext (fun c => if chan < 16 then c.stackFail stack.val (stack.val * 256 + chan * 4096) else c)

/-- Retirement by software (R280): no half-granule has failed, so no stack is named. -/
def Ctl.retireBySoftware (s : Ctl) (v : Nat) : Ctl := s.retireFrame (v % 2 ^ 25 * 65536) none

end Sys2Proof.Machine
end

