-- ==== Sys2Proof/Machine/Store.lean ====
section
/-!
DEFINITION. The parameter space and shard layout (spec/07_parameter_store.md R184-R190) and the
domain windows (Tables PST-3 and MEM-3): where each byte of a domain window lies, and reading and
writing it.
-/

namespace Sys2Proof.Machine

/-! ## Layout (R184-R189) -/

def Ctl.pstOf (s : Ctl) (d : Nat) : PstDom := tblGet (fun _ => {}) s.pst d
def Ctl.setPst (s : Ctl) (d : Nat) (p : PstDom) : Ctl := { s with pst := tblPut (fun _ => {}) s.pst d p }
def Ctl.modPst (s : Ctl) (d : Nat) (f : PstDom → PstDom) : Ctl := s.setPst d (f (s.pstOf d))

/-- PST_STATUS.STATE: 0 OFF, 1 IDLE, 2 RUNNING, 3 PENDING, 4 FAILED, 5 PAUSED. -/
def Ctl.storeState (s : Ctl) (d : Nat) : Nat := s.rd (PST_STATUS.STATE d)
def Ctl.storeOff (s : Ctl) (d : Nat) : Bool := s.storeState d == 0

/-- CE. -/
def Ctl.ce (s : Ctl) (d : Nat) : Nat := s.rd (PST_LAYOUT.CHUNK_ELEMS d)
def Ctl.ringN (s : Ctl) (d : Nat) : Nat := s.rd (PST_LAYOUT.RING_N d)
def Ctl.ringPos (s : Ctl) (d : Nat) : Nat := s.rd (PST_LAYOUT.RING_POS d)

/-- Copies of the weights, and of each state word (R188). -/
def Ctl.wCopies (s : Ctl) (d : Nat) : Nat := if 1 ≤ s.rd (PST_LAYOUT.ROLLBACK d) then 2 else 1
def Ctl.sCopies (s : Ctl) (d : Nat) : Nat := if s.rd (PST_LAYOUT.ROLLBACK d) = 2 then 2 else 1
/-- Bytes of a stored state element. -/
def Ctl.sBytes (s : Ctl) (d : Nat) : Nat := if s.bit (PST_LAYOUT.STATE_FMT d) then 2 else 4

/-- RB. -/
def Ctl.recBytes (s : Ctl) (d : Nat) : Nat :=
  s.ce d * (4 * s.wCopies d + s.sBytes d * s.rd (PST_LAYOUT.STATE_WORDS d) * s.sCopies d)

/-- Offset in a record of copy `c` of the weights. -/
def Ctl.wOff (s : Ctl) (d : Nat) (c : Bool) : Nat := if s.wCopies d = 2 then b2n c * (4 * s.ce d) else 0

/-- Offset in a record of copy `c` of state word `j`. -/
def Ctl.sOff (s : Ctl) (d j : Nat) (c : Bool) : Nat :=
  4 * s.ce d * s.wCopies d + j * (s.sBytes d * s.ce d * s.sCopies d)
    + (if s.sCopies d = 2 then b2n c * (s.sBytes d * s.ce d) else 0)

/-- Device address of record `k`. -/
def Ctl.recBase (s : Ctl) (d k : Nat) : Nat := (s.shardRange d).1 + k * s.recBytes d

def Ctl.chunkSt (s : Ctl) (d k : Nat) : ChunkSt := tblGet (fun _ => {}) (s.pstOf d).chunks k
def Ctl.setChunkSt (s : Ctl) (d k : Nat) (x : ChunkSt) : Ctl :=
  s.modPst d (fun p => { p with chunks := tblPut (fun _ => {}) p.chunks k x })

/-- Which copy holds a record's committed weights, if any (R189). -/
def Ctl.committedCopy (s : Ctl) (d k : Nat) : Option Bool :=
  let c := s.chunkSt d k
  if c.stamp ≤ s.rd (PST_STEP.COMMITTED d) then some c.cur
  else if 1 ≤ s.rd (PST_LAYOUT.ROLLBACK d) then some (!c.cur)
  else none

/-! ## Tensors (Table PST-1) -/

/-- A tensor-table entry, decoded. -/
structure Tensor where
  base : Nat
  len : Nat
  lbase : Nat
  owner : Nat
  prog : Nat
  hset : Nat
  clip : Nat
  decay : Bool
  valid : Bool
  group : Nat
  rows : Nat
  /-- some reserved field is not 0 -/
  resv : Bool

def tensorAddr (d t : Nat) : Nat := 0x0800_0000 + d * 0x8_0000 + t * 0x20

def Ctl.tensor (s : Ctl) (d t : Nat) : Tensor :=
  let a := tensorAddr d t
  let w0 := s.rdWord a; let w1 := s.rdWord (a + 8); let w2 := s.rdWord (a + 16); let w3 := s.rdWord (a + 24)
  { base := nfld w0 0 50, len := nfld w1 0 40, lbase := nfld w2 0 32, owner := nfld w2 32 12, prog := nfld w2 48 16,
    hset := nfld w3 0 8, clip := nfld w3 8 2, decay := nbit w3 10, valid := nbit w3 11, group := nfld w3 12 12,
    rows := nfld w3 32 24,
    resv := nfld w0 50 14 != 0 || nfld w1 40 24 != 0 || nfld w2 44 4 != 0 || nfld w3 24 8 != 0 || nfld w3 56 8 != 0 }

/-- The VALID tensors of a domain, in ascending number. -/
def Ctl.tensors (s : Ctl) (d : Nat) : List (Nat × Tensor) :=
  let b := tensorAddr d 0
  let ts := (s.listed b (b + 0x8_0000)).filter (fun e => (e.1 - b) % 32 == 24 && nbit e.2.toNat 11)
  ts.map (fun e => ((e.1 - b) / 32, s.tensor d ((e.1 - b) / 32)))

/-- Chunks of a tensor, its first global chunk. -/
def Tensor.chunks (t : Tensor) (ce : Nat) : Nat := cdiv t.len (max 1 ce)
def Tensor.first (t : Tensor) (ce : Nat) : Nat := t.base / max 1 ce

def Tensor.striped (t : Tensor) : Bool := t.owner == 0xFFF

/-- Local index of global chunk `g` of a tensor where this device owns it (R185). -/
def Ctl.localOf (s : Ctl) (d : Nat) (t : Tensor) (g : Nat) : Option Nat :=
  let ce := s.ce d
  let n := max 1 (s.ringN d)
  if g < t.first ce ∨ t.first ce + t.chunks ce ≤ g then none
  else if t.striped then
    (if g % n = s.ringPos d then some (t.lbase + (g - t.first ce) / n) else none)
  else if t.owner = s.ringPos d then some (t.lbase + (g - t.first ce))
  else none

/-- The owned chunk with a global number. -/
def Ctl.ownedChunk (s : Ctl) (d g : Nat) : Option ChunkId :=
  (s.tensors d).findSome? (fun (t, x) => (s.localOf d x g).map (fun k => { t := t, k := k, g := g }))

/-- The owned chunks of a tensor, in ascending local index. -/
def Ctl.ownedOf (s : Ctl) (d t : Nat) : List ChunkId :=
  let x := s.tensor d t
  let ce := s.ce d
  ((List.range (x.chunks ce)).map (fun i => x.first ce + i)).filterMap (fun g =>
    (s.localOf d x g).map (fun k => { t := t, k := k, g := g }))

/-- Gradient slot of a record, and its device address (R191, R271). -/
def Ctl.gradSlot (s : Ctl) (d k : Nat) : Nat := k % max 1 (s.rd (PST_SHARD.GRAD_SLOTS d))
def Ctl.gradAddr (s : Ctl) (d k : Nat) : Nat := (s.progRange d).1 + s.gradSlot d k * s.ce d * 4

/-- Start of the scratch area. -/
def Ctl.scratchBase (s : Ctl) (d : Nat) : Nat := (s.progRange d).1 + s.rd (MEM_DOM_PROG.GRAD_MIB d) * 2 ^ 20

/-- D0: bytes of the records at the start of the shard allocation. -/
def Ctl.dataBase (s : Ctl) (d : Nat) : Nat :=
  if s.storeOff d then 0 else s.rd (PST_SHARD.LOCAL_CHUNKS d) * s.recBytes d

/-! ## Windows (R190, R271, R272) -/

/-- Where a byte of a domain window lies. -/
inductive Loc where
  | dram (da : Nat)
  /-- byte `b` of a BF16 state element that lies at `da`, read as FP32 -/
  | half (da b : Nat)
  /-- byte `b` of the partial or the global sum of squares of tensor `t` -/
  | norm (glob : Bool) (t b : Nat)
  /-- no committed copy (Table PST-3) -/
  | busy
  /-- outside the domain's allocation -/
  | out
deriving DecidableEq, Repr

def winOf (a : Nat) : Nat := a / 2 ^ 52
def winOff (a : Nat) : Nat := a % 2 ^ 52

/-- The location of one byte of a domain window. -/
def Ctl.loc (s : Ctl) (d a : Nat) : Loc :=
  let w := winOf a
  let o := winOff a
  let p := o / 4
  let b := o % 4
  if w = 8 then
    (if o + s.dataBase d < s.rd (MEM_DOM_SHARD.SIZE_GIB d) * 2 ^ 30 then .dram ((s.shardRange d).1 + s.dataBase d + o) else .out)
  else if w = 9 then
    (if o < s.rd (MEM_DOM_PROG.SCRATCH_MIB d) * 2 ^ 20 then .dram (s.scratchBase d + o) else .out)
  else if s.storeOff d || 8 ≤ w then .out
  else if w = 3 then
    (if o < 65536 then .norm false p b
     else if 0x1_0000_0000 ≤ o ∧ o < 0x1_0001_0000 then .norm true (p - 0x4000_0000) b
     else .out)
  else
    let ce := max 1 (s.ce d)
    match s.ownedChunk d (p / ce) with
    | none => .out
    | some c =>
      let e := p % ce
      let cur := (s.chunkSt d c.k).cur
      if w = 0 then .dram (s.recBase d c.k + s.wOff d cur + 4 * e + b)
      else if w = 1 then
        (match s.committedCopy d c.k with
         | some x => .dram (s.recBase d c.k + s.wOff d x + 4 * e + b)
         | none => .busy)
      else if w = 2 then .dram (s.gradAddr d c.k + 4 * e + b)
      else if s.rd (PST_LAYOUT.STATE_WORDS d) ≤ w - 4 then .out
      else
        let da := s.recBase d c.k + s.sOff d (w - 4) cur + s.sBytes d * e
        if s.sBytes d = 2 then .half da b else .dram (da + b)

/-- A tensor's partial and global sum of squares as the NORM window shows them: the step's that is
in progress, +0 where there is none yet. -/
def Ctl.normOf (s : Ctl) (d : Nat) (glob : Bool) (t : Nat) : Nat :=
  let a := (s.pstOf d).acc
  (tblGet (fun _ => none) (if glob then a.globals else a.partials) t).getD 0

/-- One byte of a domain window and whether it is poisoned; a byte with no location reads 0. -/
def Dev.winByte (d : Dev) (dom a : Nat) : Byte × Bool :=
  match d.ctl.loc dom a with
  | .dram da => (d.ram.dramByte da, d.ctl.halfPoisoned (da / 64))
  | .half da b => (if b < 2 then 0 else d.ram.dramByte (da + b - 2), d.ctl.halfPoisoned (da / 64))
  | .norm g t b => (((toBytes 4 (d.ctl.normOf dom g t)).getD b 0), false)
  | .busy => (0, false)
  | .out => (0, false)

def Ctl.winLocs (s : Ctl) (d a n : Nat) : List Loc := (List.range n).map (fun i => s.loc d (a + i))

/-- Read `n` bytes of a domain window: OK, DENIED outside the allocation, BUSY without a committed
copy. -/
def Dev.winRead (d : Dev) (dom a n : Nat) : Nat × List Byte × Bool :=
  let ls := d.ctl.winLocs dom a n
  if ls.contains .out then (St.DENIED, [], false)
  else if ls.contains .busy then (St.BUSY, [], false)
  else
    let bs := (List.range n).map (fun i => d.winByte dom (a + i))
    (St.OK, bs.map Prod.fst, bs.any Prod.snd)

/-- Merge four bytes of an FP32 state element into its BF16 place. -/
def Dev.writeStateElem (d : Dev) (dom da : Nat) (bs : List Byte) : Dev :=
  let st := d.ctl.bit (DOM_ARITH.STRICT dom)
  d.writeDA da (toBytes 2 (encodeFmt .bf16 st false (f32 st (ofBytes bs))))

/-- The byte belongs to a padding element of a record (R184), which holds +0 and is never written. -/
def Ctl.isPad (s : Ctl) (d a : Nat) : Bool :=
  let p := winOff a / 4
  decide (winOf a < 8) && winOf a != 3 &&
    (match s.ownedChunk d (p / max 1 (s.ce d)) with
     | some c => let t := s.tensor d c.t; decide (t.base + t.len ≤ p)
     | none => false)

/-- Store bytes at window locations already checked; consecutive bytes of DRAM go together. -/
def Dev.putWin (d : Dev) (dom a : Nat) (bs : List Byte) : Dev :=
  match d.ctl.loc dom a with
  | .half _ _ =>
    let e0 := a / 4
    let n := (a + bs.length - 1) / 4 - e0 + 1
    (List.range n).foldl (fun d i =>
      let ea := 4 * (e0 + i)
      let old := (List.range 4).map (fun j => (d.winByte dom (ea + j)).1)
      let new := (List.range 4).map (fun j =>
        if a ≤ ea + j ∧ ea + j < a + bs.length then bs.getD (ea + j - a) 0 else old.getD j 0)
      match d.ctl.loc dom ea with
      | .half da _ => if d.ctl.isPad dom ea then d else d.writeStateElem dom da new
      | _ => d) d
  | _ =>
    (List.range bs.length).foldl (fun d i =>
      match d.ctl.loc dom (a + i) with
      | .dram da =>
        if d.ctl.isPad dom (a + i) then d
        else if i = 0 ∨ da % 64 = 0 ∨ d.ctl.loc dom (a + i - 1) ≠ .dram (da - 1) then
          let n := (List.range (64 - da % 64)).takeWhile (fun j =>
            decide (i + j < bs.length) && !d.ctl.isPad dom (a + i + j) && decide (d.ctl.loc dom (a + i + j) = .dram (da + j)))
          d.writeHalf da ((bs.drop i).take n.length)
        else d
      | _ => d) d

/-- Write bytes by packet, burst or engine (Table PST-3): OK, or DENIED. PARAM and STATE are writable
in IDLE and PAUSED, DATA and SCRATCH at any time. -/
def Dev.winWrite (d : Dev) (dom a : Nat) (bs : List Byte) : Nat × Dev :=
  let w := winOf a
  let ls := d.ctl.winLocs dom a bs.length
  if bs.isEmpty then (St.OK, d)
  else if ls.contains .out then (St.DENIED, d)
  else if w = 1 ∨ w = 2 ∨ w = 3 then (St.DENIED, d)
  else if (w = 0 ∨ (4 ≤ w ∧ w < 8)) ∧ d.ctl.storeState dom ≠ 1 ∧ d.ctl.storeState dom ≠ 5 then (St.DENIED, d)
  else (St.OK, d.putWin dom a bs)

/-- The access lies outside the domain's allocation (R272). -/
def Ctl.winOut (s : Ctl) (d a n : Nat) : Bool := (s.winLocs d a n).contains .out

/-- Count and report an access outside the allocation (R272). -/
def Ctl.memBound (s : Ctl) (d a : Nat) : Ctl :=
  (s.sat MEM_ECC.BOUND 1).raiseOnce Src.MEM_BOUND 0 { domain := some d } a

/-- The collective page (R155, R175). -/
def colPage : Nat := 0x1FF_FFFF_FFFF_0000

/-! ## Elements of records -/

/-- The newest weights of a record, CE FP32 codes, with poison. -/
def Dev.weights (d : Dev) (dom k : Nat) (copy : Bool) : List Nat × Bool :=
  let ce := d.ctl.ce dom
  let (bs, p) := d.readDA (d.ctl.recBase dom k + d.ctl.wOff dom copy) (4 * ce)
  ((List.range ce).map (fun i => leAt bs (4 * i) 4), p)

/-- Copy `c` of state word `j` of a record, read exactly as FP32. -/
def Dev.stateWord (d : Dev) (dom k j : Nat) (c : Bool) : List Nat × Bool :=
  let ce := d.ctl.ce dom
  let b := d.ctl.sBytes dom
  let (bs, p) := d.readDA (d.ctl.recBase dom k + d.ctl.sOff dom j c) (b * ce)
  ((List.range ce).map (fun i => if b = 2 then leAt bs (2 * i) 2 * 65536 else leAt bs (4 * i) 4), p)

def Dev.putWeights (d : Dev) (dom k : Nat) (copy : Bool) (xs : List Nat) : Dev :=
  d.writeDA (d.ctl.recBase dom k + d.ctl.wOff dom copy) (xs.flatMap (toBytes 4))

/-- Write a state word in its stored format, by round to nearest even. -/
def Dev.putState (d : Dev) (dom k j : Nat) (c : Bool) (xs : List Nat) : Dev :=
  let st := d.ctl.bit (DOM_ARITH.STRICT dom)
  let b := d.ctl.sBytes dom
  d.writeDA (d.ctl.recBase dom k + d.ctl.sOff dom j c)
    (xs.flatMap (fun x => if b = 2 then toBytes 2 (encodeFmt .bf16 st false (f32 st x)) else toBytes 4 x))

/-- The gradient of a record in its slot. -/
def Dev.gradient (d : Dev) (dom k : Nat) : List Nat × Bool :=
  let ce := d.ctl.ce dom
  let (bs, p) := d.readDA (d.ctl.gradAddr dom k) (4 * ce)
  ((List.range ce).map (fun i => leAt bs (4 * i) 4), p)

end Sys2Proof.Machine
end

