-- ==== Sys2Proof/Machine/Pools.lean ====
section
/-!
DEFINITION. The buffer pool manager (spec/10_memory_pools.md R285-R290): requests with fallback and
waiting, releases by the owner, reclaiming, and the audit.
-/

namespace Sys2Proof.Machine

def Ctl.modPools (s : Ctl) (f : Pools → Pools) : Ctl := { s with pools := f s.pools }

/-- Buffer size of a class: slice classes 0-3, and the management pool (Table MEM-6). -/
def bufSize (pool cls : Nat) : Nat :=
  if pool = 64 then 8192 else match cls with | 0 => 256 | 1 => 2048 | 2 => 16384 | _ => 131072

/-- Buffers of a pool. -/
def bufCount (pool cls : Nat) : Nat :=
  if pool = 64 then 8192 else match cls with | 0 => 16384 | 1 => 4096 | 2 => 1024 | _ => 256

/-- The free-buffer field of a pool. -/
def poolFree (pool cls : Nat) : FRef :=
  if pool = 64 then POOL_MGMT.FREE
  else match cls with
    | 0 => POOL_FREE.FREE0 pool
    | 1 => POOL_FREE.FREE1 pool
    | 2 => POOL_FREE.FREE2 pool
    | _ => POOL_FREE.FREE3 pool

def poolWaiters (pool : Nat) : FRef := if pool = 64 then POOL_MGMT.WAITERS else POOL_STAT.WAITERS pool

/-- The pool group of an owner: its slice's, or the management pool (R286). -/
def ownerPool (o : Nat) : Nat := if o < 256 then o / 4 else 64

/-- An owner number of Table MEM-7. -/
def ownerOk (o : Nat) : Bool := decide (o < 259) && (decide (256 ≤ o) || o % 4 != 3)

/-- EARLY fails at once, the others wait (Table MEM-7). -/
def ownerWaits (o : Nat) : Bool := decide (256 ≤ o) || o % 4 != 1

/-- The smallest class whose buffers hold some bytes. -/
def fitClass (pool size : Nat) : Option Nat :=
  if pool = 64 then (if size ≤ 8192 then some 0 else none)
  else (List.range 4).find? (fun c => decide (size ≤ bufSize pool c))

/-- Recompute the audit of an owner (R290). -/
def Ctl.auditOwner (s : Ctl) (o : Nat) : Ctl :=
  let l := s.pools.held.filter (fun b => b.owner = o)
  let s := s.wr (POOL_AUDIT.OUT o) l.length
  match l with
  | [] => (s.wrB (POOL_AUDIT.AGED o) false).wr (POOL_AUDIT.OLDEST o) 0
  | b :: _ => (s.wrB (POOL_AUDIT.AGED o) b.aged).wr (POOL_AUDIT.OLDEST o) b.slot

def Ctl.waitersOf (s : Ctl) (p : Nat) : List Waiter := tblGet (fun _ => []) s.pools.waiters p
def Ctl.setWaiters (s : Ctl) (p : Nat) (l : List Waiter) : Ctl :=
  (s.modPools (fun q => { q with waiters := tblPut (fun _ => []) q.waiters p l })).wr (poolWaiters p) l.length

/-- The lowest free buffer of a pool. -/
def Ctl.freeIdx (s : Ctl) (p c : Nat) : Nat :=
  let used := (s.pools.held.filter (fun b => b.pool = p && b.cls = c)).map (fun b => b.idx)
  ((List.range (used.length + 1)).find? (fun i => !used.contains i)).getD 0

/-- Give a buffer to an owner. -/
def Ctl.giveBuf (s : Ctl) (o p c i : Nat) : Ctl :=
  let b : HeldBuf := { pool := p, cls := c, idx := i, owner := o, since := s.slots, slot := s.now }
  let s := s.modPools (fun q => { q with held := q.held ++ [b] })
  (s.auditOwner o).emit (.buffer o St.OK (some (p, c, i)))

/-- The class that a request is served from: its own, or the next larger slice pool with a free
buffer (R287). -/
def Ctl.serveClass (s : Ctl) (p c : Nat) : Option Nat :=
  ((if p = 64 then [0] else (List.range 4).filter (fun k => decide (c ≤ k)))).find? (fun k => s.rd (poolFree p k) != 0)

/-- A request for a buffer: true where it is given one, and false where it waits or fails. -/
def Ctl.requestBuf (s : Ctl) (o size : Nat) : Bool × Ctl :=
  let p := ownerPool o
  let fail (s : Ctl) : Ctl :=
    (if p = 64 then s else s.sat (POOL_STAT.NO_SLOT p) 1).emit (.buffer o St.NO_SLOT none)
  match fitClass p size with
  | none => (false, fail s)
  | some c =>
    match s.serveClass p c with
    | some k =>
      let s := if k = c then s else s.sat (POOL_STAT.FALLBACK p) 1
      let i := s.freeIdx p k
      (true, (s.wr (poolFree p k) (s.rd (poolFree p k) - 1)).giveBuf o p k i)
    | none =>
      if ownerWaits o then (false, s.setWaiters p (s.waitersOf p ++ [{ owner := o, size := size, since := s.slots }]))
      else (false, fail s)

/-- A released buffer goes to the earliest waiter that it fits, else back to its pool (R288). -/
def Ctl.freeBuf (s : Ctl) (b : HeldBuf) : Ctl :=
  let s := s.modPools (fun q => { q with held := dropFirst (fun x => x = b) q.held })
  let s := s.auditOwner b.owner
  let ws := s.waitersOf b.pool
  match ws.find? (fun w => decide (w.size ≤ bufSize b.pool b.cls)) with
  | some w =>
    let s := s.setWaiters b.pool (dropFirst (fun x => x = w) ws)
    let s := if fitClass b.pool w.size = some b.cls ∨ b.pool = 64 then s else s.sat (POOL_STAT.FALLBACK b.pool) 1
    s.giveBuf w.owner b.pool b.cls b.idx
  | none => s.wr (poolFree b.pool b.cls) (s.rd (poolFree b.pool b.cls) + 1)

/-- Detail words of a pool record (Table FLT-9, sources 41-43): buffer and pool, owner, releaser. -/
def poolD4 (cls idx : Nat) : Nat := idx % 65536 + cls % 4 * 65536

/-- The owner releases a buffer; any other release is refused (R289). -/
def Ctl.releaseBuf (s : Ctl) (o p c i : Nat) : Ctl :=
  let subj : Subj := { slice := if p < 64 then some p else none }
  match s.pools.held.find? (fun b => b.pool = p && b.cls = c && b.idx = i) with
  | none => s.raise Src.POOL_OWNER subj (poolD4 c i) (0x1FF + o * 65536)
  | some b => if b.owner = o then s.freeBuf b else s.raise Src.POOL_OWNER subj (poolD4 c i) (b.owner + o * 65536)

/-- A buffer of a class that exists: the management pool has one class. -/
def bufExists (p c i : Nat) : Bool := decide (p ≤ 64) && (p != 64 || c == 0) && decide (i < bufCount p c)

/-- BUFFER_REQUEST (R287). -/
def execBufferRequest (owner : Fin 259) (size : Nat) (s : State) : Host.Outcome State Fault Refusal :=
  s.ctlNext (fun c => if ownerOk owner.val then (c.requestBuf owner.val size).2 else c)

/-- BUFFER_RELEASE (R288, R289). -/
def execBufferRelease (owner : Fin 259) (pool : Fin 65) (cls : Fin 4) (buf : Nat) (s : State) :
    Host.Outcome State Fault Refusal :=
  s.ctlNext (fun c => if ownerOk owner.val ∧ bufExists pool.val cls.val buf then
    c.releaseBuf owner.val pool.val cls.val buf else c)

/-- Discard the packet that waited for a buffer: an RX owner's WRITE or MCAST at the head of its
slice's receive area, or the management command at the head of the control dies' receive memory. A
tracked request is answered with a NACK (R287). -/
def Ctl.dropWaiting (s : Ctl) (o : Nat) : Ctl :=
  let e := if o < 256 then o / 4 else 64
  let hit (x : InPkt) : Bool := if o < 256 then o % 4 = 0 && (x.pkt.typ = Typ.WRITE || x.pkt.typ = Typ.MCAST)
    else o = 257 && x.pkt.typ = Typ.MGMT_CMD
  match (s.rxQ e).find? hit with
  | none => s
  | some x =>
    let s := s.setRxQ e (dropFirst hit (s.rxQ e))
    if x.pkt.isRequest then s.nack (epPort e) x St.NO_SLOT else s

/-- A waiter that has waited WAIT_LIMIT slots leaves with NO_SLOT (R287). -/
def Ctl.starve (s : Ctl) (o : Nat) : Ctl :=
  let p := ownerPool o
  match (s.waitersOf p).find? (fun w => w.owner = o && s.elapsed w.since (s.rd POOL_CFG.WAIT_LIMIT)) with
  | none => s
  | some w =>
    let s := s.setWaiters p (dropFirst (fun x => x = w) (s.waitersOf p))
    let s := if p = 64 then s else s.sat (POOL_STAT.NO_SLOT p) 1
    let s := s.raise Src.POOL_STARVED { slice := if p < 64 then some p else none }
      (poolD4 ((fitClass p w.size).getD 0) 0) o
    let s := s.emit (.buffer o St.NO_SLOT none)
    s.dropWaiting o

/-- POOL_STARVED (R287). -/
def execPoolStarved (owner : Fin 259) (s : State) : Host.Outcome State Fault Refusal :=
  s.ctlNext (fun c => c.starve owner.val)

/-- The oldest buffer of an owner exceeds AGE_LIMIT: AGED, and POOL_LEAK once for it (R290). -/
def Ctl.poolLeak (s : Ctl) (o : Nat) : Ctl :=
  match s.pools.held.find? (fun b => b.owner = o) with
  | none => s
  | some b =>
    if b.aged || !s.elapsed b.since (s.rd POOL_CFG.AGE_LIMIT + 1) then s
    else
      let s := s.modPools (fun q => { q with held := updFirst (fun x => x = b) (fun x => { x with aged := true }) q.held })
      (s.auditOwner o).raise Src.POOL_LEAK { slice := if b.pool < 64 then some b.pool else none } (poolD4 b.cls b.idx) o

/-- POOL_LEAK (R290). -/
def execPoolLeak (owner : Fin 259) (s : State) : Host.Outcome State Fault Refusal :=
  s.ctlNext (fun c => c.poolLeak owner.val)

/-- When a slice reaches OFF the manager releases the buffers of its owners and removes its waiters
(R289). -/
def Ctl.reclaimBufs (s : Ctl) (n : Nat) : Ctl :=
  let ws := s.waitersOf n
  let s := s.setWaiters n []
  let s := s.sat (POOL_STAT.NO_SLOT n) ws.length
  let s := ws.foldl (fun s w => s.emit (.buffer w.owner St.NO_SLOT none)) s
  let bs := s.pools.held.filter (fun b => b.pool = n)
  let s := bs.foldl (fun s b => s.freeBuf b) s
  s.sat (POOL_STAT.RECLAIMED n) bs.length

end Sys2Proof.Machine
end

