-- ==== Sys2Proof/Machine/Pstore.lean ====
section
/-!
DEFINITION. The parameter store (spec/07_parameter_store.md): start checks, placements, norms and
factors, the built-in update programs, the step with its commit and failure, pause, resolve and
rollback.
-/

namespace Sys2Proof.Machine

/-! ## Sums of squares (R163) -/

/-- Pairwise additions over adjacent values; an odd last value passes. -/
def pairAdd (st : Bool) : List Nat → List Nat
  | a :: b :: t => fadd st a b :: pairAdd st t
  | l => l

/-- One lane: elements l, l + 128, … in ascending order, one fused operation each. -/
def laneSq (st : Bool) (xs : List Nat) (l : Nat) : Nat :=
  (List.range (cdiv (xs.length - l) 128)).foldl (fun q i => let x := xs.getD (l + 128 * i) 0; ffma st x x q) 0

/-- The sum of squares: 128 lanes, then a binary tree over the lane index. -/
def sumSq (st : Bool) (xs : List Nat) : Nat :=
  (iter (pairAdd st) 7 ((List.range 128).map (laneSq st xs))).headD 0

/-! ## Start (R187, Table PST-2) -/

def Ctl.strict (s : Ctl) (d : Nat) : Bool := s.bit (DOM_ARITH.STRICT d)

/-- State words of a program; user programs use what the layout holds. -/
def progState (p : Nat) : Option Nat :=
  match p with
  | 0xFFF0 => some 0 | 0xFFF1 => some 1 | 0xFFF2 => some 2 | 0xFFF3 => some 1 | 0xFFF4 => some 1
  | _ => if p < 0xFFF0 then some 0 else none

/-- Check 3 of Table PST-2 on one VALID entry. -/
def Ctl.tensorOk (s : Ctl) (d : Nat) (t : Tensor) : Bool :=
  let ce := max 1 (s.ce d)
  let align := if t.striped then ce * max 1 (s.ringN d) else ce
  let cols := t.len / max 1 t.rows
  !t.resv && decide (1 ≤ t.len) && t.base % align == 0 && (t.striped || decide (t.owner < s.ringN d)) &&
    (t.rows == 0 || t.len % t.rows == 0) && decide (t.clip ≤ 2) &&
    (match progState t.prog with
     | none => false
     | some k => decide (k ≤ s.rd (PST_LAYOUT.STATE_WORDS d))) &&
    (t.prog != 0xFFF4 || (!t.striped && t.rows != 0 && decide (t.rows ≤ 65536) && decide (cols ≤ 65536)
      && decide (min t.rows cols ≤ 8192)))

/-- Every two elements of a list satisfy a relation. -/
def pairwiseB {α : Type} (r : α → α → Bool) : List α → Bool
  | [] => true
  | x :: t => t.all (r x) && pairwiseB r t

/-- Chunk range of a tensor, and its local range on this device where it owns chunks. -/
def Ctl.chunkRange (s : Ctl) (d : Nat) (t : Tensor) : Nat × Nat :=
  (t.first (s.ce d), t.first (s.ce d) + t.chunks (s.ce d))

def Ctl.ownedCount (s : Ctl) (d : Nat) (t : Tensor) : Nat :=
  let n := max 1 (s.ringN d)
  let (a, b) := s.chunkRange d t
  let upTo (x : Nat) : Nat := (x + n - 1 - s.ringPos d % n) / n
  if t.striped then upTo b - upTo a else if t.owner = s.ringPos d then b - a else 0

def Ctl.localRange (s : Ctl) (d : Nat) (t : Tensor) : Nat × Nat := (t.lbase, t.lbase + s.ownedCount d t)

/-- The start checks in order; 0 is OK. -/
def Ctl.startCheck (s : Ctl) (d : Nat) : Nat :=
  let ce := s.ce d
  let ts := (s.tensors d).map Prod.snd
  if !s.storeOff d then St.BUSY
  else if ce % 64 ≠ 0 ∨ ce < 64 ∨ 65536 < ce ∨ s.ringN d ≤ s.ringPos d ∨ 2048 < s.ringN d
      ∨ 4 < s.rd (PST_LAYOUT.STATE_WORDS d) ∨ 2 < s.rd (PST_LAYOUT.ROLLBACK d) ∨ 2 < s.rd (PST_LAYOUT.NONFINITE d) then
    St.BAD_PARAM
  else if !ts.all (s.tensorOk d) then St.BAD_PARAM
  else if !pairwiseB (fun a b => !rangesOverlap (s.chunkRange d a) (s.chunkRange d b)
      && (a.group == 0 || a.group != b.group || a.hset == b.hset)) ts then St.BAD_PARAM
  else
    let own := (ts.map (s.localRange d)).filter (fun r => decide (r.1 < r.2))
    if !own.all (fun r => decide (r.2 ≤ s.rd (PST_SHARD.LOCAL_CHUNKS d)))
        || !pairwiseB (fun a b => !rangesOverlap a b) own then St.BAD_PARAM
    else if s.rd (MEM_DOM_SHARD.SIZE_GIB d) * 2 ^ 30 < s.rd (PST_SHARD.LOCAL_CHUNKS d) * s.recBytes d
        ∨ s.rd (MEM_DOM_SHARD.SIZE_GIB d) = 0
        ∨ s.rd (PST_SHARD.GRAD_SLOTS d) = 0
        ∨ s.rd (MEM_DOM_PROG.GRAD_MIB d) * 2 ^ 20 < s.rd (PST_SHARD.GRAD_SLOTS d) * ce * 4 then St.OVERSUBSCRIBED
    else St.OK

/-- Record the status of an action on the store; a failure is logged as a NOTE (R7, R187). -/
def Ctl.pstStatus (s : Ctl) (rt d st : Nat) : Ctl :=
  let s := s.wr (PST_STATUS.LAST_STATUS d) st
  if st = St.OK then s else s.logRefused rt (PST_CTRL.addr d) 8 st

/-- Zero the bytes `[a, b)` of DRAM, half-granules whole. -/
def Dev.zeroRange (d : Dev) (a b : Nat) : Dev :=
  let d : Dev := { ctl := d.ctl.modMem (fun m => { m with poison := m.poison.filter (fun e => decide (e.1 < a / 64) || decide (b / 64 ≤ e.1)) }),
                   ram := d.ram.zeroDram a b }
  if d.ctl.mem.reloc.isSome then
    d.onCtl (fun c => (halves a (b - a)).foldl (fun c h => if c.daDropped (64 * h) then c else c.markWrite h 0 64) c)
  else d

/-- Words of hyperparameter sets in the control area (R199). -/
def hsetAddr (d h w : Nat) : Nat := 0x0700_0000 + d * 0x4_0000 + 0x4000 + h * 0x40 + w * 8

/-- Copy every set with READY into the active copies (R199). -/
def Ctl.copyHsets (s : Ctl) (d : Nat) : Ctl :=
  let b := hsetAddr d 0 0
  let ready := ((s.listed b (b + 0x4000)).filter (fun e => (e.1 - b) % 64 == 56 && nbit e.2.toNat 32)).map (fun e => (e.1 - b) / 64)
  ready.foldl (fun s h =>
    let w7 := setFld (s.word (hsetAddr d h 7)) 32 1 0
    let s := s.setWord (hsetAddr d h 7) w7
    let s := (List.range 8).foldl (fun s w =>
      s.modPst d (fun p => { p with hset := tblPut (fun _ => 0) p.hset (8 * h + w) (s.word (hsetAddr d h w)) })) s
    if h = 0 then
      (s.wr (PST_TAG.HSET_TAG d) (getFld w7 0 32)).wr (PST_TAG.TAG_STEP d) (s.rd (PST_STEP.COMMITTED d))
    else s) s

/-- GO (R187). -/
def Dev.pstGo (d : Dev) (rt dom : Nat) : Dev :=
  let st := d.ctl.startCheck dom
  let d := d.onCtl (fun c => c.pstStatus rt dom st)
  if st ≠ St.OK then d
  else
    let (a, _) := d.ctl.shardRange dom
    let d := d.zeroRange a (a + d.ctl.rd (PST_SHARD.LOCAL_CHUNKS dom) * d.ctl.recBytes dom)
    d.onCtl (fun c =>
      let c := c.modPst dom (fun p => { hset := p.hset })
      let c := c.wrWord (PST_STEP.addr dom) 0
      (c.wr (PST_STATUS.STATE dom) 1).copyHsets dom)

/-! ## The step (R206, R207) -/

/-- The step in progress. -/
def Ctl.stepNo (s : Ctl) (d : Nat) : Nat := s.rd (PST_STEP.COMMITTED d) + 1

/-- Subject and detail of a parameter-store record (R213, Table FLT-9). -/
def Ctl.raisePst (s : Ctl) (src d : Nat) (slice : Option Nat := none) (t : Nat := 0) (k : Nat := 0) : Ctl :=
  s.raise src { domain := some d, slice := slice } t k (s.stepNo d % 2 ^ 32)

/-- An operation of step `k` accumulates in the step in progress, or in the next. -/
def Ctl.modAcc (s : Ctl) (d k : Nat) (f : StepAcc → StepAcc) : Ctl :=
  s.modPst d (fun p => if k = s.stepNo d then { p with acc := f p.acc } else { p with nxt := f p.nxt })

def Ctl.accOf (s : Ctl) (d k : Nat) : StepAcc := if k = s.stepNo d then (s.pstOf d).acc else (s.pstOf d).nxt

/-- Causes of a failure (PST_STATUS.FAIL_CAUSE). -/
def Fail.ABANDONED : Nat := 1
def Fail.NONFINITE : Nat := 2
def Fail.UPDATE : Nat := 3
def Fail.OVERRUN : Nat := 4
def Fail.LATE : Nat := 5
def Fail.SUSPECT : Nat := 6

/-- The step fails (R206); the domain's slices idle from their next period (R208). -/
def Ctl.stepFail (s : Ctl) (d cause : Nat) : Ctl :=
  if [2, 3].contains (s.storeState d) || (s.storeState d = 1 && (s.pstOf d).acc.any) then
    let s := (s.wr (PST_STATUS.STATE d) 4).wr (PST_STATUS.FAIL_CAUSE d) cause
    s.raisePst Src.STEP_FAIL d
  else s

/-- An operation linked to the step opens (the first one starts it). -/
def Ctl.linkOp (s : Ctl) (d op : Nat) : Nat × Ctl :=
  let k := if s.storeState d = 3 then s.stepNo d + 1 else s.stepNo d
  let s := s.modAcc d k (fun a => { a with linked := op :: a.linked, any := true })
  (k, if s.storeState d = 1 then s.wr (PST_STATUS.STATE d) 2 else s)

/-- An operation linked to step `k` is DONE. -/
def Ctl.unlinkOp (s : Ctl) (d k op : Nat) : Ctl := s.modAcc d k (fun a => { a with linked := a.linked.filter (fun x => x != op) })

/-! ## Placement and norms (R191, R192, R196) -/

/-- A gradient slot that a placement may use. -/
def Ctl.gradFree (s : Ctl) (d k : Nat) : Bool := (tblGet (fun _ => none) (s.pstOf d).busy (s.gradSlot d k)).isNone

def Ctl.freeGrad (s : Ctl) (d k : Nat) : Ctl :=
  s.modPst d (fun p => { p with busy := tblPut (fun _ => none) p.busy (s.gradSlot d k) none })

/-- The partial of a tensor: Q_c over its owned chunks in ascending global number, from +0. -/
def Ctl.partialOf (s : Ctl) (d t : Nat) (a : StepAcc) : Option Nat :=
  (s.ownedOf d t).foldl (fun acc c =>
    match acc, tblGet (fun _ => none) a.sumsq c.g with
    | some q, some (x, _) => some (fadd (s.strict d) q x)
    | _, _ => none) (some 0)

/-- The owned chunk `c` of step `k` has been placed by slice `n` with its sum of squares. -/
def Ctl.placedChunk (s : Ctl) (d k n : Nat) (c : ChunkId) (q : Nat) : Ctl :=
  let s := s.modPst d (fun p => { p with busy := tblPut (fun _ => none) p.busy (s.gradSlot d c.k) (some c) })
  let s := s.modAcc d k (fun a => { a with sumsq := tblPut (fun _ => none) a.sumsq c.g (some (q, n)) })
  match s.partialOf d c.t (s.accOf d k) with
  | some x => s.modAcc d k (fun a => { a with partials := tblPut (fun _ => none) a.partials c.t (some x) })
  | none => s

/-- The partial of a tensor is final: placed, or +0 where this device owns no chunk of it. -/
def Ctl.partialFinal (s : Ctl) (d k t : Nat) : Bool :=
  !(s.tensor d t).valid || s.ownedCount d (s.tensor d t) == 0 ||
    (tblGet (fun _ => none) (s.accOf d k).partials t).isSome

/-- A result chunk of the norm exchange latches Q_t of the VALID tensors it covers (R196). -/
def Ctl.placeNorm (s : Ctl) (d k t0 : Nat) (vals : List Nat) : Ctl :=
  (List.range vals.length).foldl (fun s i =>
    if (s.tensor d (t0 + i)).valid ∧ t0 + i < 16384 then
      s.modAcc d k (fun a => { a with globals := tblPut (fun _ => none) a.globals (t0 + i) (some (vals.getD i 0)) })
    else s) s

/-! ## Hyperparameters (Table PST-5) -/

def Ctl.hparam (s : Ctl) (d h w hi : Nat) : Nat := getFld (tblGet (fun _ => 0) (s.pstOf d).hset (8 * h + w)) (32 * hi) 32

def fOne : Nat := 0x3F80_0000

/-! ## Factors (R197, R198) -/

/-- Members of a tensor's clip group, in ascending number. -/
def Ctl.clipGroup (s : Ctl) (d t : Nat) : List Nat :=
  let g := (s.tensor d t).group
  if g = 0 then [t] else ((s.tensors d).filter (fun (_, x) => x.group = g)).map Prod.fst

/-- The Q of a tensor: its own, or its group's in ascending tensor number. -/
def Ctl.clipQ (s : Ctl) (d t : Nat) : Option Nat :=
  let a := (s.pstOf d).acc
  let qs := (s.clipGroup d t).map (fun u => tblGet (fun _ => none) a.globals u)
  if (s.tensor d t).group = 0 then qs.headD none
  else qs.foldl (fun acc q => match acc, q with | some x, some y => some (fadd (s.strict d) x y) | _, _ => none) (some 0)

/-- k_t. -/
def Ctl.factorOf (s : Ctl) (d t q : Nat) : Nat :=
  let st := s.strict d
  let x := s.tensor d t
  let gs := s.hparam d x.hset 3 0
  let tau := s.hparam d x.hset 2 1
  let epsn := s.hparam d x.hset 3 1
  let n := fsqrt st q
  let ng := fmul st (fabs st gs) n
  let c := match x.clip with
    | 1 => fdiv st tau (fmaximum st tau ng)
    | 2 => fdiv st tau (fadd st ng epsn)
    | _ => fOne
  fmul st gs c

/-- The update dispatcher of a slice. -/
def Ctl.updOf (s : Ctl) (n : Nat) : UpdSt := tblGet (fun _ => {}) s.upd n
def Ctl.setUpd (s : Ctl) (n : Nat) (u : UpdSt) : Ctl := { s with upd := tblPut (fun _ => {}) s.upd n u }

/-- The chunks of a tensor join the queues of the slices that placed them (R193). -/
def Ctl.joinQueue (s : Ctl) (d t : Nat) : Ctl :=
  (s.ownedOf d t).foldl (fun s c =>
    match tblGet (fun _ => none) (s.pstOf d).acc.sumsq c.g with
    | some (_, n) => let u := s.updOf n; s.setUpd n { u with queue := u.queue ++ [c] }
    | none => s) s

/-- A tensor is skipped (R198): its chunks leave without an update. -/
def Ctl.skipTensor (s : Ctl) (d t : Nat) : Ctl :=
  let s := s.modPst d (fun p => { p with acc := { p.acc with skipped := t :: p.acc.skipped } })
  let s := s.wr (PST_STATUS.SKIPPED d) (min 65535 (s.pstOf d).acc.skipped.length)
  (s.ownedOf d t).foldl (fun s c => s.freeGrad d c.k) s

/-- FACTOR_LATCH of tensor `t`. -/
def Ctl.factorLatch (s : Ctl) (d t : Nat) : Ctl :=
  let a := (s.pstOf d).acc
  if !([2, 3].contains (s.storeState d)) || !(s.tensor d t).valid || a.skipped.contains t ||
      (tblGet (fun _ => none) a.factors t).isSome then s
  else
    match s.clipQ d t with
    | none => s
    | some q =>
      let bad := nonFinite q
      let s := if bad then s.raisePst Src.NONFINITE_GRAD d none t else s
      let mode := s.rd (PST_LAYOUT.NONFINITE d)
      if bad ∧ mode = 0 then s.stepFail d Fail.NONFINITE
      else if bad ∧ mode = 1 then s.skipTensor d t
      else
        let k := s.factorOf d t q
        let s := s.modPst d (fun p => { p with acc := { p.acc with factors := tblPut (fun _ => none) p.acc.factors t (some k) } })
        s.joinQueue d t

/-- FACTOR_LATCH (R197). -/
def execFactorLatch (d : Fin 64) (t : BitVec 14) (s : State) : Host.Outcome State Fault Refusal :=
  s.ctlNext (fun c => c.factorLatch d.val t.toNat)

/-! ## The built-in programs (R200, R201) -/

/-- pow(b, t): 32 squarings. -/
def fpow (st : Bool) (b t : Nat) : Nat :=
  (List.range 32).foldl (fun r i =>
    let r := fmul st r r
    if nbit t (31 - i) then fmul st r b else r) fOne

/-- What an update program reads of one element: gradient, weight, state words 0 and 1. -/
structure ElemIn where
  g : Nat
  w : Nat
  s0 : Nat
  s1 : Nat

/-- Scalars of one tensor and step. -/
structure Prelude where
  st : Bool
  lr : Nat
  beta1 : Nat
  beta2 : Nat
  eps : Nat
  decay : Nat
  c1 : Nat
  c2 : Nat
  /-- ADAPTIVE -/
  a : Nat
  rb : Nat
  k : Nat

def Ctl.preludeOf (s : Ctl) (d t : Nat) : Prelude :=
  let st := s.strict d
  let x := s.tensor d t
  let h (w hi : Nat) : Nat := s.hparam d x.hset w hi
  let lr := h 0 0; let b1 := h 0 1; let b2 := h 1 0
  let step := s.stepNo d % 2 ^ 32
  { st := st, lr := lr, beta1 := b1, beta2 := b2, eps := h 1 1,
    decay := if x.decay then fsub st fOne (fmul st lr (h 2 0)) else fOne,
    c1 := fsub st fOne b1, c2 := fsub st fOne b2,
    a := fdiv st lr (fsub st fOne (fpow st b1 step)),
    rb := fdiv st fOne (fsqrt st (fsub st fOne (fpow st b2 step))),
    k := (tblGet (fun _ => none) (s.pstOf d).acc.factors t).getD 0 }

/-- One element of a built-in program: W', S0', S1'. -/
def elemStep (prog : Nat) (p : Prelude) (x : ElemIn) : Nat × Nat × Nat :=
  let st := p.st
  let g := fmul st p.k x.g
  let nlr := fneg st p.lr
  let wd := fmul st x.w p.decay
  match prog with
  | 0xFFF1 =>
    let m := ffma st p.beta1 x.s0 g
    (ffma st nlr m wd, m, x.s1)
  | 0xFFF2 =>
    let m := ffma st p.beta1 x.s0 (fmul st p.c1 g)
    let v := ffma st p.beta2 x.s1 (fmul st p.c2 (fmul st g g))
    let den := ffma st (fsqrt st v) p.rb p.eps
    (ffma st (fneg st p.a) (fdiv st m den) wd, m, v)
  | 0xFFF3 =>
    let u := ffma st p.beta1 x.s0 (fmul st p.c1 g)
    (ffma st nlr (fsign st u) wd, ffma st p.beta2 x.s0 (fmul st p.c2 g), x.s1)
  | _ => (x.w, x.s0, x.s1)

/-- Elements of a chunk that are not padding (R184). -/
def Ctl.liveElems (s : Ctl) (d : Nat) (c : ChunkId) : Nat :=
  let x := s.tensor d c.t
  min (s.ce d) (x.len - (c.g - x.first (s.ce d)) * s.ce d)

/-- Write new weights and state of a record into the copies other than CUR (R195). -/
def Dev.writeRecord (dv : Dev) (d : Nat) (c : ChunkId) (w : List Nat) (ss : List (List Nat)) : Dev :=
  let cur := (dv.ctl.chunkSt d c.k).cur
  let dv := dv.putWeights d c.k (!cur) w
  (List.range ss.length).foldl (fun dv j => dv.putState d c.k j (!cur) (ss.getD j [])) dv

/-- The copy other than CUR, or the only one, of the record's state advances (R195). -/
def Ctl.advance (s : Ctl) (d : Nat) (c : ChunkId) : Ctl :=
  let x := s.chunkSt d c.k
  s.setChunkSt d c.k { stamp := s.stepNo d % 2 ^ 32, prev := x.stamp, cur := if s.wCopies d = 2 then !x.cur else x.cur }

/-- Copies that a program reads: the weights and every state word of CUR, and the gradient. -/
def Dev.readRecord (dv : Dev) (d : Nat) (c : ChunkId) : List Nat × List Nat × List (List Nat) × Bool :=
  let cur := (dv.ctl.chunkSt d c.k).cur
  let (g, pg) := dv.gradient d c.k
  let (w, pw) := dv.weights d c.k cur
  let ss := (List.range (dv.ctl.rd (PST_LAYOUT.STATE_WORDS d))).map (fun j => dv.stateWord d c.k j cur)
  (g, w, ss.map Prod.fst, pg || pw || ss.any Prod.snd)

/-- Run a per-chunk built-in program; false where a poisoned value was read. Padding and the state
words the program does not use keep their values. -/
def Dev.runChunk (dv : Dev) (d : Nat) (c : ChunkId) : Bool × Dev :=
  let (g, w, ss, bad) := dv.readRecord d c
  if bad then (false, dv)
  else
    let p := dv.ctl.preludeOf d c.t
    let prog := (dv.ctl.tensor d c.t).prog
    let live := dv.ctl.liveElems d c
    let s0 := ss.getD 0 []
    let s1 := ss.getD 1 []
    let out := (List.range w.length).map (fun e =>
      let x : ElemIn := { g := g.getD e 0, w := w.getD e 0, s0 := s0.getD e 0, s1 := s1.getD e 0 }
      if e < live then elemStep prog p x else (x.w, x.s0, x.s1))
    let used := (progState prog).getD 0
    let ss' := (List.range ss.length).map (fun j =>
      if j = 0 ∧ 1 ≤ used then out.map (fun o => o.2.1)
      else if j = 1 ∧ 2 ≤ used then out.map (fun o => o.2.2)
      else ss.getD j [])
    (true, dv.writeRecord d c (out.map (fun o => o.1)) ss')

/-- ORTHO on a whole tensor (R201). The products of its iterations are summed in an order that the
library's tiling gives (R368), which the spec does not state: Z is a free value. -/
def Dev.runOrtho (dv : Dev) (d : Nat) (t : Nat) (cs : List ChunkId) : Bool × Dev :=
  let st := dv.ctl.strict d
  let x := dv.ctl.tensor d t
  let p := dv.ctl.preludeOf d t
  let recs := cs.map (fun c => dv.readRecord d c)
  if recs.any (fun r => r.2.2.2) then (false, dv)
  else
    let s0 := recs.map (fun r => r.2.2.1.getD 0 [])
    let newS := (List.range cs.length).map (fun i =>
      let r := recs.getD i ([], [], [], false)
      (List.range (dv.ctl.ce d)).map (fun e =>
        if e < dv.ctl.liveElems d (cs.getD i {}) then
          ffma st p.beta1 ((s0.getD i []).getD e 0) (fmul st p.k (r.1.getD e 0))
        else (s0.getD i []).getD e 0))
    let (fr, c) := dv.ctl.fresh
    let dv : Dev := { dv with ctl := c }
    let cols := x.len / max 1 x.rows
    let gam := fmul st (dv.ctl.hparam d x.hset 4 1)
      (fsqrt st (fmaximum st fOne (fdiv st (i2f st x.rows) (i2f st cols))))
    let s2 := fmul st (fneg st p.lr) gam
    let dv := (List.range cs.length).foldl (fun dv i =>
      let c := cs.getD i {}
      let r := recs.getD i ([], [], [], false)
      let w' := (List.range (dv.ctl.ce d)).map (fun e =>
        let w := r.2.1.getD e 0
        if e < dv.ctl.liveElems d c then
          ffma st s2 (Config.freeVec fr (i * dv.ctl.ce d + e)).toNat (fmul st w p.decay)
        else w)
      let ss := (List.range r.2.2.1.length).map (fun j => if j = 0 then newS.getD i [] else r.2.2.1.getD j [])
      dv.writeRecord d c w' ss) dv
    (true, dv)

/-! ## Completion and commit (R206, R207) -/

/-- Step `k` is complete on the device. -/
def Ctl.stepComplete (s : Ctl) (d : Nat) : Bool :=
  let a := (s.pstOf d).acc
  a.linked.isEmpty && (s.tensors d).all (fun (t, _) =>
    a.skipped.contains t ||
      ((tblGet (fun _ => none) a.factors t).isSome &&
        (s.ownedOf d t).all (fun c => (s.chunkSt d c.k).stamp == s.stepNo d % 2 ^ 32)))

/-- Commit (R207); the step fingerprint is latched by the caller (R374). -/
def Ctl.stepCommit (s : Ctl) (d : Nat) : Ctl :=
  let s := s.wr (PST_STATUS.SKIPPED d) (min 65535 (s.pstOf d).acc.skipped.length)
  let s := s.inc (PST_STEP.COMMITTED d) 1
  let s := s.copyHsets d
  let s := s.modPst d (fun p => { p with acc := p.nxt, nxt := {} })
  let s := if 1 ≤ s.rd (PST_LAYOUT.ROLLBACK d) then s.wrB (PST_STEP.SHADOW_OK d) true else s
  s.wr (PST_STATUS.STATE d) 2

/-! ## Pause, resolve, rollback (R208-R210) -/

/-- PAUSE: it waits for the next step boundary. -/
def Ctl.pstPause (s : Ctl) (rt d : Nat) : Ctl :=
  if [1, 2, 3].contains (s.storeState d) then (s.modPst d (fun p => { p with pauseDue := true })).pstStatus rt d St.OK
  else s.pstStatus rt d St.DENIED

/-- The pause takes effect after the commit evaluation of a step boundary; a PENDING step is decided
first. -/
def Ctl.pauseEffect (s : Ctl) (d : Nat) : Ctl :=
  if (s.pstOf d).pauseNow && [1, 2].contains (s.storeState d) then
    (s.modPst d (fun p => { p with pauseDue := false, pauseNow := false })).wr (PST_STATUS.STATE d) 5
  else s

/-- RESOLVE with REVERT and ROLLBACK clear the fingerprint's accumulator (R374). -/
def Ctl.clearFp (s : Ctl) (d : Nat) : Ctl := s.modPst d (fun p => { p with fp := 0 })

/-- Records with STAMP = k go back: CUR toggles, STAMP and PREV swap (R209, R210). -/
def Ctl.revertRecords (s : Ctl) (d k : Nat) : Ctl :=
  let was := s.chunkSt d
  let hit := (s.pstOf d).chunks.filter (fun e => (was e.1).stamp = k)
  let two := s.wCopies d = 2
  let s := hit.foldl (fun s e => let x := was e.1
    s.setChunkSt d e.1 { stamp := x.prev, prev := x.stamp, cur := if two then !x.cur else x.cur }) s
  let s := if s.rd (PST_LAYOUT.ROLLBACK d) = 1 then s.sat (PST_STATUS.MOM_KEPT d) hit.length else s
  if hit.isEmpty then s else s.raisePst Src.STEP_ROLLBACK d

/-- RESOLVE (R208, R209). -/
def Ctl.pstResolve (s : Ctl) (rt d : Nat) (revert : Bool) : Ctl :=
  match s.storeState d with
  | 5 =>
    if revert then s.pstStatus rt d St.DENIED
    else (s.wr (PST_STATUS.STATE d) (if (s.pstOf d).acc.any then 2 else 1)).pstStatus rt d St.OK
  | 4 =>
    if revert ∧ s.rd (PST_LAYOUT.ROLLBACK d) = 0 then s.pstStatus rt d St.DENIED
    else
      let s := s.modPst d (fun p => { p with busy := [], acc := {}, nxt := {} })
      let s := (List.range 64).foldl (fun s n =>
        if s.rd (SLC_DOMAIN.DOMAIN n) = d then
          let u := s.updOf n
          s.setUpd n { u with queue := [] }
        else s) s
      let s := if revert then (s.revertRecords d (s.stepNo d % 2 ^ 32)).clearFp d else s
      (s.wr (PST_STATUS.STATE d) 2).pstStatus rt d St.OK
  | _ => s.pstStatus rt d St.DENIED

/-- ROLLBACK (R210). -/
def Ctl.pstRollback (s : Ctl) (rt d : Nat) : Ctl :=
  if s.rd (PST_LAYOUT.ROLLBACK d) = 0 ∨ s.storeState d ≠ 5 ∨ !s.bit (PST_STEP.SHADOW_OK d) then s.pstStatus rt d St.DENIED
  else
    let k := s.rd (PST_STEP.COMMITTED d)
    let s := (s.revertRecords d k).clearFp d
    let s := (s.wr (PST_STEP.COMMITTED d) (k - 1)).wrB (PST_STEP.SHADOW_OK d) false
    s.pstStatus rt d St.OK

end Sys2Proof.Machine
end

