-- ==== Sys2Proof/Machine/Entries.lean ====
section
/-!
DEFINITION. Schedule-table entries (Table MER-2), collective descriptors (Table COL-2) and
output-format variants (Table PST-8) as the windows hold them, decoded.
-/

namespace Sys2Proof.Machine

/-! ## Slices and domains -/

def Ctl.domOf (s : Ctl) (n : Nat) : Nat := s.rd (SLC_DOMAIN.DOMAIN n)
def Ctl.assigned (s : Ctl) (n d : Nat) : Bool := s.bit (SLC_DOMAIN.ASSIGNED n) && s.domOf n == d

/-- The slices of a domain on the device. -/
def Ctl.slicesOf (s : Ctl) (d : Nat) : List Nat := (List.range 64).filter (fun n => s.assigned n d)

/-! ## Schedule tables (R44) -/

def entryAddr (n k i : Nat) : Nat := 0x0100_0000 + n * 0x10_0000 + k * 0x8_0000 + i * 0x20

structure Entry where
  offset : Nat
  action : Nat
  first : Bool
  last : Bool
  count : Nat
  desc : Nat
  link : Nat
  vc : Nat
  units : Nat
  chunk : Nat
  arg0 : Nat
  mask : Nat
  arg1 : Nat
  /-- a reserved field is not 0 -/
  resv : Bool

def Act.IDLE : Nat := 0
def Act.ACCEPT : Nat := 1
def Act.SUM : Nat := 2
def Act.SEND : Nat := 3
def Act.MCAST : Nat := 4
def Act.RUN : Nat := 5
def Act.SYNC : Nat := 6
def Act.SWAP : Nat := 7
def Act.MARK : Nat := 8
def Act.END : Nat := 15

def Ctl.entry (s : Ctl) (n k i : Nat) : Entry :=
  let a := entryAddr n k i
  let w0 := s.rdWord a; let w1 := s.rdWord (a + 8); let w2 := s.rdWord (a + 16); let w3 := s.rdWord (a + 24)
  { offset := nfld w0 0 24, action := nfld w0 24 4, first := nbit w0 28, last := nbit w0 29, count := nfld w0 32 16,
    desc := nfld w1 0 9, link := nfld w1 16 6, vc := nfld w1 24 3, units := nfld w1 32 9,
    chunk := nfld w2 0 20, arg0 := nfld w2 32 32, mask := nfld w3 0 48, arg1 := nfld w3 48 16,
    resv := nfld w0 30 2 != 0 || nfld w0 48 16 != 0 || nfld w1 9 7 != 0 || nfld w1 22 2 != 0 || nfld w1 27 5 != 0
      || nfld w1 41 23 != 0 || nfld w2 20 12 != 0 }

/-- The first END entry of a table, if it has one. -/
def Ctl.endOf (s : Ctl) (n k : Nat) : Option Nat :=
  let a := entryAddr n k 0
  ((s.listed a (a + 0x8_0000)).find? (fun e => (e.1 - a) % 32 == 0 && getFld e.2 24 4 == 15)).map (fun e => (e.1 - a) / 32)

/-- The entries of a table before END; a table without END is taken as empty. -/
def Ctl.table (s : Ctl) (n k : Nat) : List (Nat × Entry) :=
  match s.endOf n k with
  | none => []
  | some e => (List.range e).map (fun i => (i, s.entry n k i))

/-! ## Descriptors (R151) -/

structure Desc where
  kind : Nat
  edge : Bool
  norm : Bool
  inFmt : Nat
  reform : Bool
  chkSel : Nat
  outFmts : Nat
  group : Nat
  window : Nat
  chunks : Nat
  ce : Nat
  ringN : Nat
  ringPos : Nat
  cbase : Nat
  rootPos : Nat
  cmask : Nat
  mcMask : Nat
  lateLimit : Nat
  src : Nat
  dst : Nat
  stageOff : Nat
  stream : Nat
  ticket : Nat
  nextDev : Nat
  prevDev : Nat
  resv : Bool

/-- Decode eight words. -/
def Desc.of (w : Nat → Nat) : Desc :=
  { kind := nfld (w 0) 0 4, edge := nbit (w 0) 4, norm := nbit (w 0) 5, inFmt := nfld (w 0) 6 2, reform := nbit (w 0) 8,
    chkSel := nfld (w 0) 10 2, outFmts := nfld (w 0) 12 4, group := nfld (w 0) 16 8,
    window := (if nfld (w 0) 24 6 = 0 then 64 else nfld (w 0) 24 6), chunks := nfld (w 0) 32 20,
    ce := nfld (w 1) 0 17, ringN := nfld (w 1) 32 12, ringPos := nfld (w 1) 44 12,
    cbase := nfld (w 2) 0 12, rootPos := nfld (w 2) 12 12, cmask := nfld (w 2) 32 32,
    mcMask := nfld (w 3) 0 48, lateLimit := nfld (w 3) 48 16, src := nfld (w 4) 0 57, dst := nfld (w 5) 0 57,
    stageOff := nfld (w 6) 0 32, stream := nfld (w 6) 32 16, ticket := nfld (w 7) 0 26,
    nextDev := nfld (w 7) 32 12, prevDev := nfld (w 7) 44 12,
    resv := nbit (w 0) 9 || nfld (w 0) 30 2 != 0 || nfld (w 0) 52 12 != 0 || nfld (w 1) 17 15 != 0 || nfld (w 1) 56 8 != 0
      || nfld (w 2) 24 8 != 0 || nfld (w 4) 57 7 != 0 || nfld (w 5) 57 7 != 0 || nfld (w 7) 26 6 != 0 || nfld (w 7) 56 8 != 0 }

def tmplAddr (n k i : Nat) : Nat := 0x0600_0000 + n * 0x2_0000 + k * 0x8000 + i * 0x40

def Ctl.descAt (s : Ctl) (a : Nat) : Desc := Desc.of (fun w => s.rdWord (a + 8 * w))
def Ctl.template (s : Ctl) (n k i : Nat) : Desc := s.descAt (tmplAddr n k i)
def Ctl.liveDesc (s : Ctl) (n i : Nat) : Desc := s.descAt (liveDescAddr n i 0)

/-- Used addresses (R453). -/
def Desc.usesSrc (d : Desc) : Bool := [2, 5, 6].contains d.kind || ([1, 3, 4].contains d.kind && !d.edge)
def Desc.usesDst (d : Desc) : Bool := [1, 3, 4].contains d.kind
def Desc.used (d : Desc) : List Nat := (if d.usesSrc then [d.src] else []) ++ (if d.usesDst then [d.dst] else [])

/-- A used address lies in a parameter-store window. -/
def Desc.inStore (d : Desc) : Bool := d.used.any (fun a => decide (winOf a < 8))

def fmtOf (f : Nat) : Fmt := match f with | 1 => .bf16 | 2 => .fp16 | 3 => .t8 | 4 => .t4 | _ => .fp32

/-- The working area of an operation (R152). -/
def Desc.area (d : Desc) : Nat × Nat :=
  (d.stageOff, d.stageOff + d.window * d.ce * 4 * ((if d.edge then popCount 32 d.cmask else 0) + 2))

/-- Owner of a chunk (R164, R167). -/
def Desc.owner (d : Desc) (c : Nat) : Nat := if d.kind = 4 ∨ d.kind = 5 then d.rootPos else c % max 1 d.ringN

/-- Something of the operation comes to this position over the ring (R164, R167). -/
def Desc.ringIn (d : Desc) : Bool :=
  decide (1 < d.ringN) &&
    (match d.kind with
     | 1 | 2 | 3 => true
     | 4 => d.ringPos != (d.rootPos + 1) % max 1 d.ringN
     | 5 => d.ringPos != d.rootPos
     | _ => false)

/-! ## Output formats (R203) -/

structure OutFmt where
  fmt : Nat
  scaled : Bool
  stoch : Bool
  ovfNan : Bool
  valid : Bool
  stream : Nat
  resv : Bool

def outFmtAddr (d k v : Nat) : Nat := 0x0700_0000 + d * 0x4_0000 + (if k = 0 then 0x100 else 0x120) + v * 8
def linkMapAddr (d k w : Nat) : Nat := 0x0700_0000 + d * 0x4_0000 + (if k = 0 then 0x140 else 0x150) + w * 8

def Ctl.outFmt (s : Ctl) (d k v : Nat) : OutFmt :=
  let w := s.rdWord (outFmtAddr d k v)
  { fmt := nfld w 0 3, scaled := nbit w 3, stoch := nbit w 4, ovfNan := nbit w 5, valid := nbit w 6,
    stream := nfld w 8 8, resv := nbit w 7 || nfld w 16 48 != 0 }

/-- The variant of a link. -/
def Ctl.linkVariant (s : Ctl) (d k l : Nat) : Nat :=
  if l < 32 then nfld (s.rdWord (linkMapAddr d k 0)) (2 * l) 2 else nfld (s.rdWord (linkMapAddr d k 1)) (2 * (l - 32)) 2

/-! ## Sequencers -/

def Ctl.seqOf (s : Ctl) (n : Nat) : SeqSt := tblGet (fun _ => {}) s.seq n
def Ctl.setSeq (s : Ctl) (n : Nat) (x : SeqSt) : Ctl := { s with seq := tblPut (fun _ => {}) s.seq n x }

/-- The active entries of a slice with an action, with their place in the active list. -/
def Ctl.activeWith (s : Ctl) (n act : Nat) : List (ActiveEnt × Entry) :=
  let k := s.liveBank (s.domOf n)
  ((s.seqOf n).active.map (fun a => (a, s.entry n k a.idx))).filter (fun e => e.2.action = act)

/-- The twin state of a slice (TWN_SLICE.STATE). -/
def Ctl.twinState (s : Ctl) (n : Nat) : Nat := s.rd (TWN_SLICE.STATE n)
def Tws.COMPARED : Nat := 1
def Tws.SOLO : Nat := 2
def Tws.FOLLOW : Nat := 3
def Tws.PRIMARY : Nat := 4
def Tws.STANDBY : Nat := 5

def Ctl.compared (s : Ctl) (n : Nat) : Bool := s.twinState n == 1

end Sys2Proof.Machine
end

