-- ==== Sys2Proof/Machine/Collect.lean ====
section
/-!
DEFINITION. Collective operations, first part (spec/06_collectives.md): opening and closing, tickets
and the order they give, the acceptance of CONTRIB, MCAST and ZENITH packets (Table COL-4), lateness,
credits and abandonment.
-/

namespace Sys2Proof.Machine

/-! ## Operations -/

def opKey (n i : Nat) : Nat := n * 512 + i

def Ctl.opOf (s : Ctl) (k : Nat) : OpSt := tblGet (fun _ => {}) s.ops k
def Ctl.setOp (s : Ctl) (k : Nat) (x : OpSt) : Ctl := { s with ops := tblPut (fun _ => {}) s.ops k x }
def Ctl.modOp (s : Ctl) (k : Nat) (f : OpSt → OpSt) : Ctl := s.setOp k (f (s.opOf k))

def OpSt.chunk (o : OpSt) (c : Nat) : ChunkOp := tblGet (fun _ => {}) o.chunks c
def OpSt.setChunk (o : OpSt) (c : Nat) (x : ChunkOp) : OpSt := { o with chunks := tblPut (fun _ => {}) o.chunks c x }

def Ctl.chunkOf (s : Ctl) (k c : Nat) : ChunkOp := (s.opOf k).chunk c
def Ctl.modChunk (s : Ctl) (k c : Nat) (f : ChunkOp → ChunkOp) : Ctl := s.modOp k (fun o => o.setChunk c (f (o.chunk c)))

def Ctl.opState (s : Ctl) (k : Nat) : Nat := s.rd (COL_DESC_STATUS.STATE (k / 512) (k % 512))
def Ctl.opOpen (s : Ctl) (k : Nat) : Bool := s.opState k == 1
def Ctl.opDesc (s : Ctl) (k : Nat) : Desc := s.liveDesc (k / 512) (k % 512)

/-- Keys of the operations open on a slice. -/
def Ctl.openOps (s : Ctl) (n : Nat) : List Nat := (s.ops.map Prod.fst).filter (fun k => k / 512 == n && s.opOpen k)

def Ctl.schedLimit (s : Ctl) (n : Nat) : Nat := min 512 (s.rd (COL_SLICE.SCHED_LIMIT n))

/-- Raise a collective source (R182, Table FLT-9). -/
def Ctl.raiseCol (s : Ctl) (src k chunk contrib : Nat) : Ctl :=
  let d := s.opDesc k
  s.raise src { domain := some (s.domOf (k / 512)), slice := some (k / 512), opTag := some k, chunk := chunk }
    d.ticket (contrib % 4096 + (d.ringPos % 4096) * 65536)

/-! ## Tickets (R173, R176) -/

/-- Dynamic ticket `a` is earlier than `b`. -/
def ticketBefore (a b : Nat) : Bool :=
  let x := (b % 2 ^ 25 + 2 ^ 25 - a % 2 ^ 25) % 2 ^ 25
  decide (1 ≤ x) && decide (x < 2 ^ 24)

def isDynTicket (t : Nat) : Bool := nbit t 25

/-- The open dynamic operations of a slice that carry a ticket. -/
def Ctl.ticketed (s : Ctl) (n : Nat) : List Nat :=
  (s.openOps n).filter (fun k => !(s.opOf k).sched && isDynTicket (s.opDesc k).ticket)

/-- COL_SLICE: descriptors OPEN and the earliest open dynamic ticket. -/
def Ctl.refreshCol (s : Ctl) (n : Nat) : Ctl :=
  let s := s.wr (COL_SLICE.OPEN n) (s.openOps n).length
  match s.ticketed n with
  | [] => (s.wrB (COL_SLICE.LOW_VALID n) false).wr (COL_SLICE.LOW_TICKET n) 0
  | k :: t =>
    let low := t.foldl (fun a x => if ticketBefore (s.opDesc x).ticket a then (s.opDesc x).ticket else a) (s.opDesc k).ticket
    (s.wrB (COL_SLICE.LOW_VALID n) true).wr (COL_SLICE.LOW_TICKET n) low

/-! ## Abandonment (R154, R180) -/

/-- An open operation is abandoned with a code: it is served no longer, its early contributions leave
their buffers, and the step it is linked to fails (R206). At a swap SWAP_ABANDON stands for its
COL_ABANDON (R57). -/
def Ctl.abandonOp (s : Ctl) (k code : Nat) (note : Bool := true) : Ctl :=
  if !s.opOpen k then s
  else
    let n := k / 512
    let i := k % 512
    let o := s.opOf k
    let s := o.early.foldl (fun s e => s.releaseBuf (4 * n + 1) e.pool e.cls e.idx) s
    let s := if note then s.raiseCol Src.COL_ABANDON k 0 0 else s
    let s := (s.wr (COL_DESC_STATUS.STATE n i) 3).wr (COL_DESC_STATUS.CODE n i) code
    let s := s.setOp k {}
    let s := { s with held := s.held.filter (fun h => h.update || h.opTag != k) }
    let s := s.wr (TWN_SLICE.HELD n) (s.held.filter (fun h => h.n = n && !h.left)).length
    let s := match o.step with
      | none => s
      | some st =>
        let d := s.domOf n
        let s := s.modAcc d st (fun a => { a with linked := a.linked.filter (fun x => x != k), lost := true })
        if st = s.stepNo d then s.stepFail d Fail.ABANDONED else s
    s.refreshCol n

/-! ## Opening (R154, R155) -/

/-- Fields of check 15 of Table COL-3, as an opening applies them (`dyn`) or a load does. -/
def Ctl.descFieldsOk (s : Ctl) (dom bank : Nat) (dyn : Bool) (d : Desc) : Bool :=
  !d.resv && (dyn || d.mcMask == 0) && decide (d.inFmt ≤ 2) && decide (d.chkSel ≤ 2) && decide (1 ≤ d.chunks) &&
    (if d.kind = 7 then dyn && d.ringN == 1 && d.edge && decide (1 ≤ d.ce ∧ d.ce ≤ 104)
     else decide (1 ≤ d.kind ∧ d.kind ≤ 6) && d.ce % 64 == 0 && decide (64 ≤ d.ce ∧ d.ce ≤ 65536)) &&
    decide (1 ≤ d.ringN ∧ d.ringN ≤ 2048 ∧ d.ringPos < d.ringN ∧ d.rootPos < d.ringN) &&
    (if dyn then d.ticket == 0 || isDynTicket d.ticket else decide (1 ≤ d.ticket ∧ d.ticket < 65536)) &&
    d.stream != 0 && (bitsOf 4 d.outFmts).all (fun v => (s.outFmt dom bank v).valid)

def groupAddr (d g : Nat) : Nat := 0x0680_0000 + d * 0x800 + g * 8

def dynBase (s : Ctl) (n : Nat) : Nat := min 32 (s.rd (COL_SLICE.DYN_BASE n)) * 2 ^ 20

/-- The checks of R155 from check 2 on, in order; OK is 0. -/
def Ctl.openCheck (s : Ctl) (n i : Nat) (d : Desc) : Nat :=
  let dom := s.domOf n
  let lim := s.schedLimit n
  if s.bit FLT_STATUS.ORDERLY || s.inSafe then St.DENIED
  else if i < lim then St.DENIED
  else if (List.range (512 - lim)).all (fun j => s.opOpen (opKey n (lim + j))) then St.NO_SLOT
  else if s.opOpen (opKey n i) then St.BUSY
  else if !s.descFieldsOk dom (s.liveBank dom) true d then St.BAD_PARAM
  else
    let g := s.rdWord (groupAddr dom d.group)
    if !nbit g 0 || (nbit g 1 && d.ticket == 0) then St.DENIED
    else if d.inStore && [0, 4, 5].contains (s.storeState dom) then St.DENIED
    else
      let a := d.area
      if a.1 < dynBase s n ∨ 32 * 2 ^ 20 < a.2 ∨ (s.openOps n).any (fun k => rangesOverlap a (s.opDesc k).area) then St.NO_SLOT
      else St.OK

/-- The leaves of an operation that an operator has excluded from the domain (R389). -/
def Ctl.operLeaves (s : Ctl) (dom : Nat) (d : Desc) : List Nat :=
  (s.opExcl.filter (fun e => decide (e.1 = dom ∧ d.cbase ≤ e.2 ∧ e.2 < d.cbase + 32))).map (fun e => e.2 - d.cbase)

/-- Put a descriptor, whose words stand in the live window, into service. The ring predecessor of a
dynamic operation holds credit from the opening on, at the address that PREV_DEV gives (R160; log entry 106). -/
def Ctl.startOp (s : Ctl) (n i : Nat) (sched : Bool) : Ctl :=
  let k := opKey n i
  let dom := s.domOf n
  let s := s.wrWord (COL_DESC_STATUS.addr n i) 0
  let s := (s.wr (COL_DESC_STATUS.STATE n i) 1).wr (COL_DESC_STATUS.EPOCH n i) (s.epoch dom)
  let d := s.opDesc k
  let (step, s) := if d.inStore && !s.storeOff dom then (let r := s.linkOp dom k; (some r.1, r.2)) else (none, s)
  let o : OpSt := { order := s.opCount + 1, sched := sched, step := step, committed := s.rd (PST_STEP.COMMITTED dom),
                    succCredit := d.window - 1, oper := s.operLeaves dom d
                    senders := if !sched && d.ringIn then [{ dev := d.prevDev, port := 64 + n, limit := d.window - 1 }] else [] }
  let s := { s with opCount := s.opCount + 1 }
  (s.setOp k o).refreshCol n

/-- Open a dynamic operation whose descriptor words are given; on the window route (`held`) they are
already in place. -/
def Ctl.openDyn (s : Ctl) (n i : Nat) (ws : Nat → Nat) : Nat × Ctl :=
  let st := s.openCheck n i (Desc.of ws)
  if st ≠ St.OK then (st, s)
  else
    let s := (List.range 8).foldl (fun s w => s.wrWord (liveDescAddr n i w) (ws w)) s
    (St.OK, s.startOp n i false)

/-- Period number of a domain's live bank in the present slot (R41). -/
def Ctl.periodNo (s : Ctl) (d : Nat) : Nat := (s.now - (s.domMer d).start) / max 1 (s.bank d (s.liveBank d)).period

/-- A FIRST entry opens its scheduled operation (R154, R173). -/
def Ctl.openSched (s : Ctl) (n i : Nat) : Ctl :=
  let k := opKey n i
  let dom := s.domOf n
  let s := s.abandonOp k St.TIMEOUT
  let bank := s.liveBank dom
  let s := (List.range 8).foldl (fun s w => s.wrWord (liveDescAddr n i w) (s.rdWord (tmplAddr n bank i + 8 * w))) s
  let w7 := s.rdWord (liveDescAddr n i 7)
  let t := nfld w7 0 16 + (s.periodNo dom % 512) * 65536
  let s := s.wrWord (liveDescAddr n i 7) (w7 - nfld w7 0 26 + t)
  s.startOp n i true

/-! ## Held elements -/

/-- The first held run that covers a place. -/
def segAt (l : List Seg) (p : Nat) : Option Seg := l.find? (fun x => decide (x.off ≤ p) && decide (p < x.off + x.data.length))

/-- Gather elements from `p` on, at most `n` runs; complete where `size` is reached. -/
def segWalk (l : List Seg) (size : Nat) : Nat → Nat → List Nat → Option (List Nat)
  | 0, p, acc => if size ≤ p then some (acc.take size) else none
  | n + 1, p, acc =>
    if size ≤ p then some (acc.take size)
    else match segAt l p with
      | none => none
      | some x => segWalk l size n (x.off + x.data.length) (acc ++ x.data.drop (p - x.off))

/-- All `size` elements, where every one is held. -/
def segAll (l : List Seg) (size : Nat) : Option (List Nat) := segWalk l size (l.length + 1) 0 []

/-- The place already holds every element of a run (Table COL-4, row 4). -/
def segHas (l : List Seg) (off n : Nat) : Bool :=
  (List.range n).all (fun i => (segAt l (off + i)).isSome)

/-! ## Members (R161, R177-R179) -/

/-- A leaf is excluded from a chunk. -/
def OpSt.isExcluded (o : OpSt) (j c : Nat) : Bool := o.excluded.any (fun e => e.1 = j && decide (e.2 ≤ c))

/-- The leaves present in a chunk's tree. -/
def Ctl.present (s : Ctl) (k c : Nat) : List Nat :=
  let d := s.opDesc k
  if d.edge then (bitsOf 32 d.cmask).filter (fun j => !(s.opOf k).isExcluded j c) else []

/-! ## ACCEPT windows (R45, R158) -/

/-- The ACCEPT entry of a chunk on a link: the entry of the descriptor on that link with the highest
CHUNK not above it. -/
def Ctl.windowKey (s : Ctl) (n i link c : Nat) : Option Nat :=
  let k := s.liveBank (s.domOf n)
  ((s.table n k).filter (fun e => e.2.action = Act.ACCEPT && e.2.desc = i && e.2.link = link && decide (e.2.chunk ≤ c))).foldl
    (fun b e => match b with
      | none => some e.2.chunk
      | some x => some (max x e.2.chunk)) none

/-- The window of a chunk as this opening has met it. -/
def OpSt.window (o : OpSt) (link from_ : Nat) : Option (Option Nat) :=
  (o.windows.find? (fun w => w.1 = link && w.2.1 = from_)).map (fun w => w.2.2)

/-- Bin of a lateness (R159). -/
def lateBin (late : Nat) : Nat :=
  if late = 0 then 0 else if late = 1 then 1 else if late ≤ 3 then 2 else if late ≤ 7 then 3 else if late ≤ 15 then 4
  else if late ≤ 63 then 5 else if late ≤ 255 then 6 else 7

/-- Count a contribution in a bin of its edge link; COL_LATE in bins 6 and 7. -/
def Ctl.countLate (s : Ctl) (k c contrib link bin : Nat) : Ctl :=
  let f := if bin % 2 = 0 then COL_LATE_HIST.BIN_LO link (bin / 2) else COL_LATE_HIST.BIN_HI link (bin / 2)
  let s := s.sat f 1
  if 6 ≤ bin then s.raiseCol Src.COL_LATE k c contrib else s

/-! ## Placing (R157, R172, R324) -/

/-- Elements of a contribution or a partial as FP32 codes. -/
def Ctl.elements (s : Ctl) (k : Nat) (p : Pkt) : List Nat :=
  let d := s.opDesc k
  if p.contrib = 0xFFF ∨ d.inFmt = 0 then (List.range (p.payload.length / 4)).map (fun i => leAt p.payload (4 * i) 4)
  else
    let st := s.strict (s.domOf (k / 512))
    (List.range (p.payload.length / 2)).map (fun i => toF32 st (decodeFmt (fmtOf d.inFmt) st (leAt p.payload (2 * i) 2)))

/-- Key of the bytes of an MCAST packet. -/
def varKey (contrib : Nat) : Nat := if contrib = 0xFFF then 15 else contrib

/-- Bytes of a chunk in a variant's format. -/
def Ctl.variantBytes (s : Ctl) (k contrib : Nat) : Nat :=
  let d := s.opDesc k
  let dom := s.domOf (k / 512)
  if contrib = 0xFFF then 4 * d.ce
  else
    let f := s.outFmt dom (s.liveBank dom) contrib
    chunkBytes (fmtOf f.fmt) f.scaled d.ce

/-- Byte offset within its chunk of an MCAST packet's payload (R168). -/
def Ctl.mcastOff (s : Ctl) (k : Nat) (p : Pkt) : Nat :=
  p.addr - (s.opDesc k).dst - p.chunk * s.variantBytes k p.contrib

/-- A copy to the twin's slice while the twin's link of the same number is not UP (R324). -/
def Ctl.forwardFill (s : Ctl) (n : Nat) (x : InPkt) : Ctl :=
  if x.inp < 48 ∧ nbit s.tw.fill x.inp ∧ x.pkt.typ = Typ.CONTRIB ∧ s.twinOn ∧ s.rd (TWN_MODE.MODE x.pkt.domain) = 0 then
    let p := x.pkt
    s.issue n { typ := Typ.CONTRIB, vc := 0, dstDev := s.rd TWN_STATUS.TWIN_DEV, dstPort := 64 + n, domain := p.domain,
                ticket := p.ticket, stream := 0xFFFD, addr := p.addr, chkSel := p.chkSel, isFirst := p.isFirst,
                isLast := p.isLast, opTag := p.opTag, contrib := p.contrib, chunk := p.chunk, payload := p.payload,
                epoch := p.epoch }
  else s

/-- Put a packet's payload into the working area of its operation. -/
def Ctl.place (s : Ctl) (k : Nat) (x : InPkt) : Ctl :=
  let p := x.pkt
  let d := s.opDesc k
  let bs := p.payload.map BitVec.toNat
  let xs := s.elements k p
  let mo := s.mcastOff k p
  let now := s.now
  let slots := s.slots
  s.modChunk k p.chunk (fun c =>
    let c := { c with first := some (c.first.getD slots), firstMer := if c.first.isNone then now else c.firstMer,
                      reform := c.reform || p.reform }
    if p.typ = Typ.MCAST then
      let v := varKey p.contrib
      { c with vars := tblPut (fun _ => []) c.vars v (tblGet (fun _ => []) c.vars v ++ [{ off := mo, data := bs }]),
               partVc4 := c.partVc4 || p.vc = 4 }
    else if p.contrib = 0xFFF then { c with part := c.part ++ [{ off := p.addr, data := xs }], partVc4 := c.partVc4 || p.vc = 4 }
    else
      let j := p.contrib - d.cbase
      { c with leaves := tblPut (fun _ => []) c.leaves j (tblGet (fun _ => []) c.leaves j ++ [{ off := p.addr, data := xs }]) })

/-! ## Table COL-4 -/

/-- What becomes of a packet: its alive value seen or not, and the code of a NACK. -/
inductive Verdict where
  | seen
  | unseen (code : Nat)
deriving DecidableEq, Repr

/-- Row 1: no operation open at the tag with this ticket and epoch. -/
def Ctl.tagUnknown (s : Ctl) (k : Nat) (p : Pkt) : Bool :=
  let e := s.rd (COL_DESC_STATUS.EPOCH (k / 512) (k % 512))
  !s.opOpen k || (s.opDesc k).ticket != p.ticket || (e != p.epoch && e != (p.epoch + 1) % 8)

/-- Row 3. -/
def Ctl.fieldsBad (s : Ctl) (k : Nat) (p : Pkt) : Bool :=
  let d := s.opDesc k
  decide (d.chunks ≤ p.chunk) ||
    (if p.typ = Typ.MCAST then !([2, 3, 5].contains d.kind) || (p.contrib != 0xFFF && !(decide (p.contrib < 4) && nbit d.outFmts p.contrib))
     else p.contrib != 0xFFF && (decide (p.contrib < d.cbase) || decide (d.cbase + 32 ≤ p.contrib) || !nbit d.cmask (p.contrib - d.cbase)))

/-- Row 4: the place already holds what the packet brings. -/
def Ctl.alreadyHeld (s : Ctl) (k : Nat) (p : Pkt) : Bool :=
  let c := s.chunkOf k p.chunk
  if p.typ = Typ.MCAST then segHas (tblGet (fun _ => []) c.vars (varKey p.contrib)) (s.mcastOff k p) p.payload.length
  else
    let n := (s.elements k p).length
    if p.contrib = 0xFFF then segHas c.part p.addr n
    else segHas (tblGet (fun _ => []) c.leaves (p.contrib - (s.opDesc k).cbase)) p.addr n

/-- Place, forward to the twin where it lacks the link, and note the edge link of the contributor. -/
def Ctl.takeIn (s : Ctl) (k : Nat) (x : InPkt) : Ctl :=
  let p := x.pkt
  let s := (s.place k x).forwardFill (k / 512) x
  if p.typ = Typ.CONTRIB ∧ p.contrib ≠ 0xFFF ∧ x.inp < 48 then
    s.modOp k (fun o => { o with linkOf := tblPut (fun _ => none) o.linkOf (p.contrib - (s.opDesc k).cbase) (some x.inp) })
  else s

/-- Rows 6 to 8: a scheduled operation. -/
def Ctl.acceptSched (s : Ctl) (k : Nat) (x : InPkt) : Verdict × Ctl :=
  let n := k / 512
  let p := x.pkt
  let wk := if x.inp < 48 then s.windowKey n (k % 512) x.inp p.chunk else none
  let w := wk.bind (fun f => (s.opOf k).window x.inp f)
  let edge := x.inp < 48 ∧ s.rd (LNK_CTRL.ROLE x.inp) = 1
  let count (s : Ctl) (late : Nat) : Ctl :=
    if p.typ = Typ.CONTRIB ∧ p.contrib ≠ 0xFFF ∧ p.isLast ∧ edge ∧ wk.isSome then s.countLate k p.chunk p.contrib x.inp (lateBin late)
    else s
  match w with
  | some none => (.seen, count (s.takeIn k x) 0)
  | _ =>
    let (ok, s1) := s.requestBuf (4 * n + 1) p.payload.length
    if !ok then
      let s := s1.sat COL_STAT.NO_SLOT 1
      (.unseen St.NO_SLOT, s.raiseCol Src.COL_NO_SLOT k p.chunk p.contrib)
    else
      match s1.pools.held.getLast? with
      | none => (.seen, s1)
      | some b =>
        match wk, w with
        | some f, none =>
          let s := s1.modOp k (fun o => { o with early := o.early ++ [{ x := x, link := x.inp, from_ := f, pool := b.pool, cls := b.cls, idx := b.idx }] })
          (.seen, count s 0)
        | _, _ =>
          let late := match w with | some (some e) => s1.slots - e | _ => 0
          let s := (s1.releaseBuf (4 * n + 1) b.pool b.cls b.idx).takeIn k x
          (.seen, count s late)

/-- Rows 9 and 10: a dynamic operation. -/
def Ctl.acceptDyn (s : Ctl) (k : Nat) (x : InPkt) : Verdict × Ctl :=
  let p := x.pkt
  let is (e : Sender) : Bool := e.dev = p.srcDev && e.port = p.srcPort
  let via := if p.hopLocal ∧ x.inp < 48 then some x.inp else none
  let s := if (s.opOf k).senders.any is then s
    else s.modOp k (fun o => { o with senders := o.senders ++ [{ dev := p.srcDev, port := p.srcPort, via := via, limit := (s.opDesc k).window - 1 }] })
  let lim := (((s.opOf k).senders.find? is).map (fun e => e.limit)).getD 0
  if lim < p.chunk then (.unseen St.BUSY, s) else (.seen, s.takeIn k x)

/-- Take a CONTRIB or MCAST packet through Table COL-4. -/
def Ctl.accept (s : Ctl) (n : Nat) (x : InPkt) : Verdict × Ctl :=
  let p := x.pkt
  let k := opKey n (p.opTag % 512)
  if s.opState k = 3 ∧ (s.opDesc k).ticket = p.ticket then
    (.unseen (s.rd (COL_DESC_STATUS.CODE n (p.opTag % 512))), s)
  else if s.tagUnknown k p then
    let s := s.sat COL_STAT.UNKNOWN_TAG 1
    let subj : Subj := { domain := some p.domain, slice := some n, opTag := some (p.opTag % 2 ^ 15), chunk := p.chunk }
    (.unseen St.NOT_FOUND, s.raiseOnce Src.COL_UNKNOWN_TAG n subj p.ticket (p.contrib % 4096))
  else if s.fieldsBad k p then (.unseen St.BAD_PARAM, s.screenCount x LNK_SCREEN.HDR_BAD 1)
  else if s.alreadyHeld k p then (.seen, (s.sat COL_STAT.DUP 1).raiseCol Src.COL_DUP k p.chunk p.contrib)
  else
    let o := s.opOf k
    let c := o.chunk p.chunk
    if p.typ = Typ.CONTRIB ∧ p.contrib ≠ 0xFFF ∧ (o.isExcluded (p.contrib - (s.opDesc k).cbase) p.chunk ∧ c.summed) then
      (.seen, s.sat COL_STAT.LATE 1)
    else if o.sched then s.acceptSched k x
    else s.acceptDyn k x

/-- The tail of a packet at a consumer (R101, R112, R337): good, or its poison and failed checks. -/
def Ctl.tailCheck (s : Ctl) (x : InPkt) : Bool × Ctl :=
  if x.pkt.poison then (false, s)
  else if x.pkt.chkGood then (true, s)
  else if x.chkOk then
    (false, (s.sat FLT_CHK_COUNT.INTERNAL 1).raise Src.CHK_INTERNAL { domain := some x.pkt.domain, port := some x.inp }
      x.pkt.w0 x.pkt.w1)
  else (false, s)

/-- A packet of an operation at its slice: a standby's or an old primary's answer (R327, R328), the
alive screen, the tail, and Table COL-4. -/
def Ctl.takeColl (s : Ctl) (n : Nat) (x : InPkt) : Ctl :=
  let p := x.pkt
  if s.twinState n = Tws.STANDBY ∧ p.typ = Typ.CONTRIB then
    if s.tw.nackDoms.contains p.domain then s.nack (64 + n) x St.LINK_LOST
    else s.sat TWN_COUNT.DISCARDED 1
  else
    let (cls, s) := s.screen n x
    if !cls.accepted then s
    else
      let (good, s) := s.tailCheck x
      if !good then s.tailDone n p false
      else
        match s.accept n x with
        | (.seen, s) => s.tailDone n p true
        | (.unseen code, s) => (s.tailDone n p false).nack (64 + n) x code

/-! ## Credits (R160) -/

/-- Extend every sender's credit to L + WINDOW - 1. -/
def Ctl.extendCredit (s : Ctl) (k : Nat) : Ctl :=
  let d := s.opDesc k
  let o := s.opOf k
  let hi := min (o.low + d.window - 1) (d.chunks - 1)
  o.senders.foldl (fun s e =>
    if e.limit < hi then
      let s := s.modOp k (fun o => { o with senders := updWhere (fun x => x.dev = e.dev && x.port = e.port) (fun x => { x with limit := hi }) o.senders })
      let p : Pkt := { typ := Typ.CREDIT, vc := 1, domain := s.domOf (k / 512), ticket := d.ticket, opTag := k, chunk := hi,
                       srcDev := s.devNum, srcPort := 64 + k / 512,
                       dstDev := if e.via.isSome then 0 else e.dev, dstPort := e.port, hopLocal := e.via.isSome }
      s.offer (48 + k / 512) p (e.via.map (fun l => 1 <<< l))
    else s) s

/-- A CREDIT from the ring successor; a lower CHUNK than one already received is ignored. -/
def Ctl.takeCredit (s : Ctl) (n : Nat) (p : Pkt) : Ctl :=
  let k := opKey n (p.opTag % 512)
  if s.opOpen k ∧ !(s.opOf k).sched ∧ (s.opDesc k).ticket = p.ticket then
    s.modOp k (fun o => { o with succCredit := max o.succCredit p.chunk })
  else s

/-! ## Exclusion (R179) -/

/-- Exclude a leaf from a chunk and every later one; REFORMED, the count, the histogram and
COL_REFORM. A leaf already excluded from a later chunk on is excluded from this one too, and counted
once. -/
def Ctl.excludeLeaf (s : Ctl) (k c j : Nat) : Ctl :=
  let n := k / 512
  let i := k % 512
  let o := s.opOf k
  let contrib := (s.opDesc k).cbase + j
  if o.isExcluded j c then s
  else
    let again := o.excluded.any (fun e => e.1 = j)
    let s := s.modOp k (fun o => { o with excluded := o.excluded.filter (fun e => e.1 != j) ++ [(j, c)] })
    let s := s.wrB (COL_DESC_STATUS.REFORMED n i) true
    let s := if again then s else s.sat (COL_DESC_STATUS.EXCLUDED n i) 1
    let s := s.modChunk k c (fun x => { x with reform := true })
    let s := match tblGet (fun _ => none) o.linkOf j with
      | some l => if o.sched && !again then s.countLate k c contrib l 7 else s
      | none => s
    s.raiseCol Src.COL_REFORM k c contrib

end Sys2Proof.Machine
end

