-- ==== Sys2Proof/Machine/Reduce.lean ====
section
/-!
DEFINITION. Collective operations, second part (spec/06_collectives.md R160-R181): the reduction tree
and the ring, sources and conversions, what a slice holds for its twin and what it sends, completion,
and missing members.
-/

namespace Sys2Proof.Machine

/-! ## The tree (R161) -/

/-- Value of node `m` of a level: none while incomplete, `some none` where absent. A node with one
present child is that child; one with two holds their sum once it has been computed. -/
def Ctl.nodeVal (s : Ctl) (k c : Nat) : Nat → Nat → Option (Option (List Nat))
  | 0, j =>
    if (s.present k c).contains j then
      (segAll (tblGet (fun _ => []) (s.chunkOf k c).leaves j) (s.opDesc k).ce).map some
    else some none
  | l + 1, m =>
    match tblGet (fun _ => none) (s.chunkOf k c).nodes ((l + 1) * 32 + m) with
    | some xs => some (some xs)
    | none =>
      match s.nodeVal k c l (2 * m), s.nodeVal k c l (2 * m + 1) with
      | some none, v => v
      | v, some none => v
      | _, _ => none

def addLists (st : Bool) (a b : List Nat) : List Nat := List.zipWith (fadd st) a b

/-- Both children of a node are complete and its sum is not yet there. -/
def Ctl.nodeReady (s : Ctl) (k c l m : Nat) : Option (List Nat × List Nat) :=
  match l with
  | 0 => none
  | l' + 1 =>
    if (tblGet (fun _ => none) (s.chunkOf k c).nodes (l * 32 + m)).isSome then none
    else match s.nodeVal k c l' (2 * m), s.nodeVal k c l' (2 * m + 1) with
      | some (some a), some (some b) => some (a, b)
      | _, _ => none

/-! ## Sources (R172, R196, R204, R211) -/

/-- A source chunk: FP32 values, poison, and the generator's inputs. -/
structure SrcData where
  xs : List Nat
  poison : Bool
  step : Nat
  tensor : Nat
  idx0 : Nat

inductive SrcRes where
  | notReady
  | gone
  | data (x : SrcData)

/-- Read chunk `c` of an operation's source, where it is ready. -/
def Dev.readSource (d : Dev) (k c : Nat) : SrcRes :=
  let s := d.ctl
  let n := k / 512
  let dom := s.domOf n
  let de := s.opDesc k
  let o := s.opOf k
  let st := s.strict dom
  let w := winOf de.src
  let plain (xs : List Nat) (p : Bool) : SrcRes :=
    .data { xs := xs, poison := p, step := (o.committed + 1) % 2 ^ 32, tensor := 0, idx0 := c * de.ce }
  if w < 2 then
    match s.ownedChunk dom ((winOff de.src / 4 + c * de.ce) / max 1 (s.ce dom)) with
    | none => .gone
    | some id =>
      let cs := s.chunkSt dom id.k
      let t := s.tensor dom id.t
      let idx0 := (id.g - t.first (s.ce dom)) * s.ce dom
      if w = 0 then
        let waits := (tblGet (fun _ => none) (s.pstOf dom).acc.sumsq id.g).isSome && !(s.pstOf dom).acc.skipped.contains id.t
          && cs.stamp != s.stepNo dom % 2 ^ 32
        if waits then .notReady
        else
          let (xs, p) := d.weights dom id.k cs.cur
          .data { xs := xs, poison := p, step := cs.stamp, tensor := id.t, idx0 := idx0 }
      else if cs.stamp ≤ o.committed then
        let (xs, p) := d.weights dom id.k cs.cur
        .data { xs := xs, poison := p, step := cs.stamp, tensor := id.t, idx0 := idx0 }
      else if s.wCopies dom = 2 ∧ cs.prev ≤ o.committed then
        let (xs, p) := d.weights dom id.k (!cs.cur)
        .data { xs := xs, poison := p, step := cs.prev, tensor := id.t, idx0 := idx0 }
      else .gone
  else if w = 3 then
    let t0 := winOff de.src / 4 + c * de.ce
    let step := o.step.getD (s.stepNo dom)
    if (List.range de.ce).all (fun i => s.partialFinal dom step (t0 + i)) then
      plain ((List.range de.ce).map (fun i => (tblGet (fun _ => none) (s.accOf dom step).partials (t0 + i)).getD 0)) false
    else .notReady
  else
    let f := if w < 8 then Fmt.fp32 else fmtOf de.inFmt
    let n := chunkBytes f false de.ce
    match d.winRead dom (de.src + c * n) n with
    | (0, bs, p) =>
      plain (if f = .fp32 then (List.range de.ce).map (fun i => leAt bs (4 * i) 4) else decodeChunk f false st de.ce bs) p
    | _ => .gone

/-! ## Conversion (R168, R204) -/

/-- A chunk's bytes as sent with CONTRIB `v`: FP32, or variant `v`. -/
def Ctl.convertVar (s : Ctl) (k v : Nat) (x : SrcData) : List Byte :=
  let dom := s.domOf (k / 512)
  let st := s.strict dom
  if v = 0xFFF then x.xs.flatMap (toBytes 4)
  else
    let f := s.outFmt dom (s.liveBank dom) v
    let seed := s.rdWord (PST_SEED.addr dom)
    let r (i : Nat) : Nat := stochBits s.fuse.stepA1 (fmtOf f.fmt) (draw seed x.step x.tensor (x.idx0 + i) f.stream)
    convertChunk (fmtOf f.fmt) f.scaled st f.ovfNan (if f.stoch then some r else none) x.xs

/-- CONTRIB values of the copies that an operation multicasts (R168). -/
def Desc.variants (d : Desc) : List Nat :=
  let vs := bitsOf 4 d.outFmts
  match d.kind with
  | 6 => [vs.headD 0xFFF]
  | 3 => vs
  | _ => if vs.isEmpty then [0xFFF] else vs

/-- Links that a slice's schedule or MC_MASK names for copies of a chunk. -/
def Ctl.mcLinks (s : Ctl) (k c : Nat) : Nat :=
  let d := s.opDesc k
  if (s.opOf k).sched then
    ((s.table (k / 512) (s.liveBank (s.domOf (k / 512)))).filter (fun e =>
      e.2.action = Act.MCAST && e.2.desc = k % 512 && decide (e.2.chunk ≤ c))).foldl (fun m e => m ||| e.2.mask) 0
  else d.mcMask

/-- Those of them that receive the copies with CONTRIB `v`. -/
def Ctl.variantMask (s : Ctl) (k v m : Nat) : Nat :=
  let dom := s.domOf (k / 512)
  if v = 0xFFF ∨ (s.opDesc k).kind = 6 then m
  else maskOf ((bitsOf 48 m).filter (fun l => s.linkVariant dom (s.liveBank dom) l = v))

/-! ## Holding for the twin (R320, R321) -/

/-- An internal check fired on a slice since a Meridian slot (R323). -/
def Ctl.checksFired (s : Ctl) (n from_ : Nat) : Bool :=
  let srcs := [Src.SLC_CORRECTED n, Src.SLC_UNCORRECTED n, Src.SLC_ENGINE n] ++
    (List.range 16).flatMap (fun k => [Src.MEM_CE k, Src.MEM_UE k])
  srcs.any (fun x => (s.flt.inflight.any (fun e => e.src = x && decide (from_ ≤ e.slot))) ||
    (s.rd (FLT_SRC.COUNT x) != 0 && decide (from_ ≤ s.rd (FLT_SRC.LAST x))))

/-- Words of a slice record (Table TWN-2). -/
def TwinRec.bytes (r : TwinRec) : List Byte :=
  toBytes 8 (r.kind + r.attempt <<< 4 + (b2n r.checks) <<< 5 + r.variant <<< 6 + r.opTag <<< 9 + r.chunk <<< 32)
    ++ toBytes 8 r.value ++ toBytes 8 r.ticket ++ toBytes 8 (r.local_ + r.step <<< 32)

def TwinRec.of (bs : List Byte) : TwinRec :=
  let w0 := leAt bs 0 8
  let w3 := leAt bs 24 8
  { kind := nfld w0 0 4, attempt := nfld w0 4 1, checks := nbit w0 5, variant := nfld w0 6 2, opTag := nfld w0 9 15,
    chunk := nfld w0 32 20, value := leAt bs 8 8, ticket := nfld (leAt bs 16 8) 0 26, local_ := nfld w3 0 32,
    step := nfld w3 32 32 }

/-- ADDR of slice records and of the mirror stream. -/
def sliceRecAddr : Nat := 0x1FF_FFFF_FFFF_C000
def mirrorAddr : Nat := 0x1FF_FFFF_FFFF_E000

/-- Send a slice record to the twin's slice (R313). -/
def Ctl.sendSliceRec (s : Ctl) (n : Nat) (r : TwinRec) : Ctl :=
  s.issue n { typ := Typ.WRITE, vc := 0, ackReq := true, dstDev := s.rd TWN_STATUS.TWIN_DEV, dstPort := 64 + n,
              domain := s.domOf n, stream := 0xFFFE, addr := sliceRecAddr, chkSel := 2, isFirst := true, isLast := true,
              payload := r.bytes }

/-- Leaves agreed as excluded from a chunk. -/
def Ctl.exclMask (s : Ctl) (k c : Nat) : Nat :=
  maskOf (((s.opOf k).excluded.filter (fun e => decide (e.2 ≤ c))).map Prod.fst)

/-- The chunk's packets carry REFORM. -/
def Ctl.chunkReform (s : Ctl) (k c : Nat) : Bool := (s.chunkOf k c).reform || s.exclMask k c != 0

/-- VARIANT of a record. -/
def recVariant (contrib : Nat) : Nat := if contrib = 0xFFF then 0 else contrib

/-- The signature of a RELEASE (R321). -/
def Ctl.releaseSig (s : Ctl) (k c contrib : Nat) (bytes : List Byte) : Nat :=
  let w0 := 1 + (recVariant contrib) <<< 6 + k <<< 9 + c <<< 32
  crc64 (toBytes 8 w0 ++ toBytes 8 (s.opDesc k).ticket ++ toBytes 8 (b2n (s.chunkReform k c) + s.exclMask k c <<< 32) ++ bytes)

def Ctl.heldRefresh (s : Ctl) (n : Nat) : Ctl :=
  s.wr (TWN_SLICE.HELD n) (s.held.filter (fun h => h.n = n && !h.left)).length

/-- A COMPARED slice holds a chunk's copies with CONTRIB `v` (kind 0 the partial) and sends its
RELEASE record. -/
def Ctl.holdRelease (s : Ctl) (k c v kind : Nat) (bytes : List Byte) : Ctl :=
  let n := k / 512
  let from_ := (s.chunkOf k c).firstMer
  let sig := s.releaseSig k c v bytes
  let ck := s.checksFired n from_
  let h : HeldObj := { n := n, d := s.domOf n, opTag := k, chunk := c, variant := v, kind := kind, ticket := (s.opDesc k).ticket,
                       sig := sig, checks := ck, since := s.slots, firstMer := from_ }
  let s := ({ s with held := s.held ++ [h] }).heldRefresh n
  s.sendSliceRec n { kind := 1, checks := ck, variant := recVariant v, opTag := k, chunk := c, value := sig, ticket := h.ticket }

/-- Objects of one variant of a chunk are ready: held for the twin, or free to leave (R169). -/
def Ctl.addOuts (s : Ctl) (k c v : Nat) (objs : List OutObj) : Ctl :=
  match objs with
  | [] => s
  | x :: _ =>
    let cmp := s.compared (k / 512)
    let s := s.modChunk k c (fun y => { y with outs := y.outs ++ objs.map (fun z => { z with ok := !cmp }) })
    if cmp then s.holdRelease k c v (if x.kind = 0 then 0 else 1) x.bytes else s

/-- The edge copies of a variant, where the schedule or MC_MASK names links for them. -/
def Ctl.edgeObj (s : Ctl) (k c v : Nat) (bytes : List Byte) (poison : Bool) : List OutObj :=
  if s.variantMask k v (s.mcLinks k c) = 0 then [] else [{ kind := 2, contrib := v, bytes := bytes, poison := poison }]

/-- A copy onward along the ring, but from the last position (R167). -/
def Ctl.ringObj (s : Ctl) (k c v : Nat) (bytes : List Byte) (poison vc4 : Bool) : List OutObj :=
  let d := s.opDesc k
  let o := d.owner c
  if d.ringN ≤ 1 ∨ d.kind = 6 ∨ d.ringPos = (o + d.ringN - 1) % d.ringN then []
  else [{ kind := 1, contrib := v, bytes := bytes, poison := poison, vc4 := vc4 }]

/-! ## Completion (R154, R155, R160) -/

/-- Every part of the operation's work on a chunk at this position is done. -/
def Ctl.chunkFinished (s : Ctl) (k c : Nat) : Bool :=
  let d := s.opDesc k
  let x := s.chunkOf k c
  let own := d.owner c = d.ringPos
  !x.stuck && x.outs.all (fun o => o.done) &&
    (match d.kind with
     | 1 | 4 => x.summed && (!own || x.placed)
     | 2 | 5 => if own then x.srcRead else d.variants.all (fun v => x.varsDone.contains (varKey v))
     | 3 => x.summed && x.placed
     | 6 => x.srcRead
     | _ => x.summed)

/-- The lowest chunk not freed, at most `n` steps on. -/
def OpSt.lowFrom (o : OpSt) : Nat → Nat → Nat
  | 0, c => c
  | n + 1, c => if (o.chunk c).complete then o.lowFrom n (c + 1) else c

/-- A chunk that is finished is counted and its place freed; the operation's last one makes it DONE. -/
def Ctl.chunkDone (s : Ctl) (k c : Nat) : Ctl :=
  if !s.opOpen k || (s.chunkOf k c).complete || !s.chunkFinished k c then s
  else
    let n := k / 512
    let i := k % 512
    let s := s.modChunk k c (fun x => { x with complete := true })
    let s := s.inc (COL_DESC_STATUS.CHUNKS_DONE n i) 1
    let s := s.modOp k (fun o => { o with low := o.lowFrom (o.chunks.length + 1) o.low })
    if s.rd (COL_DESC_STATUS.CHUNKS_DONE n i) = (s.opDesc k).chunks then
      let o := s.opOf k
      let s := (s.wr (COL_DESC_STATUS.STATE n i) 2).wr (COL_DESC_STATUS.CODE n i) St.OK
      let s := o.early.foldl (fun s e => s.releaseBuf (4 * n + 1) e.pool e.cls e.idx) s
      let s := match o.step with
        | some st => s.unlinkOp (s.domOf n) st k
        | none => s
      (s.setOp k {}).refreshCol n
    else if (s.opOf k).sched then s else s.extendCredit k

/-! ## Results (R163, R164, R191) -/

/-- Place a fully reduced chunk at DST_ADDR; false where the operation was abandoned. -/
def Dev.placeResult (d : Dev) (k c : Nat) (xs : List Nat) : Bool × Dev :=
  let s := d.ctl
  let n := k / 512
  let dom := s.domOf n
  let de := s.opDesc k
  let st := s.strict dom
  let a := de.dst + c * de.ce * 4
  let mark (d : Dev) : Dev := d.onCtl (fun s => s.modChunk k c (fun x => { x with placed := true }))
  match winOf a with
  | 2 =>
    match s.ownedChunk dom (winOff a / 4 / max 1 (s.ce dom)) with
    | none => (false, d.onCtl (fun s => s.abandonOp k St.TIMEOUT))
    | some id =>
      if !s.gradFree dom id.k then
        (false, d.onCtl (fun s => ((s.raisePst Src.GRAD_OVERRUN dom (some n) id.t id.k).stepFail dom Fail.OVERRUN).abandonOp k St.TIMEOUT))
      else
        let d := d.writeDA (s.gradAddr dom id.k) (xs.flatMap (toBytes 4))
        let step := (s.opOf k).step.getD (s.stepNo dom)
        (true, mark (d.onCtl (fun s => s.placedChunk dom step n id (sumSq st xs))))
  | 3 =>
    let t0 := (winOff a - 0x1_0000_0000) / 4
    let step := (s.opOf k).step.getD (s.stepNo dom)
    (true, mark (d.onCtl (fun s => s.placeNorm dom step t0 xs)))
  | _ => (true, mark (d.putWin dom a (xs.flatMap (toBytes 4))))

/-- The second lap's objects of an ALL_REDUCE at a position that holds the result (R167). -/
def Ctl.allReduceOuts (s : Ctl) (k c : Nat) (xs : List Nat) (vc4 : Bool) : Ctl :=
  let x : SrcData := { xs := xs, poison := false, step := ((s.opOf k).committed + 1) % 2 ^ 32, tensor := 0,
                       idx0 := c * (s.opDesc k).ce }
  let raw := s.convertVar k 0xFFF x
  let s := s.addOuts k c 0xFFF (s.ringObj k c 0xFFF raw false vc4)
  (s.opDesc k).variants.foldl (fun s v => let b := s.convertVar k v x; s.addOuts k c v (s.edgeObj k c v b false)) s

/-- The final sum of a chunk at this position (R163, R164). -/
def Dev.finalSum (d : Dev) (k c : Nat) (xs : List Nat) : Dev :=
  let n := k / 512
  let d := d.onCtl (fun s =>
    let s := s.modChunk k c (fun x => { x with summed := true, result := some xs })
    if xs.any nonFinite then s.wrB (COL_DESC_STATUS.NONFINITE n (k % 512)) true else s)
  let (ok, d) := d.placeResult k c xs
  if !ok then d
  else d.onCtl (fun s => (if (s.opDesc k).kind = 3 then s.allReduceOuts k c xs false else s).chunkDone k c)

/-- The edge sum E of a chunk: none while not ready, `some none` absent; with poison (R161, R453). -/
def Dev.edgeSum (d : Dev) (k c : Nat) : Option (Option (List Nat) × Bool) :=
  if (d.ctl.opDesc k).edge then (d.ctl.nodeVal k c 5 0).map (fun v => (v, false))
  else match d.readSource k c with
    | .data x => some (some x.xs, x.poison)
    | _ => none

/-- What the hop of a chunk adds: the incoming partial where this is not the start, and E. -/
def Dev.hopInputs (d : Dev) (k c : Nat) : Option (Option (List Nat) × Option (List Nat) × Bool) :=
  let de := d.ctl.opDesc k
  let start := (de.owner c + 1) % max 1 de.ringN
  match d.edgeSum k c with
  | none => none
  | some (e, p) =>
    if de.ringN ≤ 1 ∨ de.ringPos = start then some (none, e, p)
    else (segAll (d.ctl.chunkOf k c).part de.ce).map (fun x => (some x, e, p))

/-- The hop of a chunk: its sum, the final one at the owner, else a partial to the successor (R164). -/
def Dev.hop (d : Dev) (k c : Nat) : Dev :=
  let s := d.ctl
  let de := s.opDesc k
  let st := s.strict (s.domOf (k / 512))
  let x := s.chunkOf k c
  if !s.opOpen k || !([1, 3, 4].contains de.kind) || x.stuck || x.summed || de.chunks ≤ c then d
  else match d.hopInputs k c with
    | none => d
    | some (inc, e, p) =>
      let xs := match inc, e with
        | some a, some b => addLists st a b
        | some a, none => a
        | none, some b => b
        | none, none => List.replicate de.ce 0
      if de.ringN ≤ 1 ∨ de.owner c = de.ringPos then d.finalSum k c xs
      else
        d.onCtl (fun s =>
          let s := s.modChunk k c (fun y => { y with summed := true, first := some (y.first.getD s.slots) })
          s.addOuts k c 0xFFF [{ kind := 0, bytes := xs.flatMap (toBytes 4), poison := p, vc4 := x.partVc4 }])

/-! ## Who may use the tree and the egress (R162, R176) -/

/-- A SUM entry is active on the slice. -/
def Ctl.sumActive (s : Ctl) (n : Nat) : Bool := !(s.activeWith n Act.SUM).isEmpty

/-- An addition of the operation's chunk is ready, or something of it may be sent. -/
def Dev.opReady (d : Dev) (k : Nat) : Bool :=
  let s := d.ctl
  (s.opOf k).chunks.any (fun e =>
    !e.2.complete &&
      (e.2.outs.any (fun o => o.ok && !o.done && (o.kind = 2 || decide (e.1 ≤ (s.opOf k).succCredit))) ||
        (!e.2.summed && ((List.range 5).any (fun l => (List.range 16).any (fun m => (s.nodeReady k e.1 (l + 1) m).isSome))
          || (d.hopInputs k e.1).isSome))))

/-- Chunks are still to come from inputs that credit would release. -/
def Ctl.creditToCome (s : Ctl) (k : Nat) : Bool :=
  let d := s.opDesc k
  let o := s.opOf k
  match o.senders with
  | [] => decide (o.low + d.window < d.chunks)
  | l => l.any (fun e => decide (e.limit + 1 < d.chunks))

/-- A dynamic operation may be served: no earlier ticket of its domain has a chunk ready or to come. -/
def Dev.mayServe (d : Dev) (k : Nat) : Bool :=
  let s := d.ctl
  let t := (s.opDesc k).ticket
  !isDynTicket t || (s.ticketed (k / 512)).all (fun j =>
    j = k || !ticketBefore (s.opDesc j).ticket t || (!d.opReady j && !s.creditToCome j))

/-- The operation may use the tree for a chunk now. -/
def Dev.treeFree (d : Dev) (k c : Nat) : Bool :=
  let s := d.ctl
  let n := k / 512
  let o := s.opOf k
  if o.sched then
    (s.activeWith n Act.SUM).any (fun e => e.2.desc = k % 512 && decide (e.2.chunk ≤ c)) || (o.late && !s.sumActive n)
  else !s.sumActive n && (d.mayServe k || !(o.chunk c).nodes.isEmpty)

/-- TREE_NODE_COMPLETE: node `m` of levels 1 to 5, or (level 6) the chunk's ring hop. -/
def Dev.treeNode (d : Dev) (n i c l m : Nat) : Dev :=
  let k := opKey n i
  let s := d.ctl
  if !s.opOpen k || (s.opDesc k).chunks ≤ c || (s.chunkOf k c).stuck then d
  else if l = 6 then
    match d.hopInputs k c with
    | some (some _, some _, _) => if d.treeFree k c then d.hop k c else d
    | some _ => d.hop k c
    | none => d
  else if l ≤ 5 ∧ d.treeFree k c then
    match s.nodeReady k c l m with
    | some (a, b) =>
      d.onCtl (fun s => s.modChunk k c (fun x =>
        { x with nodes := tblPut (fun _ => none) x.nodes (l * 32 + m) (some (addLists (s.strict (s.domOf n)) a b)) }))
    | none => d
  else d

/-! ## Arrived copies (R454, R167) -/

/-- A variant of a chunk has arrived whole: it is placed (ALL_REDUCE), multicast down the edge and
sent on. -/
def Dev.copyArrived (d : Dev) (k c v : Nat) : Dev :=
  let s := d.ctl
  let de := s.opDesc k
  let x := s.chunkOf k c
  if !s.opOpen k || x.stuck || x.varsDone.contains (varKey v) then d
  else match segAll (tblGet (fun _ => []) x.vars (varKey v)) (s.variantBytes k v) with
    | none => d
    | some bs =>
      let bytes := bs.map (BitVec.ofNat 8)
      let d := d.onCtl (fun s => s.modChunk k c (fun y => { y with varsDone := varKey v :: y.varsDone }))
      if de.kind = 3 then
        let xs := (List.range de.ce).map (fun i => leAt bytes (4 * i) 4)
        let (ok, d) := d.placeResult k c xs
        if ok then d.onCtl (fun s => (s.allReduceOuts k c xs x.partVc4).chunkDone k c) else d
      else d.onCtl (fun s =>
        (s.addOuts k c v (s.ringObj k c v bytes false x.partVc4 ++ s.edgeObj k c v bytes false)).chunkDone k c)

/-! ## Sending (R45, R157, R165, R167, R168) -/

/-- The owner reads a source chunk and makes its copies (R172). -/
def Dev.fetchSource (d : Dev) (k c : Nat) : Dev :=
  let s := d.ctl
  let de := s.opDesc k
  let x := s.chunkOf k c
  if !([2, 5, 6].contains de.kind) || x.srcRead || de.chunks ≤ c || (de.kind ≠ 6 ∧ de.owner c ≠ de.ringPos)
      || (s.opOf k).low + de.window ≤ c then d
  else match d.readSource k c with
    | .notReady => d
    | .gone => d.onCtl (fun s => s.abandonOp k St.TIMEOUT)
    | .data src =>
      d.onCtl (fun s =>
        let s := s.modChunk k c (fun y => { y with srcRead := true, first := some (y.first.getD s.slots), firstMer := s.now })
        let s := de.variants.foldl (fun s v =>
          let b := s.convertVar k v src
          s.addOuts k c v (s.ringObj k c v b src.poison false ++ s.edgeObj k c v b src.poison)) s
        s.chunkDone k c)

/-- Packets of an object: 8,192 payload bytes each. -/
def packetCount (o : OutObj) : Nat := cdiv o.bytes.length 8192

/-- Packet `i` of an object. -/
def Ctl.objPacket (s : Ctl) (k c : Nat) (o : OutObj) (i vc : Nat) : Pkt :=
  let d := s.opDesc k
  { typ := if o.kind = 0 then Typ.CONTRIB else Typ.MCAST, vc := vc, domain := s.domOf (k / 512), ticket := d.ticket,
    stream := d.stream, chkSel := d.chkSel, opTag := k, contrib := o.contrib, chunk := c,
    addr := if o.kind = 0 then i * 2048 else d.dst + c * o.bytes.length + i * 8192,
    isFirst := i = 0, isLast := i + 1 = packetCount o, reform := s.chunkReform k c, poison := o.poison,
    payload := (o.bytes.drop (i * 8192)).take 8192 }

def pktUnits (o : OutObj) (i : Nat) : Nat := cdiv (48 + min 8192 (o.bytes.length - i * 8192)) 256

/-- Note the progress of the object at place `j` of a chunk. -/
def Ctl.setOut' (s : Ctl) (k c j : Nat) (o : OutObj) : Ctl :=
  s.modChunk k c (fun x => { x with outs := x.outs.set j o })

/-- Send one packet of an object under an entry (or as late traffic): on `mask`, with the entry's VC. -/
def Ctl.sendObj (s : Ctl) (k c j mask vc : Nat) : Ctl :=
  match (s.chunkOf k c).outs[j]? with
  | none => s
  | some o =>
    let s := s.issue (k / 512) (s.objPacket k c o o.sent (if o.kind < 2 ∧ o.vc4 then 4 else vc)) (some mask)
    let o' := { o with sent := o.sent + 1 }
    if o'.sent < packetCount o then s.setOut' k c j o'
    else
      let served := o.doneMask ||| mask
      let want := s.variantMask k o.contrib (s.mcLinks k c)
      let all := o.kind < 2 ∨ (want &&& served) = want
      (s.setOut' k c j { o' with sent := 0, doneMask := served, done := all }).chunkDone k c

/-- Links that an MCAST entry still owes an object. -/
def Ctl.owed (s : Ctl) (k : Nat) (o : OutObj) (mask : Nat) : Nat :=
  let m := s.variantMask k o.contrib mask
  m ^^^ (m &&& o.doneMask)

/-- The next object for an entry: the lowest chunk from `from_` on, its first object that may go. -/
def Ctl.nextObj (s : Ctl) (k from_ : Nat) (mcast : Bool) (mask : Nat) : Option (Nat × Nat × Nat) :=
  ((s.opOf k).chunks.filter (fun e => decide (from_ ≤ e.1) && !e.2.stuck)).findSome? (fun e =>
    (List.range e.2.outs.length).findSome? (fun j =>
      match e.2.outs[j]? with
      | none => none
      | some o =>
        if o.done || !o.ok then none
        else if mcast then
          (if o.kind = 2 then (let w := s.owed k o mask; if w = 0 then none else some (e.1, j, w)) else none)
        else if o.kind < 2 then some (e.1, j, mask) else none))

/-- The next source chunk an entry covers and the slice has not read. -/
def Ctl.nextSource (s : Ctl) (k from_ : Nat) : Option Nat :=
  let d := s.opDesc k
  let o := s.opOf k
  if !([2, 5, 6].contains d.kind) then none
  else ((List.range d.window).map (fun i => max from_ o.low + i)).find? (fun c =>
    decide (c < d.chunks) && !(o.chunk c).srcRead && (d.kind = 6 || d.owner c = d.ringPos))

/-- What one active SEND or MCAST entry sends in its slot: at most `n` packets and reads. -/
def Dev.runEntry (k from_ mask vc : Nat) (mcast : Bool) : Nat → Nat → Dev → Nat × Dev
  | 0, budget, d => (budget, d)
  | n + 1, budget, d =>
    if !d.ctl.opOpen k then (budget, d)
    else match d.ctl.nextObj k from_ mcast mask with
      | some (c, j, m) =>
        let o := ((d.ctl.chunkOf k c).outs[j]?).getD {}
        let u := pktUnits o o.sent
        if budget < u then (budget, d)
        else Dev.runEntry k from_ mask vc mcast n (budget - u) (d.onCtl (fun s => s.sendObj k c j m vc))
      | none =>
        match d.ctl.nextSource k from_ with
        | none => (budget, d)
        | some c =>
          let d' := d.fetchSource k c
          if (d'.ctl.chunkOf k c).srcRead then Dev.runEntry k from_ mask vc mcast n budget d' else (budget, d')

/-- The active SEND and MCAST entries of a slice send what they can. -/
def Dev.pumpEntries (d : Dev) (n : Nat) : Dev :=
  let acts := (d.ctl.seqOf n).active
  let kb := d.ctl.liveBank (d.ctl.domOf n)
  (List.range acts.length).foldl (fun d i =>
    match (d.ctl.seqOf n).active[i]? with
    | none => d
    | some a =>
      let e := d.ctl.entry n kb a.idx
      if e.action = Act.SEND ∨ e.action = Act.MCAST then
        let mask := if e.action = Act.SEND then 1 <<< e.link else e.mask
        let (b, d) := Dev.runEntry (opKey n e.desc) e.chunk mask e.vc (e.action = Act.MCAST) (a.budget + 66) a.budget d
        d.onCtl (fun s =>
          let q := s.seqOf n
          s.setSeq n { q with active := q.active.set i { a with budget := b } })
      else d) d

/-- Late traffic of a scheduled operation leaves under the egress of its last entries (R154). -/
def Dev.pumpLate (d : Dev) (k : Nat) : Dev :=
  let o := d.ctl.opOf k
  if !d.ctl.opOpen k || !o.sched || !o.late then d
  else
    let big := 1048576
    let d := match o.lastSend with
      | some (m, vc) => (Dev.runEntry k 0 m vc false 4096 big d).2
      | none => d
    match o.lastMcast with
    | some (m, vc) => (Dev.runEntry k 0 m vc true 4096 big d).2
    | none => d

/-- Send every packet of an object of a dynamic operation. -/
def Ctl.sendDynObj (s : Ctl) (k c j : Nat) : Ctl :=
  match (s.chunkOf k c).outs[j]? with
  | none => s
  | some o =>
    let d := s.opDesc k
    let n := k / 512
    let vc := if o.kind = 0 then 0 else 7
    let s := (List.range (packetCount o)).foldl (fun s i =>
      let p := s.objPacket k c o i vc
      if o.kind = 2 then s.issue n p (some (s.variantMask k o.contrib d.mcMask))
      else s.issue n { p with dstDev := d.nextDev, dstPort := 64 + n }) s
    (s.setOut' k c j { o with done := true }).chunkDone k c

/-- A dynamic operation reads its sources and sends what its successor's credit and the ticket order
let it (R160, R172, R176). -/
def Dev.pumpDyn (d : Dev) (k : Nat) : Dev :=
  if !d.ctl.opOpen k || (d.ctl.opOf k).sched || !d.mayServe k then d
  else
    let de := d.ctl.opDesc k
    let lo := (d.ctl.opOf k).low
    let d := (List.range de.window).foldl (fun d i =>
      let c := lo + i
      if de.kind = 6 ∨ c ≤ (d.ctl.opOf k).succCredit ∨ de.ringN ≤ 1 then d.fetchSource k c else d) d
    d.onCtl (fun s =>
      (s.opOf k).chunks.foldl (fun s e =>
        (List.range e.2.outs.length).foldl (fun s j =>
          match (s.chunkOf k e.1).outs[j]? with
          | some o =>
            if o.ok && !o.done && (o.kind = 2 || decide (e.1 ≤ (s.opOf k).succCredit)) then s.sendDynObj k e.1 j else s
          | none => s) s) s)

/-- Insert by a key into a rising list. -/
def insByKey (key : Nat → Nat) (x : Nat) : List Nat → List Nat
  | [] => [x]
  | y :: t => if key x ≤ key y then x :: y :: t else y :: insByKey key x t

/-! ## ZENITH (R170) -/

/-- A ZENITH packet at its slice. -/
def Ctl.takeZenith (s : Ctl) (n : Nat) (x : InPkt) : Ctl :=
  let p := x.pkt
  let close (s : Ctl) : Ctl := { s with sw := { s.sw with zenithOpen := s.sw.zenithOpen.filter (fun y => y != (p.srcDev, p.srcPort)) } }
  if s.twinState n = Tws.STANDBY then ((close s).sat TWN_COUNT.DISCARDED 1).nack (64 + n) x St.LINK_LOST
  else
    let k := opKey n (p.opTag % 512)
    let d := s.opDesc k
    let (cls, s) := s.screen n x
    if !cls.accepted then close s
    else
      let (good, s) := s.tailCheck x
      if !good then (close s).tailDone n p false
      else
        let refuse (s : Ctl) (code : Nat) : Ctl := ((close s).tailDone n p false).nack (64 + n) x code
        if s.opState k = 3 ∧ d.ticket = p.ticket then refuse s (s.rd (COL_DESC_STATUS.CODE n (p.opTag % 512)))
        else if s.tagUnknown k p || d.kind != 7 then
          refuse ((s.sat COL_STAT.UNKNOWN_TAG 1).raiseOnce Src.COL_UNKNOWN_TAG n
            { domain := some p.domain, slice := some n, opTag := some (p.opTag % 2 ^ 15), chunk := p.chunk } p.ticket (p.contrib % 4096)) St.NOT_FOUND
        else if p.contrib = 0xFFF || s.fieldsBad k p || d.ce * (fmtOf d.inFmt).bits != 128 * p.len then
          refuse (s.screenCount x LNK_SCREEN.HDR_BAD 1) St.BAD_PARAM
        else if s.alreadyHeld k p then (((close s).sat COL_STAT.DUP 1).raiseCol Src.COL_DUP k p.chunk p.contrib).tailDone n p true
        else
          let j := p.contrib - d.cbase
          if (s.opOf k).isExcluded j p.chunk ∧ (s.chunkOf k p.chunk).summed then ((close s).sat COL_STAT.LATE 1).tailDone n p true
          else
            let s := s.takeIn k x
            let s := s.modChunk k p.chunk (fun c => { c with zsrc := tblPut (fun _ => none) c.zsrc j (some (p.srcDev, p.srcPort, true)) })
            s.tailDone n p true

/-- The whole tree at once, for a Zenith chunk. -/
def Ctl.treeSum (s : Ctl) (st : Bool) (k c : Nat) : Nat → Nat → Option (Option (List Nat))
  | 0, j => s.nodeVal k c 0 j
  | l + 1, m =>
    match s.treeSum st k c l (2 * m), s.treeSum st k c l (2 * m + 1) with
    | some none, v => v
    | v, some none => v
    | some (some a), some (some b) => some (some (addLists st a b))
    | _, _ => none

/-- A Zenith chunk whose present leaves have all arrived is summed, rounded and answered. -/
def Ctl.zenithChunk (s : Ctl) (k c : Nat) : Ctl :=
  let n := k / 512
  let d := s.opDesc k
  let dom := s.domOf n
  let st := s.strict dom
  let x := s.chunkOf k c
  if !s.opOpen k || d.kind ≠ 7 || x.summed || (s.present k c).isEmpty then s
  else match s.treeSum st k c 5 0 with
    | some (some xs) =>
      let body := packCodes (fmtOf d.inFmt) (xs.map (fun v => encodeFmt (fmtOf d.inFmt) st false (f32 st v)))
      let s := s.modChunk k c (fun y => { y with summed := true })
      let s := (s.present k c).foldl (fun s j =>
        match tblGet (fun _ => none) x.zsrc j with
        | none => s
        | some (dev, port, _) =>
          let s := { s with sw := { s.sw with zenithOpen := s.sw.zenithOpen.filter (fun y => y != (dev, port)) } }
          s.issue n { typ := Typ.ZENITH, vc := 5, domain := dom, ticket := d.ticket, stream := d.stream, chkSel := d.chkSel,
                      opTag := k, contrib := 0xFFF, chunk := c, isFirst := true, isLast := true,
                      reform := s.chunkReform k c, dstDev := dev, dstPort := port, payload := body }) s
      s.chunkDone k c
    | _ => s

/-! ## Missing members (R178-R180) -/

/-- The slice decides alone: exclude the missing leaves, or abandon. -/
def Dev.decideMissing (d : Dev) (k c : Nat) (leaves : List Nat) (part : Bool) (code : Nat) : Dev :=
  let s := d.ctl
  if part || (!leaves.isEmpty && !(s.opDesc k).reform) then d.onCtl (fun s => s.abandonOp k code)
  else d.onCtl (fun s => (leaves.foldl (fun s j => s.excludeLeaf k c j) s).zenithChunk k c)

/-- Leaves of a chunk whose contribution is not complete. -/
def Ctl.missingLeaves (s : Ctl) (k c : Nat) : List Nat :=
  (s.present k c).filter (fun j => (segAll (tblGet (fun _ => []) (s.chunkOf k c).leaves j) (s.opDesc k).ce).isNone)

/-- The partial of a chunk has not come. -/
def Ctl.missingPart (s : Ctl) (k c : Nat) : Bool :=
  let d := s.opDesc k
  decide (1 < d.ringN) && [1, 3, 4].contains d.kind && d.ringPos != (d.owner c + 1) % d.ringN &&
    (segAll (s.chunkOf k c).part d.ce).isNone

/-- Members are missing from a chunk: a COMPARED slice first agrees them with its twin (R325). -/
def Dev.missing (d : Dev) (k c : Nat) (leaves : List Nat) (part : Bool) (code : Nat) : Dev :=
  let s := d.ctl
  let n := k / 512
  if leaves.isEmpty && !part then d
  else if s.compared n then
    if (s.chunkOf k c).exclSent.isSome then d
    else
      let op := (s.opOf k).oper
      let v := maskOf (leaves ++ op) + (b2n part) <<< 32 + (b2n (!op.isEmpty)) <<< 33
      d.onCtl (fun s =>
        (s.modChunk k c (fun x => { x with exclSent := some (s.slots, v) })).sendSliceRec n
          { kind := 2, opTag := k, chunk := c, value := v, ticket := (s.opDesc k).ticket })
  else d.decideMissing k c leaves part code

/-- LATE_LIMIT slots have passed since a chunk's ACCEPT window ended on a link that `p` names; a
dynamic operation counts from the chunk's first arrival (R178). -/
def Ctl.latePassed (s : Ctl) (k c : Nat) (p : Nat → Bool) : Bool :=
  let o := s.opOf k
  let lim := (s.opDesc k).lateLimit
  lim != 0 &&
    (if o.sched then
      o.windows.any (fun w => p w.1 && decide (w.2.1 ≤ c) && s.windowKey (k / 512) (k % 512) w.1 c = some w.2.1 &&
        (match w.2.2 with | some e => s.elapsed (e + 1) lim | none => false))
     else match (o.chunk c).first with
      | some t => s.elapsed t lim
      | none => false)

/-- A chunk has waited LATE_LIMIT slots for a leaf: on the contributor's own edge link where that is
known and has a window, else on any edge link (log entry 40). -/
def Ctl.leafLate (s : Ctl) (k c j : Nat) : Bool :=
  let edge (l : Nat) : Bool := s.rd (LNK_CTRL.ROLE l) = 1
  match tblGet (fun _ => none) (s.opOf k).linkOf j with
  | some l => if (s.windowKey (k / 512) (k % 512) l c).isSome then s.latePassed k c (fun x => x = l) else s.latePassed k c edge
  | none => s.latePassed k c edge

/-- A chunk has waited LATE_LIMIT slots for its partial: on a link that is not an edge link. -/
def Ctl.partLate (s : Ctl) (k c : Nat) : Bool := s.latePassed k c (fun l => s.rd (LNK_CTRL.ROLE l) != 1)

/-- LATE_LIMIT_EXPIRY (R178). -/
def Dev.lateExpiry (d : Dev) (n i c : Nat) : Dev :=
  let k := opKey n i
  let s := d.ctl
  if !s.opOpen k || !([1, 3, 4, 7].contains (s.opDesc k).kind) || (s.opDesc k).chunks ≤ c || (s.chunkOf k c).summed then d
  else d.missing k c ((s.missingLeaves k c).filter (s.leafLate k c)) (s.missingPart k c && s.partLate k c) St.TIMEOUT

/-- A link is down: not UP, and in no state of electrical idle or wake (R178). -/
def Ctl.linkIsDown (s : Ctl) (l : Nat) : Bool :=
  !s.bit (LNK_STATUS.UP l) && !([7, 8, 9].contains (s.rd (LNK_TRAIN.STATE l)))

/-- Twin fill reaches this device for a link: the twin's own is UP. -/
def Ctl.fillReaches (s : Ctl) (l : Nat) : Bool := s.twinOn && nbit s.tw.links l

/-- Members of an operation's unfinished chunks that a downed link keeps away (R178). -/
def Dev.downMissing (d : Dev) (k : Nat) : Dev :=
  let cs := ((d.ctl.opOf k).chunks.filter (fun e => !e.2.summed)).map Prod.fst
  cs.foldl (fun d c =>
    let s := d.ctl
    if !s.opOpen k then d
    else
      let o := s.opOf k
      let lost (l : Nat) : Bool := s.linkIsDown l && !s.fillReaches l
      let ls := (s.missingLeaves k c).filter (fun j => match tblGet (fun _ => none) o.linkOf j with
        | some l => lost l
        | none => false)
      let p := s.missingPart k c && o.sched &&
        ((s.table (k / 512) (s.liveBank (s.domOf (k / 512)))).any (fun e =>
          e.2.action = Act.ACCEPT && e.2.desc = k % 512 && decide (3 ≤ e.2.vc) && decide (e.2.chunk ≤ c) && lost e.2.link))
      d.missing k c ls p St.LINK_LOST) d

/-! ## Excluded by an operator (R389) -/

/-- The chunks of an operation that are not summed, up to the first that no packet has reached: an
exclusion from it holds for every later one (R179). -/
def Ctl.unsummed (s : Ctl) (k : Nat) : List Nat :=
  let o := s.opOf k
  let top := o.chunks.foldl (fun m e => max m (e.1 + 1)) o.low
  ((List.range (top + 1)).drop o.low).filter (fun c => decide (c < (s.opDesc k).chunks) && !(o.chunk c).summed)

/-- Members of an operation's unfinished chunks that an operator has excluded. -/
def Dev.operMissing (d : Dev) (k : Nat) : Dev :=
  if !([1, 3, 4, 7].contains (d.ctl.opDesc k).kind) then d
  else
    (d.ctl.unsummed k).foldl (fun d c =>
      let s := d.ctl
      if !s.opOpen k then d
      else d.missing k c ((s.missingLeaves k c).filter (fun j => (s.opOf k).oper.contains j)) false St.TIMEOUT) d

/-- Members that an operator has excluded, and everything a slice may send now: active entries, late
traffic, dynamic operations in order of ticket, then of opening. -/
def Dev.pump (d : Dev) (n : Nat) : Dev :=
  if !d.ctl.sliceOn n || d.ctl.inSafe then d
  else
    let d := (d.ctl.openOps n).foldl Dev.operMissing d
    let d := d.pumpEntries n
    let ks := d.ctl.openOps n
    let d := ks.foldl Dev.pumpLate d
    let order := ks.foldl (fun l k => insByKey (fun x => (d.ctl.opOf x).order) k l) []
    order.foldl Dev.pumpDyn d

/-! ## Links that go down (R105, R108) -/

/-- A link that was UP at `d` and is so no longer keeps members away from open operations. -/
def Dev.membersLost (d : Dev) (l : Nat) (c : Ctl) : Dev :=
  let d' : Dev := { d with ctl := c }
  if d.ctl.linkState l = LanSt.UP ∧ c.linkState l ≠ LanSt.UP then
    ((c.ops.map Prod.fst).filter c.opOpen).foldl Dev.downMissing d'
  else d'

/-- BLOCK_RECEIVE (R104); what it acknowledges may use up the attempts of a replay (R106). -/
def execBlockReceive (l : Fin 48) (lanes : List (List Byte)) (s : State) : Host.Outcome State Fault Refusal :=
  s.devNext (fun d => d.membersLost l.val (d.ctl.blockReceive l.val lanes))

/-- REPLAY_TIMEOUT (R105): the oldest unacknowledged block has waited RTT + 128 ns with no NAK. -/
def execReplayTimeout (l : Fin 48) (s : State) : Host.Outcome State Fault Refusal :=
  s.devNext (fun d => d.membersLost l.val (d.ctl.replayTimeout l.val))

/-- LINK_DOWN (R108): with the link its members are missing (R178). -/
def execLinkDown (l : Fin 48) (s : State) : Host.Outcome State Fault Refusal :=
  s.devNext (fun d => d.membersLost l.val (d.ctl.downByTime l.val))

/-! ## The commands -/

/-- Everything that may follow an input: copies that have arrived, Zenith chunks, and sending. -/
def Dev.afterInput (d : Dev) (n : Nat) (p : Pkt) : Dev :=
  let k := opKey n (p.opTag % 512)
  let d := if p.typ = Typ.MCAST then d.copyArrived k p.chunk p.contrib else d
  let d := if p.typ = Typ.ZENITH then d.onCtl (fun s => s.zenithChunk k p.chunk) else d
  d.pump n

/-- CONTRIB (R158). -/
def execContrib (n : Fin 64) (s : State) : Host.Outcome State Fault Refusal :=
  s.devNext (fun d =>
    match d.ctl.popRx n.val Typ.CONTRIB with
    | some (x, c) => ({ d with ctl := c.takeColl n.val x }).afterInput n.val x.pkt
    | none => d)

/-- MCAST (R454). -/
def execMcast (n : Fin 64) (s : State) : Host.Outcome State Fault Refusal :=
  s.devNext (fun d =>
    match d.ctl.popRx n.val Typ.MCAST with
    | some (x, c) => ({ d with ctl := c.takeColl n.val x }).afterInput n.val x.pkt
    | none => d)

/-- ZENITH (R170). -/
def execZenith (n : Fin 64) (s : State) : Host.Outcome State Fault Refusal :=
  s.devNext (fun d =>
    match d.ctl.popRx n.val Typ.ZENITH with
    | some (x, c) =>
      let c := if x.inp < 48 then c.returnCredit x.inp x.pkt else c
      ({ d with ctl := c.takeZenith n.val x }).afterInput n.val x.pkt
    | none => d)

/-- CREDIT (R160). -/
def execCredit (ep : Endpoint) (s : State) : Host.Outcome State Fault Refusal :=
  s.devNext (fun d =>
    match d.ctl.popRx (epIndex ep) Typ.CREDIT with
    | some (x, c) => if epIndex ep < 64 then ({ d with ctl := c.takeCredit (epIndex ep) x.pkt }).pump (epIndex ep) else { d with ctl := c }
    | none => d)

/-- TREE_NODE_COMPLETE (R161). -/
def execTreeNodeComplete (n : Fin 64) (desc : Fin 512) (chunk : Nat) (level : Nat) (node : Nat) (s : State) :
    Host.Outcome State Fault Refusal :=
  s.devNext (fun d => (d.treeNode n.val desc.val chunk level node).pump n.val)

/-- LATE_LIMIT_EXPIRY (R178). -/
def execLateLimitExpiry (n : Fin 64) (desc : Fin 512) (chunk : Nat) (s : State) : Host.Outcome State Fault Refusal :=
  s.devNext (fun d => (d.lateExpiry n.val desc.val chunk).pump n.val)

end Sys2Proof.Machine
end

