-- ==== Sys2Proof/Machine/Engine.lean ====
section
/-!
DEFINITION. The engine streams of a slice (R234-R243, R256, R263-R266): start queues, issue and
completion of instructions in program order, semaphores and waits, program faults, the bisection
stop, the memory that engine addresses reach (R238), and the common opcodes (Table SLC-2).
-/

namespace Sys2Proof.Machine

/-! ## Engine state -/

def Ctl.engOf (s : Ctl) (n : Nat) : EngSt := tblGet (fun _ => {}) s.eng n
def Ctl.setEng (s : Ctl) (n : Nat) (e : EngSt) : Ctl := { s with eng := tblPut (fun _ => {}) s.eng n e }
def Ctl.modEng (s : Ctl) (n : Nat) (f : EngSt → EngSt) : Ctl := s.setEng n (f (s.engOf n))

def Ctl.stream (s : Ctl) (n t : Nat) : StreamSt := tblGet (fun _ => {}) (s.engOf n).streams t
def Ctl.setStream (s : Ctl) (n t : Nat) (x : StreamSt) : Ctl :=
  s.modEng n (fun e => { e with streams := tblPut (fun _ => {}) e.streams t x })
def Ctl.modStream (s : Ctl) (n t : Nat) (f : StreamSt → StreamSt) : Ctl := s.setStream n t (f (s.stream n t))

/-- States of SLC_ENG_PC. -/
def Eng.IDLE : Nat := 0
def Eng.RUNNING : Nat := 1
def Eng.WAIT_SEM : Nat := 2
def Eng.WAIT_MER : Nat := 3
def Eng.HALTED : Nat := 4
def Eng.FENCED : Nat := 5

def Ctl.engState (s : Ctl) (n t : Nat) : Nat := s.rd (SLC_ENG_PC.STATE n t)
def Ctl.setEngState (s : Ctl) (n t v : Nat) : Ctl := s.wr (SLC_ENG_PC.STATE n t) v

/-- The state of a stream by its run and wait. -/
def StreamSt.stateNow (x : StreamSt) : Nat :=
  match x.run, x.wait with
  | none, _ => 0
  | some _, none => 1
  | some _, some (.mer _) => 3
  | some _, some _ => 2

/-- The stop of a slice has begun (R264). -/
def Ctl.stopped (s : Ctl) (n : Nat) : Bool := s.bit (SLC_STOP_AT.STOPPED n)

/-! ## Bindings and instruction regions (R259, R260) -/

def imageAddr (n k : Nat) : Nat := 0x0A00_0000 + n * 0x8_0000 + k * 0x4_0000

/-- Offset and length of a stream's instruction region. -/
def regionBase : Nat → Nat
  | 0 => 0x1_8000 | 1 => 0x1_0000 | 2 => 0 | _ => 0x1_C000
def regionLen : Nat → Nat
  | 0 => 2048 | 1 => 4096 | 2 => 8192 | _ => 2048

def Ctl.instr (s : Ctl) (n k t pc : Nat) : Nat := s.rdWord (imageAddr n k + regionBase t + 8 * pc)

structure Binding where
  stream : Nat
  valid : Bool
  entry : Nat
  groups : Nat
  wdog : Nat
  resv : Bool

def bindingAddr (n k i : Nat) : Nat := imageAddr n k + 0x2_8000 + 16 * i

def Ctl.binding (s : Ctl) (n k i : Nat) : Binding :=
  let w := if i < 1024 then s.rdWord (bindingAddr n k i) else 0
  let v := if i < 1024 then s.rdWord (bindingAddr n k i + 8) else 0
  { stream := nfld w 0 2, valid := nbit w 2, entry := nfld w 8 13, groups := nfld w 32 7,
    wdog := (if nfld v 0 32 = 0 then 65536 else nfld v 0 32),
    resv := nfld w 3 5 != 0 || nfld w 21 11 != 0 || nfld w 39 25 != 0 || nfld v 32 32 != 0 }

/-! ## Queues (R234, R235) -/

/-- Put a start command in a stream's queue; false where it is full. A FENCED stream accepts none. -/
def Ctl.enqueueStart (s : Ctl) (n t : Nat) (c : StartCmd) : Bool × Ctl :=
  let x := s.stream n t
  if s.engState n t = Eng.FENCED then (true, s)
  else if 16 ≤ x.queue.length then (false, s)
  else
    let s := s.setStream n t { x with queue := x.queue ++ [c] }
    (true, s.wr (SLC_ENG_PC.QUEUED n t) (x.queue.length + 1))

/-- The program counter of a stream. -/
def Ctl.pcOf (s : Ctl) (n t : Nat) : Nat := s.rd (SLC_ENG_PC.PC n t)
def Ctl.setPc (s : Ctl) (n t v : Nat) : Ctl :=
  (s.modStream n t (fun x => { x with off := decide (regionLen t ≤ v) })).wr (SLC_ENG_PC.PC n t) v

/-! ## Program faults (R256) -/

def Ctl.raiseSlice (s : Ctl) (src n : Nat) (t : Option Nat) (d6 : Nat := 0) : Ctl :=
  match t with
  | none => s.raise src { slice := some n } 0 0 d6
  | some t =>
    let x := s.stream n t
    s.raise src { slice := some n, stream := some t } (s.pcOf n t + (x.run.map StartCmd.binding).getD 0 <<< 16)
      (s.rd (SLC_ENG_PC.ICOUNT n t)) d6

/-- The user update program that runs on a slice (R202). -/
def Ctl.userRun (s : Ctl) (n : Nat) : Option RunUpd :=
  match (s.updOf n).running with
  | some r => if r.user then some r else none
  | none => none

/-- An update program of a slice faults (R194): UPDATE_FAULT, and the step fails. Its chunk keeps its
old state. -/
def Ctl.updateFault (s : Ctl) (n : Nat) (r : RunUpd) : Ctl :=
  let s := s.raisePst Src.UPDATE_FAULT r.d (some r.job.k) r.job.t
  let u := s.updOf n
  let s := s.setUpd n { u with running := none }
  s.stepFail r.d Fail.UPDATE

/-- A stream discards its program and its queue and is FENCED. -/
def Ctl.fenceStream (s : Ctl) (n t : Nat) : Ctl :=
  let s := s.modStream n t (fun x =>
    { x with queue := [], run := none, loops := [], flight := [], wait := none, woken := false, stopRun := false })
  (s.wr (SLC_ENG_PC.QUEUED n t) 0).setEngState n t Eng.FENCED

/-- A program fault of a stream. One in a program that the update dispatcher started is reported as
UPDATE_FAULT instead. -/
def Ctl.programFault (s : Ctl) (n t : Nat) : Ctl :=
  let upd := ((s.stream n t).run.map StartCmd.upd).getD false
  match upd, s.userRun n with
  | true, some r => (s.fenceStream n t).updateFault n r
  | _, _ => (s.raiseSlice (Src.SLC_PROGRAM n) n (some t)).fenceStream n t

/-! ## Semaphores (R241, R242) -/

def Ctl.sem (s : Ctl) (n i : Nat) : Nat := tblGet (fun _ => 0) (s.engOf n).sems i
def Ctl.setSem (s : Ctl) (n i v : Nat) : Ctl :=
  s.modEng n (fun e => { e with sems := tblPut (fun _ => 0) e.sems i v })

/-- Add to a semaphore: it stays at 2^32 - 1 where the sum would exceed it; true is an overflow. -/
def Ctl.addSem (s : Ctl) (n i k : Nat) : Bool × Ctl :=
  let v := s.sem n i + k
  if 2 ^ 32 ≤ v then (true, s.setSem n i (2 ^ 32 - 1)) else (false, s.setSem n i v)

/-- An addition by a SYNC entry: an overflow fences no stream and is reported without one. -/
def Ctl.syncSem (s : Ctl) (n i k : Nat) : Ctl :=
  let (o, s) := s.addSem n i k
  if o then s.raiseSlice (Src.SLC_PROGRAM n) n none else s

/-- What a stream waits for on a semaphore. -/
def StreamWait.claim : StreamWait → Option (Nat × Nat)
  | .before i => some (i, 1)
  | .sem i k => some (i, k)
  | .mer _ => none

/-- A wait of stream `t` may pass: the value suffices, and no lower-numbered stream's wait on the same
semaphore passes before it. -/
def Ctl.semReady (s : Ctl) (n t i k : Nat) : Bool :=
  decide (k ≤ s.sem n i) && (List.range t).all (fun u =>
    s.engState n u != Eng.WAIT_SEM ||
      (match (s.stream n u).wait.bind StreamWait.claim with
       | some (j, m) => j != i || decide (s.sem n i < m)
       | none => true))

/-! ## Memory that engine addresses reach (R238, R278, R284) -/

/-- A staging word of the range has an uncorrectable error. -/
def Ctl.stageBad (s : Ctl) (n o len : Nat) : Bool :=
  !(s.mem.stagePoison.filter (fun e =>
    let w := n * (stagingBytes / 32)
    decide (w + o / 32 ≤ e.1) && decide (e.1 * 32 < w * 32 + o + len) && e.2)).isEmpty

/-- A write that covers a whole staging word clears its error. -/
def Ctl.stageGood (s : Ctl) (n o len : Nat) : Ctl :=
  s.modMem (fun m => { m with stagePoison := m.stagePoison.filter (fun e =>
    let w := n * stagingBytes + o
    !(decide (w ≤ e.1 * 32) && decide (e.1 * 32 + 32 ≤ w + len))) })

/-- Bytes of the program area of a slice (Table MEM-5). -/
def Ctl.progArea (s : Ctl) (n : Nat) : Nat := s.rd (MEM_STAGE.PROG_MIB n) * 2 ^ 20

/-- Windows that the update context of a user program names while it runs (log entry 31): 10 the
records of the shard as laid out, 11 the active hyperparameter sets. -/
def ctxRecords : Nat := 10 * 2 ^ 52
def ctxHsets : Nat := 11 * 2 ^ 52

/-- The byte ranges of a run's records that its program may write: W' and Sj' of its chunks. -/
def Ctl.updRanges (s : Ctl) (r : RunUpd) : List (Nat × Nat) :=
  r.chunks.flatMap (fun c =>
    let cur := (s.chunkSt r.d c.k).cur
    let o := c.k * s.recBytes r.d
    (o + s.wOff r.d (!cur), o + s.wOff r.d (!cur) + 4 * s.ce r.d) ::
      (List.range (s.rd (PST_LAYOUT.STATE_WORDS r.d))).map (fun j =>
        (o + s.sOff r.d j (!cur), o + s.sOff r.d j (!cur) + s.sBytes r.d * s.ce r.d)))

/-- Read `len` bytes at a window address for slice `n`: none where the access is a program fault. -/
def Dev.portRead (d : Dev) (n a len : Nat) : Option (List Byte) × Dev :=
  let dom := d.ctl.domOf n
  match winOf a, d.ctl.userRun n with
  | 10, some r =>
    if winOff a + len ≤ d.ctl.dataBase r.d then
      let (bs, p) := d.readDA ((d.ctl.shardRange r.d).1 + winOff a) len
      (if p then none else some bs, d)
    else (none, d)
  | 11, some r =>
    if winOff a + len ≤ 256 * 64 then
      (some ((List.range len).map (fun i =>
        let o := winOff a + i
        ((toBytes 8 (tblGet (fun _ => 0) (d.ctl.pstOf r.d).hset (o / 8)).toNat).getD (o % 8) 0))), d)
    else (none, d)
  | w, _ =>
    if w < 31 ∧ d.ctl.winOut dom a len then (none, d.onCtl (fun c => c.memBound dom a))
    else
      let (st, bs, p) := d.winRead dom a len
      (if st = St.OK ∧ !p then some bs else none, d)

/-- Write bytes at a window address for slice `n`; false is a program fault. While a user update
program runs, only its ranges and the scratch are writable; another write is dropped and raises
UPDATE_FAULT (R202). -/
def Dev.portWrite (d : Dev) (n a : Nat) (bs : List Byte) : Bool × Dev :=
  let dom := d.ctl.domOf n
  let out (d : Dev) : Bool × Dev := (false, d.onCtl (fun c => c.memBound dom a))
  match d.ctl.userRun n with
  | some r =>
    if winOf a = 9 then
      (if d.ctl.winOut dom a bs.length then out d else (true, (d.winWrite dom a bs).2))
    else if winOf a = 10 ∧ (d.ctl.updRanges r).any (fun x =>
        decide (x.1 ≤ winOff a) && decide (winOff a + bs.length ≤ x.2)) then
      (true, d.writeDA ((d.ctl.shardRange r.d).1 + winOff a) bs)
    else (true, d.onCtl (fun c => c.updateFault n r))
  | none =>
    if winOf a < 31 ∧ d.ctl.winOut dom a bs.length then out d
    else
      let (st, d') := d.winWrite dom a bs
      (st = St.OK, d')

/-- Read `len` bytes at an engine address. -/
def Dev.engRead (d : Dev) (n x len : Nat) : Option (List Byte) × Dev :=
  if nbit x 63 then (if nfld x 57 6 = 0 then d.portRead n (x % 2 ^ 57) len else (none, d))
  else if x < 2 ^ 32 ∧ x + len ≤ d.ctl.progArea n ∧ !d.ctl.stageBad n x len then (some (d.ram.stageBytes n x len), d)
  else (none, d)

/-- Write bytes at an engine address; false is a program fault. -/
def Dev.engWrite (d : Dev) (n x : Nat) (bs : List Byte) : Bool × Dev :=
  if nbit x 63 then (if nfld x 57 6 = 0 then d.portWrite n (x % 2 ^ 57) bs else (false, d))
  else if x < 2 ^ 32 ∧ x + bs.length ≤ d.ctl.progArea n then
    (true, (d.onRam (fun r => r.setStageBytes n x bs)).onCtl (fun c => c.stageGood n x bs.length))
  else (false, d)

/-! ## Issue (R237, R239, R240) -/

/-- Where the program goes after instruction `pc`, with the loops that then run (R240). -/
def loopNext : List LoopFr → Nat → Nat × List LoopFr
  | [], pc => (pc + 1, [])
  | f :: t, pc =>
    if pc = f.last then
      (if 0 < f.left then (f.first, { f with left := f.left - 1 } :: t) else loopNext t pc)
    else (pc + 1, f :: t)

/-- Operand bits of a set of fields. -/
def operandMask (fs : List (Nat × Nat)) : Nat := fs.foldl (fun m f => m ||| ((2 ^ f.2 - 1) <<< f.1)) 0

/-- Fields of the formats (R245, R251). -/
def fmtR3 : List (Nat × Nat) := [(22, 5), (27, 5), (32, 5)]
def fmtR4 : List (Nat × Nat) := [(22, 5), (27, 5), (32, 5), (37, 5)]
def fmtR2 : List (Nat × Nat) := [(22, 5), (27, 5)]
def fmtI : List (Nat × Nat) := [(22, 5), (27, 5), (32, 32)]
def fmtId : List (Nat × Nat) := [(22, 5), (32, 32)]
def predF : List (Nat × Nat) := [(42, 3), (45, 1)]

/-- The operand fields of an opcode on a stream; none for an undefined code (Tables SLC-2 to SLC-7).
Where the action of an instruction does not use a field of its format, the field's bits are unused. -/
def operands (t op : Nat) : Option (List (Nat × Nat)) :=
  match op with
  | 0x01 | 0x02 | 0x06 => some []
  | 0x03 | 0x04 => some [(22, 6), (28, 32)]
  | 0x05 => some [(22, 32)]
  | 0x07 => some [(22, 6)]
  | 0x08 => if t = 2 then none else some [(22, 4), (26, 1), (27, 32)]
  | 0x09 => if t = 2 then none else some [(22, 4), (32, 32)]
  | 0x0A => if t = 2 then none else some [(22, 10), (32, 32)]
  | _ =>
    match t with
    | 2 =>
      if 0x10 ≤ op ∧ op ≤ 0x1D then some fmtR3
      else if 0x20 ≤ op ∧ op ≤ 0x25 then some fmtI
      else if op = 0x26 ∨ op = 0x27 then some fmtId
      else if 0x28 ≤ op ∧ op ≤ 0x37 then some fmtI
      else if op = 0x38 then some fmtId
      else if op = 0x39 then some fmtI
      else if op = 0x3A then some [(22, 5), (27, 5), (32, 5)]
      else if op = 0x3B ∨ op = 0x3C ∨ op = 0x3F then some fmtId
      else if op = 0x3D then some [(27, 5)]
      else if op = 0x3E then some fmtR4
      else if op = 0x45 then some fmtR4
      else if op = 0x44 ∨ op = 0x48 ∨ op = 0x49 then some fmtR2
      else if 0x40 ≤ op ∧ op ≤ 0x47 then some fmtR3
      else if 0x4A ≤ op ∧ op ≤ 0x4C then some fmtR3
      else none
    | 0 =>
      match op with
      | 0x50 => some [(22, 1), (23, 3), (26, 3), (29, 1), (30, 1), (31, 4), (35, 4), (39, 4)]
      | 0x51 => some [(22, 1), (23, 2), (31, 4), (35, 4)]
      | 0x52 => some [(22, 1), (23, 2)]
      | 0x53 => some [(22, 1), (23, 2), (25, 3), (28, 3)]
      | 0x54 => some [(22, 1), (23, 2), (26, 3), (31, 4), (35, 4)]
      | _ => none
    | 1 =>
      match op with
      | 0x60 => some ([(22, 5), (27, 4), (31, 4), (35, 3), (38, 1)] ++ predF)
      | 0x61 => some ([(22, 5), (27, 4), (31, 4), (35, 3), (38, 1), (39, 1), (40, 1)] ++ predF)
      | 0x62 => some ([(22, 5), (27, 4)] ++ predF)
      | 0x63 => some [(22, 4), (26, 14), (40, 8)]
      | 0x67 => some ([(22, 5), (27, 5), (32, 5), (37, 5)] ++ predF)
      | 0x64 | 0x65 | 0x66 | 0x68 | 0x6A | 0x6B => some ([(22, 5), (27, 5), (32, 5)] ++ predF)
      | 0x69 | 0x6C | 0x6D | 0x6E => some ([(22, 5), (27, 5)] ++ predF)
      | 0x70 | 0x71 => some ([(22, 2), (27, 5), (32, 5)] ++ predF)
      | 0x72 => some ([(22, 5), (27, 5), (32, 5)] ++ predF)
      | 0x73 => some ([(22, 5)] ++ predF)
      | 0x74 | 0x75 | 0x76 | 0x77 | 0x78 | 0x79 => some ([(22, 5), (27, 5), (32, 5)] ++ predF)
      | 0x7A | 0x7B => some ([(22, 5), (27, 5)] ++ predF)
      | 0x7C => some [(22, 4), (27, 5), (32, 2)]
      | 0x7D => some [(22, 5), (27, 4)]
      | 0x7E => some [(22, 4), (26, 4)]
      | _ => none
    | 3 =>
      match op with
      | 0x80 => some [(22, 4), (26, 4), (30, 4)]
      | 0x81 => some [(22, 4), (26, 4), (30, 4), (34, 4), (38, 4), (42, 4)]
      | 0x82 => some [(22, 4), (30, 4), (32, 32)]
      | 0x83 => some [(22, 3), (26, 4), (30, 4)]
      | 0x84 => some [(22, 3), (25, 4)]
      | 0x85 => some [(22, 3), (26, 4)]
      | 0x86 => some [(22, 4), (26, 4), (30, 4), (34, 5), (39, 2)]
      | _ => none
    | _ => none

/-- The word has a nonzero bit outside the fields of Table SLC-1 and its operands. -/
def strayBits (w : Nat) (fs : List (Nat × Nat)) : Bool := (w / 2 ^ 22 * 2 ^ 22) != (w &&& operandMask fs) / 2 ^ 22 * 2 ^ 22

/-- The stop's count has been reached: the next instruction of the run does not issue (R263). -/
def Ctl.atStop (s : Ctl) (n t : Nat) : Bool :=
  (s.stream n t).stopRun && decide (s.rd (SLC_STOP_AT.COUNT n) ≤ s.rd (SLC_ENG_PC.ICOUNT n t))

/-- The next instruction of a stream may issue, but for its WEN wait. -/
def Ctl.mayIssue (s : Ctl) (n t : Nat) : Bool :=
  s.sliceOn n && s.engState n t == Eng.RUNNING && (s.stream n t).wait.isNone && !s.atStop n t &&
    (s.stream n t).flight.all (fun f => !f.isEnd)

/-- The word a stream would issue next, and the bank it comes from; 0 outside the region. -/
def Ctl.nextWord (s : Ctl) (n t : Nat) : Nat :=
  match (s.stream n t).run with
  | none => 0
  | some c => if (s.stream n t).off then 0 else s.instr n c.bank t (s.pcOf n t)

/-- Count an instruction as issued and move past it. -/
def Ctl.pass (s : Ctl) (n t w : Nat) (isEnd : Bool) : Ctl :=
  let x := s.stream n t
  let r := loopNext x.loops (s.pcOf n t)
  let s := s.inc (SLC_ENG_PC.ICOUNT n t) 1
  let f : Flight := { sen := if nbit w 15 then some (nfld w 16 6) else none, isEnd := isEnd,
                      number := s.rd (SLC_ENG_PC.ICOUNT n t) }
  (s.setStream n t { x with loops := r.2, flight := x.flight ++ [f], woken := false }).setPc n t r.1

/-- Issue the next instruction of a stream where it is of opcode `op`: its WEN wait, then the body on
the word, false of which is a program fault. Another opcode at the program counter leaves everything
as it is; an undefined one, or a stray operand bit, is a program fault. -/
def Dev.issue (d : Dev) (n t op : Nat) (body : Nat → Dev → Bool × Dev) : Dev :=
  if !d.ctl.mayIssue n t then d
  else
    let w := d.ctl.nextWord n t
    match operands t (w % 256) with
    | none => d.onCtl (fun c => c.programFault n t)
    | some fs =>
      if w % 256 ≠ op then d
      else if strayBits w fs then d.onCtl (fun c => c.programFault n t)
      else
        let x := d.ctl.stream n t
        let i := nfld w 8 6
        if nbit w 14 && !x.woken && !d.ctl.semReady n t i 1 then
          d.onCtl (fun c => (c.setStream n t { x with wait := some (.before i) }).setEngState n t Eng.WAIT_SEM)
        else
          let d := if nbit w 14 && !x.woken then d.onCtl (fun c => c.setSem n i (c.sem n i - 1)) else d
          let r := body w (d.onCtl (fun c => c.pass n t w (op == 0x02)))
          let r := (r.1, r.2.onCtl (fun c => if fs.contains (42, 3) && decide (4 < nfld w 42 3) then c.fresh.2 else c))
          if r.1 then r.2 else r.2.onCtl (fun c => if c.engState n t = Eng.FENCED then c else c.programFault n t)

/-- A body that changes no memory. -/
def ctlBody (f : Nat → Ctl → Bool × Ctl) : Nat → Dev → Bool × Dev := fun w d =>
  let r := f w d.ctl
  (r.1, { d with ctl := r.2 })

/-! ## Starting, completing and waiting (R236, R237, R242, R243) -/

/-- The latched step input for draws. -/
def Ctl.stepInput (s : Ctl) (d : Nat) : Nat := (s.rd (PST_STEP.COMMITTED d) + 1) % 2 ^ 32

/-- The stop begins on a stream (R263, R264). -/
def Ctl.stopStream (s : Ctl) (n t : Nat) : Ctl :=
  ((s.wrB (SLC_STOP_AT.STOPPED n) true).setEngState n t Eng.HALTED).modEng n
    (fun e => { e with idleFrom := some (s.slots + 1) })

/-- A stream takes its next start command (R236). -/
def Ctl.streamStart (s : Ctl) (n t : Nat) : Ctl :=
  if !s.sliceOn n || s.engState n t != Eng.IDLE || s.stopped n then s
  else
    let x := s.stream n t
    match x.queue with
    | [] => s
    | c :: q =>
      let b := s.binding n c.bank c.binding
      let dom := s.domOf n
      let hit := s.bit (SLC_STOP_AT.ARM n) && x.skip == some 0
      let x' : StreamSt :=
        { x with
          queue := q, run := some c, start := s.now, since := s.slots, step := s.stepInput dom
          seed := s.rdWord (PST_SEED.addr dom), regs := tblPut (fun _ => 0) [] 1 (BitVec.ofNat 64 c.arg)
          loops := [], flight := [], wait := none, woken := false, rngTensor := 0, rngStream := 0, rngBase := 0
          skip := (if hit then none else x.skip.map (fun k => k - 1)), stopRun := hit }
      let s := s.setStream n t x'
      let s := s.wr (SLC_ENG_PC.QUEUED n t) q.length
      let s := (s.setPc n t b.entry).wr (SLC_ENG_PC.ICOUNT n t) 0
      let s := (s.wr (SLC_ENG_PC.BANK n t) c.bank).setEngState n t Eng.RUNNING
      let s := if t = 1 then s.modEng n (fun e =>
          { e with
            vregs := e.vregs.map (fun r => (r.1, List.replicate (256 * b.groups) 0 ++ r.2.drop (256 * b.groups)))
            preds := e.preds.map (fun r => (r.1, List.replicate (256 * b.groups) false ++ r.2.drop (256 * b.groups))) })
        else s
      if hit ∧ s.rd (SLC_STOP_AT.COUNT n) = 0 then s.stopStream n t else s

/-- STREAM_START (R236). -/
def execStreamStart (n : Fin 64) (st : Fin 4) (s : State) : Host.Outcome State Fault Refusal :=
  s.ctlNext (fun c => c.streamStart n.val st.val)

/-- The oldest issued instruction completes: its signal, the end of the program, the stop (R237,
R263). An instruction that still waits does not complete. -/
def Ctl.complete (s : Ctl) (n t : Nat) : Ctl :=
  let x := s.stream n t
  match x.flight with
  | [] => s
  | f :: r =>
    let waits := match x.wait with
      | some (.sem _ _) => true
      | some (.mer _) => true
      | _ => false
    if r.isEmpty && waits then s
    else
      let s := s.setStream n t { x with flight := r }
      let (o, s) := match f.sen with
        | some i => s.addSem n i 1
        | none => (false, s)
      if o then s.programFault n t
      else if f.isEnd then
        let s := s.modStream n t (fun x => { x with run := none, loops := [] })
        let s := s.setEngState n t Eng.IDLE
        if x.stopRun && f.number == s.rd (SLC_STOP_AT.COUNT n) then s.stopStream n t else s
      else if x.stopRun && f.number == s.rd (SLC_STOP_AT.COUNT n) then s.stopStream n t
      else s

/-- INSTRUCTION_COMPLETE (R237). -/
def execInstructionComplete (n : Fin 64) (st : Fin 4) (s : State) : Host.Outcome State Fault Refusal :=
  s.ctlNext (fun c => c.complete n.val st.val)

/-- A wait on a semaphore passes and subtracts (R242). -/
def Ctl.semPass (s : Ctl) (n t : Nat) : Ctl :=
  let x := s.stream n t
  match x.wait.bind StreamWait.claim with
  | none => s
  | some (i, k) =>
    if s.engState n t = Eng.WAIT_SEM ∧ s.semReady n t i k then
      let s := s.setSem n i (s.sem n i - k)
      let before := match x.wait with
        | some (.before _) => true
        | _ => false
      (s.setStream n t { x with wait := none, woken := before }).setEngState n t Eng.RUNNING
    else s

/-- SEMAPHORE_WAIT_PASS (R242). -/
def execSemaphoreWaitPass (n : Fin 64) (st : Fin 4) (s : State) : Host.Outcome State Fault Refusal :=
  s.ctlNext (fun c => c.semPass n.val st.val)

/-- A Meridian wait completes at its slot (R243); after a stop the stream has halted in it (R264). -/
def Ctl.merPass (s : Ctl) (n t : Nat) : Ctl :=
  let x := s.stream n t
  match x.wait with
  | some (.mer m) =>
    if s.engState n t = Eng.WAIT_MER ∧ m ≤ s.now ∧ !s.stopped n then
      (s.setStream n t { x with wait := none }).setEngState n t Eng.RUNNING
    else s
  | _ => s

/-- MERIDIAN_WAIT_PASS (R243). -/
def execMeridianWaitPass (n : Fin 64) (st : Fin 4) (s : State) : Host.Outcome State Fault Refusal :=
  s.ctlNext (fun c => c.merPass n.val st.val)

/-- A run exceeds its binding's watchdog (R256). -/
def Ctl.watchdog (s : Ctl) (n t : Nat) : Ctl :=
  let x := s.stream n t
  match x.run with
  | none => s
  | some c => if (s.binding n c.bank c.binding).wdog < s.slots - x.since then s.programFault n t else s

/-- PROGRAM_WATCHDOG (R256). -/
def execProgramWatchdog (n : Fin 64) (st : Fin 4) (s : State) : Host.Outcome State Fault Refusal :=
  s.ctlNext (fun c => c.watchdog n.val st.val)

/-! ## Common opcodes (Table SLC-2) -/

/-- NOP. -/
def execNop (n : Fin 64) (st : Fin 4) (s : State) : Host.Outcome State Fault Refusal :=
  s.devNext (fun d => d.issue n.val st.val 0x01 (fun _ d => (true, d)))

/-- END: it ends the program when every earlier instruction has completed (R236); inside a loop body
it is a program fault (R240). -/
def execEndC (n : Fin 64) (st : Fin 4) (s : State) : Host.Outcome State Fault Refusal :=
  s.devNext (fun d =>
    if d.ctl.nextWord n.val st.val % 256 = 2 ∧ d.ctl.mayIssue n.val st.val ∧ !(d.ctl.stream n.val st.val).loops.isEmpty
    then d.onCtl (fun c => c.programFault n.val st.val)
    else d.issue n.val st.val 0x02 (fun _ d => (true, d)))

/-- SWAIT. -/
def Ctl.swait (s : Ctl) (n t w : Nat) : Ctl :=
  let i := nfld w 22 6
  let k := nfld w 28 32
  if s.semReady n t i k then s.setSem n i (s.sem n i - k)
  else (s.modStream n t (fun x => { x with wait := some (.sem i k) })).setEngState n t Eng.WAIT_SEM

def execSwait (n : Fin 64) (st : Fin 4) (s : State) : Host.Outcome State Fault Refusal :=
  s.devNext (fun d => d.issue n.val st.val 0x03 (ctlBody (fun w c => (true, c.swait n.val st.val w))))

/-- SADD: an overflow is a program fault (R241). -/
def execSadd (n : Fin 64) (st : Fin 4) (s : State) : Host.Outcome State Fault Refusal :=
  s.devNext (fun d => d.issue n.val st.val 0x04 (ctlBody (fun w c =>
    let r := c.addSem n.val (nfld w 22 6) (nfld w 28 32)
    (!r.1, r.2))))

/-- Wait for a Meridian slot (R243): one that has begun completes at once. -/
def Ctl.merWait (s : Ctl) (n t slot : Nat) : Ctl :=
  if slot ≤ s.now then s
  else (s.modStream n t (fun x => { x with wait := some (.mer slot) })).setEngState n t Eng.WAIT_MER

/-- MWAIT: relative to the run's START slot. -/
def execMwait (n : Fin 64) (st : Fin 4) (s : State) : Host.Outcome State Fault Refusal :=
  s.devNext (fun d => d.issue n.val st.val 0x05 (ctlBody (fun w c =>
    (true, c.merWait n.val st.val ((c.stream n.val st.val).start + nfld w 22 32)))))

/-- FENCE: it issues once every earlier instruction of the stream has completed. -/
def execFence (n : Fin 64) (st : Fin 4) (s : State) : Host.Outcome State Fault Refusal :=
  s.devNext (fun d =>
    if (d.ctl.stream n.val st.val).flight.isEmpty then d.issue n.val st.val 0x06 (fun _ d => (true, d)) else d)

/-- NFSIG (R253). -/
def execNfsig (n : Fin 64) (st : Fin 4) (s : State) : Host.Outcome State Fault Refusal :=
  s.devNext (fun d => d.issue n.val st.val 0x07 (ctlBody (fun w c =>
    if (c.stream n.val st.val).sticky then
      let c := c.modStream n.val st.val (fun x => { x with sticky := false })
      let r := c.addSem n.val (nfld w 22 6) 1
      (!r.1, r.2)
    else (true, c))))

/-- Registers of a stream: a0-a15, or x0-x31 with x0 always 0 (R244). -/
def Ctl.reg (s : Ctl) (n t i : Nat) : W64 :=
  if t = 2 ∧ i = 0 then 0 else tblGet (fun _ => 0) (s.stream n t).regs i
def Ctl.setReg (s : Ctl) (n t i : Nat) (v : W64) : Ctl :=
  if t = 2 ∧ i = 0 then s else s.modStream n t (fun x => { x with regs := tblPut (fun _ => 0) x.regs i v })

/-- The contents of an address register as a number. -/
def Ctl.areg (s : Ctl) (n t i : Nat) : Nat := (s.reg n t i).toNat

/-- LAR. -/
def Ctl.lar (s : Ctl) (n t w : Nat) : Ctl :=
  let i := nfld w 22 4
  let imm := nfld w 27 32
  s.setReg n t i (BitVec.ofNat 64 (if nbit w 26 then s.areg n t i % 2 ^ 32 + imm * 2 ^ 32 else imm))

def execLar (n : Fin 64) (st : Fin 4) (s : State) : Host.Outcome State Fault Refusal :=
  s.devNext (fun d => d.issue n.val st.val 0x08 (ctlBody (fun w c => (true, c.lar n.val st.val w))))

/-- AADD. -/
def Ctl.aadd (s : Ctl) (n t w : Nat) : Ctl :=
  let i := nfld w 22 4
  s.setReg n t i (s.reg n t i + BitVec.ofInt 64 (sext 32 (nfld w 32 32)))

def execAadd (n : Fin 64) (st : Fin 4) (s : State) : Host.Outcome State Fault Refusal :=
  s.devNext (fun d => d.issue n.val st.val 0x09 (ctlBody (fun w c => (true, c.aadd n.val st.val w))))

/-- LOOP at instruction `pc` with the loops that ran before it: false is a program fault (R240). -/
def Ctl.loopStart (s : Ctl) (n t w pc : Nat) (outer : List LoopFr) : Bool × Ctl :=
  let len := nfld w 22 10
  let count := nfld w 32 32
  let last := pc + len
  let inside := match outer with
    | [] => true
    | f :: _ => decide (last ≤ f.last)
  if len = 0 ∨ regionLen t ≤ last ∨ !inside ∨ 4 ≤ outer.length then (false, s)
  else if count = 0 then
    let (pc', ls) := loopNext outer last
    (true, (s.modStream n t (fun x => { x with loops := ls })).setPc n t pc')
  else (true, (s.modStream n t (fun x =>
    { x with loops := { first := pc + 1, last := last, left := count - 1 } :: outer })).setPc n t (pc + 1))

/-- LOOP. -/
def execLoop (n : Fin 64) (st : Fin 4) (s : State) : Host.Outcome State Fault Refusal :=
  s.devNext (fun d =>
    let pc := d.ctl.pcOf n.val st.val
    let outer := (d.ctl.stream n.val st.val).loops
    d.issue n.val st.val 0x0A (ctlBody (fun w c => c.loopStart n.val st.val w pc outer)))

/-! ## The bisection stop (R263-R266) -/

/-- Arm a stop after a write of SLC_STOP_AT has set its fields. -/
def Ctl.stopArm (s : Ctl) (n : Nat) : Ctl :=
  let t := s.rd (SLC_STOP_AT.STREAM n)
  (List.range 4).foldl (fun s u =>
    s.modStream n u (fun x => { x with skip := if u = t then some (s.rd (SLC_STOP_AT.RUN_SKIP n)) else none })) s

/-- A stream has halted or would halt where every other does (R264). -/
def Ctl.halts (s : Ctl) (n t : Nat) : Bool :=
  let st := s.engState n t
  (st == Eng.IDLE && (s.stream n t).queue.isEmpty) || st == Eng.HALTED || st == Eng.FENCED || st == Eng.WAIT_MER ||
    (st == Eng.WAIT_SEM && (match (s.stream n t).wait.bind StreamWait.claim with
      | some (i, k) => !s.semReady n t i k
      | none => true)) ||
    -- no start command is taken after the stop
    st == Eng.IDLE

/-- All four streams are stopped or halted: HALTED is set. -/
def Ctl.sliceHalt (s : Ctl) (n : Nat) : Ctl :=
  if s.stopped n && (List.range 4).all (s.halts n) then
    let s := (List.range 4).foldl (fun s t =>
      if [Eng.WAIT_SEM, Eng.WAIT_MER].contains (s.engState n t) then s.setEngState n t Eng.HALTED else s) s
    s.wrB (SLC_STOP_AT.HALTED n) true
  else s

/-- SLICE_HALT (R264). -/
def execSliceHalt (n : Fin 64) (s : State) : Host.Outcome State Fault Refusal :=
  s.ctlNext (fun c => c.sliceHalt n.val)

/-- Cancel the stop: STOPPED, HALTED and ARM clear, and the streams continue (R266). -/
def Ctl.resume (s : Ctl) (n : Nat) : Ctl :=
  let s := ((s.wrB (SLC_STOP_AT.STOPPED n) false).wrB (SLC_STOP_AT.HALTED n) false).wrB (SLC_STOP_AT.ARM n) false
  let s := (List.range 4).foldl (fun s t =>
    let s := s.modStream n t (fun x => { x with skip := none, stopRun := false })
    if s.engState n t = Eng.HALTED then s.setEngState n t (s.stream n t).stateNow else s) s
  if (s.engOf n).idleFrom.isSome then
    (s.modEng n (fun e => { e with idleFrom := none })).setSeq n { s.seqOf n with joined := false, active := [] }
  else s

/-- Zero the record of a stream's non-finite tiles. -/
def Ctl.nonfiniteClear (s : Ctl) (n e : Nat) : Ctl := s.wrWord (SLC_NONFINITE.addr n e) 0

/-- An output tile is flagged (R230, R253): the sticky bit, and the record of the first. `i` is the
smallest index among its non-finite elements. -/
def Ctl.flagTile (s : Ctl) (n t i array : Nat) : Ctl :=
  let e := if t = 0 then 0 else 1
  let s := s.modStream n t (fun x => { x with sticky := true })
  let s := s.sat (SLC_NONFINITE.COUNT n e) 1
  if s.bit (SLC_NONFINITE.VALID n e) then s
  else
    let s := s.wr (SLC_NONFINITE.INSTR n e) (s.rd (SLC_ENG_PC.ICOUNT n t))
    let s := s.wr (SLC_NONFINITE.INDEX n e) i
    (s.wrB (SLC_NONFINITE.VALID n e) true).wr (SLC_NONFINITE.ARRAY n e) array

/-- Flag a tile by a list that says which of its elements are non-finite. -/
def Ctl.flagIf (s : Ctl) (n t array : Nat) (bad : List Bool) : Ctl :=
  match bad.findIdx? (fun b => b) with
  | some i => s.flagTile n t i array
  | none => s

end Sys2Proof.Machine
end

