-- ==== Sys2Proof/Machine/Scalar.lean ====
section
/-!
DEFINITION. The scalar core (R244, R245): its data memory and the opcodes of Table SLC-4, one
meaning each over the operand forms R, I and B.
-/

namespace Sys2Proof.Machine

abbrev Out := Host.Outcome State Fault Refusal

/-! ## Operand forms (R245) -/

def fRd (w : Nat) : Nat := nfld w 22 5
def fRa (w : Nat) : Nat := nfld w 27 5
def fRb (w : Nat) : Nat := nfld w 32 5
def fRc (w : Nat) : Nat := nfld w 37 5

/-- The 32-bit immediate, sign-extended. -/
def immOf (w : Nat) : W64 := BitVec.ofInt 64 (sext 32 (nfld w 32 32))

/-- Register x of a slice's scalar core. -/
def Ctl.x (s : Ctl) (n i : Nat) : W64 := s.reg n 2 i
def Ctl.setX (s : Ctl) (n i : Nat) (v : W64) : Ctl := s.setReg n 2 i v

/-- R format: rd = f ra rb. -/
def State.opR (s : State) (n op : Nat) (f : W64 → W64 → W64) : Out :=
  s.devNext (fun d => d.issue n 2 op (ctlBody (fun w c => (true, c.setX n (fRd w) (f (c.x n (fRa w)) (c.x n (fRb w)))))))

/-- I format: rd = f ra imm. -/
def State.opI (s : State) (n op : Nat) (f : W64 → W64 → W64) : Out :=
  s.devNext (fun d => d.issue n 2 op (ctlBody (fun w c => (true, c.setX n (fRd w) (f (c.x n (fRa w)) (immOf w))))))

/-- The domain's arithmetic mode. -/
def Ctl.strictOf (s : Ctl) (n : Nat) : Bool := s.strict (s.domOf n)

def lo32 (x : W64) : Nat := x.toNat % 2 ^ 32

/-- An FP32 operation of two operands, its result zero-extended. -/
def State.opF (s : State) (n op : Nat) (f : Bool → Nat → Nat → Nat) : Out :=
  s.devNext (fun d => d.issue n 2 op (ctlBody (fun w c =>
    (true, c.setX n (fRd w) (BitVec.ofNat 64 (f (c.strictOf n) (lo32 (c.x n (fRa w))) (lo32 (c.x n (fRb w)))))))))

/-! ## Data memory (Table SLC-3) -/

/-- A byte of scalar data memory: constants of bank A and B, then working memory and the context. -/
def Ctl.dmemByte (s : Ctl) (n a : Nat) : Byte :=
  if a < 0x1_0000 then
    let k := a / 0x8000
    let o := imageAddr n k + 0x2_0000 + a % 0x8000
    BitVec.ofNat 8 (getFld (s.word (o / 8 * 8)) (8 * (o % 8)) 8)
  else tblGet (fun _ => 0) (s.engOf n).dmem a

def Ctl.setDmem (s : Ctl) (n a : Nat) (bs : List Byte) : Ctl :=
  s.modEng n (fun e => { e with dmem := (List.range bs.length).foldl (fun t i => tblPut (fun _ => 0) t (a + i) (bs.getD i 0)) e.dmem })

/-- A load of `k` bytes: false is a program fault. -/
def State.opLd (s : State) (n op k : Nat) : Out :=
  s.devNext (fun d => d.issue n 2 op (ctlBody (fun w c =>
    let a := (c.x n (fRa w) + immOf w).toNat
    if a % k = 0 ∧ a + k ≤ 0x4_0000 then
      (true, c.setX n (fRd w) (BitVec.ofNat 64 (ofBytes ((List.range k).map (fun i => c.dmemByte n (a + i))))))
    else (false, c))))

/-- A store of `k` bytes: into the constants, or outside the memory, it is a program fault. -/
def State.opSt (s : State) (n op k : Nat) : Out :=
  s.devNext (fun d => d.issue n 2 op (ctlBody (fun w c =>
    let a := (c.x n (fRa w) + immOf w).toNat
    if a % k = 0 ∧ 0x1_0000 ≤ a ∧ a + k ≤ 0x4_0000 then (true, c.setDmem n a (toBytes k (c.x n (fRd w)).toNat))
    else (false, c))))

/-! ## Branches -/

/-- Continue at an instruction of the region; another target is a program fault. -/
def Ctl.jump (s : Ctl) (n : Nat) (target : Int) : Bool × Ctl :=
  if 0 ≤ target ∧ target < regionLen 2 then (true, s.setPc n 2 target.toNat) else (false, s)

/-- B format: PC = PC + offset where the comparison holds. Its fields are ra at [26:22], rb at [31:27]. -/
def State.opB (s : State) (n op : Nat) (f : W64 → W64 → Bool) : Out :=
  s.devNext (fun d =>
    let pc := d.ctl.pcOf n 2
    d.issue n 2 op (ctlBody (fun w c =>
      if f (c.x n (fRd w)) (c.x n (fRa w)) then c.jump n (pc + sext 32 (nfld w 32 32)) else (true, c))))

/-- A value the spec does not state. -/
def Ctl.freeX (s : Ctl) (n i : Nat) : Ctl :=
  let (k, s) := s.fresh
  s.setX n i (Config.freeWord k 0)

/-! ## Integer, R format -/

/-- ADD. -/
def execAddC (n : Fin 64) (s : State) : Out := s.opR n.val 0x10 (fun a b => a + b)

/-- SUB. -/
def execSubC (n : Fin 64) (s : State) : Out := s.opR n.val 0x11 (fun a b => a - b)

/-- AND. -/
def execAndC (n : Fin 64) (s : State) : Out := s.opR n.val 0x12 (fun a b => a &&& b)

/-- OR. -/
def execOrC (n : Fin 64) (s : State) : Out := s.opR n.val 0x13 (fun a b => a ||| b)

/-- XOR. -/
def execXorC (n : Fin 64) (s : State) : Out := s.opR n.val 0x14 (fun a b => a ^^^ b)

/-- SHL. -/
def execShl (n : Fin 64) (s : State) : Out := s.opR n.val 0x15 (fun a b => a <<< (b.toNat % 64))

/-- SHR. -/
def execShr (n : Fin 64) (s : State) : Out := s.opR n.val 0x16 (fun a b => a >>> (b.toNat % 64))

/-- SAR. -/
def execSar (n : Fin 64) (s : State) : Out := s.opR n.val 0x17 (fun a b => a.sshiftRight (b.toNat % 64))

/-- MUL. -/
def execMulC (n : Fin 64) (s : State) : Out := s.opR n.val 0x18 (fun a b => a * b)

/-- MULHU. -/
def execMulhu (n : Fin 64) (s : State) : Out := s.opR n.val 0x19 (fun a b => BitVec.ofNat 64 (a.toNat * b.toNat / 2 ^ 64))

/-- DIVU: division by zero gives all ones (R244). -/
def execDivu (n : Fin 64) (s : State) : Out := s.opR n.val 0x1A (fun a b => if b = 0 then BitVec.allOnes 64 else a / b)

/-- REMU: division by zero gives the dividend (R244). -/
def execRemu (n : Fin 64) (s : State) : Out := s.opR n.val 0x1B (fun a b => if b = 0 then a else a % b)

/-- SLT. -/
def execSlt (n : Fin 64) (s : State) : Out := s.opR n.val 0x1C (fun a b => if a.toInt < b.toInt then 1 else 0)

/-- SLTU. -/
def execSltu (n : Fin 64) (s : State) : Out := s.opR n.val 0x1D (fun a b => if a.toNat < b.toNat then 1 else 0)

/-! ## Integer, I format -/

/-- ADDI. -/
def execAddi (n : Fin 64) (s : State) : Out := s.opI n.val 0x20 (fun a b => a + b)

/-- ANDI. -/
def execAndi (n : Fin 64) (s : State) : Out := s.opI n.val 0x21 (fun a b => a &&& b)

/-- ORI. -/
def execOri (n : Fin 64) (s : State) : Out := s.opI n.val 0x22 (fun a b => a ||| b)

/-- XORI. -/
def execXori (n : Fin 64) (s : State) : Out := s.opI n.val 0x23 (fun a b => a ^^^ b)

/-- SHLI. -/
def execShli (n : Fin 64) (s : State) : Out := s.opI n.val 0x24 (fun a b => a <<< (b.toNat % 64))

/-- SHRI. -/
def execShri (n : Fin 64) (s : State) : Out := s.opI n.val 0x25 (fun a b => a >>> (b.toNat % 64))

/-- LI. -/
def execLi (n : Fin 64) (s : State) : Out := s.opI n.val 0x26 (fun _ b => b)

/-- LUI: the upper half; the lower is kept. -/
def execLui (n : Fin 64) (s : State) : Out :=
  s.devNext (fun d => d.issue n.val 2 0x27 (ctlBody (fun w c =>
    (true, c.setX n.val (fRd w) (BitVec.ofNat 64 (lo32 (c.x n.val (fRd w)) + nfld w 32 32 * 2 ^ 32))))))

/-! ## Loads and stores -/

/-- LD8. -/
def execLd8 (n : Fin 64) (s : State) : Out := s.opLd n.val 0x28 1

/-- LD16. -/
def execLd16 (n : Fin 64) (s : State) : Out := s.opLd n.val 0x29 2

/-- LD32. -/
def execLd32 (n : Fin 64) (s : State) : Out := s.opLd n.val 0x2A 4

/-- LD64. -/
def execLd64 (n : Fin 64) (s : State) : Out := s.opLd n.val 0x2B 8

/-- ST8. -/
def execSt8 (n : Fin 64) (s : State) : Out := s.opSt n.val 0x2C 1

/-- ST16. -/
def execSt16 (n : Fin 64) (s : State) : Out := s.opSt n.val 0x2D 2

/-- ST32. -/
def execSt32 (n : Fin 64) (s : State) : Out := s.opSt n.val 0x2E 4

/-- ST64. -/
def execSt64 (n : Fin 64) (s : State) : Out := s.opSt n.val 0x2F 8

/-- LDF: eight bytes at a window address. -/
def execLdf (n : Fin 64) (s : State) : Out :=
  s.devNext (fun d => d.issue n.val 2 0x30 (fun w d =>
    let a := (d.ctl.x n.val (fRa w) + immOf w).toNat
    if !nbit a 63 then (false, d)
    else
      match d.engRead n.val a 8 with
      | (some bs, d) => (true, d.onCtl (fun c => c.setX n.val (fRd w) (BitVec.ofNat 64 (ofBytes bs))))
      | (none, d) => (false, d)))

/-- STF: eight bytes to a window address. -/
def execStf (n : Fin 64) (s : State) : Out :=
  s.devNext (fun d => d.issue n.val 2 0x31 (fun w d =>
    let a := (d.ctl.x n.val (fRa w) + immOf w).toNat
    if !nbit a 63 then (false, d) else d.engWrite n.val a (toBytes 8 (d.ctl.x n.val (fRd w)).toNat)))

/-! ## Branches and jumps -/

/-- BEQ. -/
def execBeq (n : Fin 64) (s : State) : Out := s.opB n.val 0x32 (fun a b => decide (a = b))

/-- BNE. -/
def execBne (n : Fin 64) (s : State) : Out := s.opB n.val 0x33 (fun a b => decide (a ≠ b))

/-- BLT. -/
def execBlt (n : Fin 64) (s : State) : Out := s.opB n.val 0x34 (fun a b => decide (a.toInt < b.toInt))

/-- BGE. -/
def execBge (n : Fin 64) (s : State) : Out := s.opB n.val 0x35 (fun a b => decide (b.toInt ≤ a.toInt))

/-- BLTU. -/
def execBltu (n : Fin 64) (s : State) : Out := s.opB n.val 0x36 (fun a b => decide (a.toNat < b.toNat))

/-- BGEU. -/
def execBgeu (n : Fin 64) (s : State) : Out := s.opB n.val 0x37 (fun a b => decide (b.toNat ≤ a.toNat))

/-- JAL: rd = PC + 1; PC = PC + imm. -/
def execJal (n : Fin 64) (s : State) : Out :=
  s.devNext (fun d =>
    let pc := d.ctl.pcOf n.val 2
    d.issue n.val 2 0x38 (ctlBody (fun w c =>
      (c.setX n.val (fRd w) (BitVec.ofNat 64 (pc + 1))).jump n.val (pc + sext 32 (nfld w 32 32)))))

/-- JALR: rd = PC + 1; PC = ra + imm. -/
def execJalr (n : Fin 64) (s : State) : Out :=
  s.devNext (fun d =>
    let pc := d.ctl.pcOf n.val 2
    d.issue n.val 2 0x39 (ctlBody (fun w c =>
      let target := (c.x n.val (fRa w) + immOf w).toNat
      (c.setX n.val (fRd w) (BitVec.ofNat 64 (pc + 1))).jump n.val target)))

/-! ## System -/

/-- POST (R235): it stalls the core until the stream's queue has room. The stream and the binding are
the low bits of registers rd and ra. -/
def execPost (n : Fin 64) (s : State) : Out :=
  s.devNext (fun d =>
    let w := d.ctl.nextWord n.val 2
    let t := (d.ctl.x n.val (fRd w)).toNat % 4
    if w % 256 = 0x3A ∧ 16 ≤ (d.ctl.stream n.val t).queue.length ∧ d.ctl.engState n.val t ≠ Eng.FENCED then d
    else d.issue n.val 2 0x3A (ctlBody (fun w c =>
      (true, (c.enqueueStart n.val ((c.x n.val (fRd w)).toNat % 4)
        { binding := (c.x n.val (fRa w)).toNat % 65536, bank := c.liveBank (c.domOf n.val),
          arg := (c.x n.val (fRb w)).toNat }).2))))

/-- RDFEAT: imm 0 to 3; the spec states no result for another imm. -/
def execRdfeat (n : Fin 64) (s : State) : Out :=
  s.devNext (fun d => d.issue n.val 2 0x3B (ctlBody (fun w c =>
    let i := nfld w 32 32
    (true, if i < 4 then c.setX n.val (fRd w) (c.word (0x008 + 8 * i)) else c.freeX n.val (fRd w)))))

/-- RDSYS: imm 0 to 5; the spec states no result for another imm. -/
def execRdsys (n : Fin 64) (s : State) : Out :=
  s.devNext (fun d => d.issue n.val 2 0x3C (ctlBody (fun w c =>
    let x := c.stream n.val 2
    let v : Option Nat := match nfld w 32 32 with
      | 0 => some c.now
      | 1 => some x.start
      | 2 => some n.val
      | 3 => some (c.domOf n.val)
      | 4 => some (c.rd (SLC_ENG_PC.ICOUNT n.val 2))
      | 5 => some x.step
      | _ => none
    (true, match v with
      | some v => c.setX n.val (fRd w) (BitVec.ofNat 64 v)
      | none => c.freeX n.val (fRd w)))))

/-- MWAITR: waits for an absolute count. -/
def execMwaitr (n : Fin 64) (s : State) : Out :=
  s.devNext (fun d => d.issue n.val 2 0x3D (ctlBody (fun w c => (true, c.merWait n.val 2 (c.x n.val (fRa w)).toNat))))

/-- DRAW (R227) with the latched seed and step. -/
def execDraw (n : Fin 64) (s : State) : Out :=
  s.devNext (fun d => d.issue n.val 2 0x3E (ctlBody (fun w c =>
    let x := c.stream n.val 2
    (true, c.setX n.val (fRd w) (BitVec.ofNat 64 (draw x.seed x.step ((c.x n.val (fRa w)).toNat % 2 ^ 14)
      ((c.x n.val (fRb w)).toNat % 2 ^ 40) ((c.x n.val (fRc w)).toNat % 256)))))))

/-- RDSEM: imm 0 to 63; the spec states no result for another imm. -/
def execRdsem (n : Fin 64) (s : State) : Out :=
  s.devNext (fun d => d.issue n.val 2 0x3F (ctlBody (fun w c =>
    let i := nfld w 32 32
    (true, if i < 64 then c.setX n.val (fRd w) (BitVec.ofNat 64 (c.sem n.val i)) else c.freeX n.val (fRd w)))))

/-! ## FP32 (R229) -/

/-- FADD. -/
def execFadd (n : Fin 64) (s : State) : Out := s.opF n.val 0x40 fadd

/-- FSUB. -/
def execFsub (n : Fin 64) (s : State) : Out := s.opF n.val 0x41 fsub

/-- FMUL. -/
def execFmul (n : Fin 64) (s : State) : Out := s.opF n.val 0x42 fmul

/-- FDIV. -/
def execFdiv (n : Fin 64) (s : State) : Out := s.opF n.val 0x43 fdiv

/-- FSQRT. -/
def execFsqrt (n : Fin 64) (s : State) : Out := s.opF n.val 0x44 (fun st a _ => fsqrt st a)

/-- FMIN. -/
def execFmin (n : Fin 64) (s : State) : Out := s.opF n.val 0x46 fminimum

/-- FMAX. -/
def execFmax (n : Fin 64) (s : State) : Out := s.opF n.val 0x47 fmaximum

/-- FEQ. -/
def execFeq (n : Fin 64) (s : State) : Out := s.opF n.val 0x4A (fun st a b => b2n (feq st a b))

/-- FLT. -/
def execFlt (n : Fin 64) (s : State) : Out := s.opF n.val 0x4B (fun st a b => b2n (flt st a b))

/-- FLE. -/
def execFle (n : Fin 64) (s : State) : Out := s.opF n.val 0x4C (fun st a b => b2n (fle st a b))

/-- FMA: ra x rb + rc with one rounding. -/
def execFma (n : Fin 64) (s : State) : Out :=
  s.devNext (fun d => d.issue n.val 2 0x45 (ctlBody (fun w c =>
    (true, c.setX n.val (fRd w) (BitVec.ofNat 64 (ffma (c.strictOf n.val) (lo32 (c.x n.val (fRa w)))
      (lo32 (c.x n.val (fRb w))) (lo32 (c.x n.val (fRc w)))))))))

/-- I2F: ra as a signed integer. -/
def execI2f (n : Fin 64) (s : State) : Out :=
  s.devNext (fun d => d.issue n.val 2 0x48 (ctlBody (fun w c =>
    (true, c.setX n.val (fRd w) (BitVec.ofNat 64 (i2f (c.strictOf n.val) (c.x n.val (fRa w)).toInt))))))

/-- F2I: truncation to a signed 64-bit integer, saturating; NaN gives 0. -/
def execF2i (n : Fin 64) (s : State) : Out :=
  s.devNext (fun d => d.issue n.val 2 0x49 (ctlBody (fun w c =>
    (true, c.setX n.val (fRd w) (BitVec.ofInt 64 (f2i (c.strictOf n.val) 64 (lo32 (c.x n.val (fRa w)))))))))

end Sys2Proof.Machine
end

