-- ==== Sys2Proof/Machine/Array.lean ====
section
/-!
DEFINITION. The array engine (R246-R249): tiles, and the opcodes of Table SLC-5.
-/

namespace Sys2Proof.Machine

/-- Elements of a tile, padded with the value of an element not listed. -/
def fit (n z : Nat) (l : List Nat) : List Nat := (l ++ List.replicate n z).take n

def Ctl.tile (s : Ctl) (n a t : Nat) : Tile := tblGet (fun _ => {}) (s.engOf n).tiles (8 * a + t)
def Ctl.setTile (s : Ctl) (n a t : Nat) (x : Tile) : Ctl :=
  s.modEng n (fun e => { e with tiles := tblPut (fun _ => {}) e.tiles (8 * a + t) x })

/-- An accumulator tile: 16,384 FP32 codes, row by row. -/
def Ctl.acc (s : Ctl) (n a c : Nat) : List Nat := fit 16384 0 (tblGet (fun _ => []) (s.engOf n).accs (4 * a + c))
def Ctl.setAcc (s : Ctl) (n a c : Nat) (x : List Nat) : Ctl :=
  s.modEng n (fun e => { e with accs := tblPut (fun _ => []) e.accs (4 * a + c) x })

/-- Read `rows` rows of `len` bytes at a staging address with a stride; none is a program fault. The
arrays accept only staging addresses (R238). -/
def Dev.tileRows (d : Dev) (n base stride len : Nat) : Nat → Option (List (List Byte))
  | 0 => some []
  | r + 1 =>
    let a := (base + r * stride) % 2 ^ 64
    if nbit a 63 then none
    else
      match d.engRead n a len, d.tileRows n base stride len r with
      | (some bs, _), some l => some (l ++ [bs])
      | _, _ => none

/-- Rows to columns. -/
def transpose128 (l : List Nat) : List Nat :=
  let rows := (List.range 128).map (fun r => (l.drop (128 * r)).take 128)
  (List.range 128).flatMap (fun c => rows.map (fun r => r.getD c 0))

/-- Fields of Table SLC-5. -/
def fA (w : Nat) : Nat := nfld w 22 1
def fAr (w : Nat) : Nat := nfld w 31 4
def fAs (w : Nat) : Nat := nfld w 35 4

/-- TLOAD. -/
def Dev.tload (d : Dev) (n w : Nat) : Bool × Dev :=
  let f := nfld w 26 3
  let fmt := fmtOf f
  if f = 0 ∨ 4 < f then (false, d)
  else
    match d.tileRows n (d.ctl.areg n 0 (fAr w)) (d.ctl.areg n 0 (fAs w)) (16 * fmt.bits) 128 with
    | none => (false, d)
    | some rows =>
      let codes := rows.flatMap (fun bs => (List.range 128).map (codeAt fmt bs))
      let codes := if nbit w 30 then transpose128 codes else codes
      let ae := d.ctl.areg n 0 (nfld w 39 4)
      let put (sc : List Nat) : Bool × Dev :=
        (true, d.onCtl (fun c => c.setTile n (fA w) (nfld w 23 3) { fmt := f, codes := codes, scales := sc }))
      if !nbit w 29 then put []
      else if nbit ae 63 then (false, d)
      else
        match d.engRead n ae 512 with
        | (some bs, _) => put (bs.map BitVec.toNat)
        | (none, _) => (false, d)

def execTload (n : Fin 64) (s : State) : Out := s.devNext (fun d => d.issue n.val 0 0x50 (fun w d => d.tload n.val w))

/-- CLOAD. -/
def Dev.cload (d : Dev) (n w : Nat) : Bool × Dev :=
  match d.tileRows n (d.ctl.areg n 0 (fAr w)) (d.ctl.areg n 0 (fAs w)) 512 128 with
  | none => (false, d)
  | some rows =>
    let st := d.ctl.strictOf n
    (true, d.onCtl (fun c => c.setAcc n (fA w) (nfld w 23 2)
      (rows.flatMap (fun bs => (List.range 128).map (fun i => toF32 st (f32 st (leAt bs (4 * i) 4)))))))

def execCload (n : Fin 64) (s : State) : Out := s.devNext (fun d => d.issue n.val 0 0x51 (fun w d => d.cload n.val w))

/-- CZERO. -/
def execCzero (n : Fin 64) (s : State) : Out :=
  s.devNext (fun d => d.issue n.val 0 0x52 (ctlBody (fun w c => (true, c.setAcc n.val (fA w) (nfld w 23 2) []))))

/-- Values of a tile's elements row by row, with the exponent of each element's scale; none marks a
NaN by its scale (R246, R248). -/
def Tile.values (x : Tile) (fmt : Fmt) (st : Bool) : List (List (FV × Option Int)) :=
  (List.range 128).map (fun r =>
    let row := fit 128 0 ((x.codes.drop (128 * r)).take 128)
    (List.range 128).map (fun k =>
      let e := if x.scales.isEmpty then 127 else x.scales.getD (4 * r + k / 32) 0
      (decodeFmt fmt st (row.getD k 0), if e = 0xFF then none else some ((e : Int) - 127))))

/-- One product of R248, rounded to FP32; a NaN operand or a scale of 0xFF gives the canonical NaN. -/
def mmaProduct (st : Bool) (a b : FV × Option Int) : Nat :=
  match a.2, b.2 with
  | some i, some j => if a.1.isNan || b.1.isNan then cNaN else toF32 st ((mulV a.1 b.1).scale (i + j))
  | _, _ => cNaN

/-- An output element: products added in ascending k, the accumulator first. -/
def mmaElem (st : Bool) (acc : Nat) (a b : List (FV × Option Int)) : Nat :=
  (List.zip a b).foldl (fun s x => fadd st s (mmaProduct st x.1 x.2)) acc

/-- The formats of two tiles agree; a cleared tile holds zeros of its partner's format (log entry 33). -/
def tileFmts (a b : Tile) : Option Nat :=
  if a.fmt = b.fmt ∨ b.fmt = 0 then some a.fmt else if a.fmt = 0 then some b.fmt else none

/-- C + A x transpose(B). -/
def mmaTile (st : Bool) (f : Nat) (acc : List Nat) (a b : Tile) : List Nat :=
  let va := a.values (fmtOf f) st
  let vb := b.values (fmtOf f) st
  (List.range 128).flatMap (fun i =>
    (List.range 128).map (fun j => mmaElem st (acc.getD (128 * i + j) 0) (va.getD i []) (vb.getD j [])))

/-- MMA with its checks' verdict (R249): a difference that the re-execution does not show is corrected;
one that it shows again fences the array engine, and the accumulator holds no stated value. -/
def Ctl.mma (s : Ctl) (n w : Nat) (v : MmaCheck) : Bool × Ctl :=
  let a := fA w
  let c := nfld w 23 2
  let ta := s.tile n a (nfld w 25 3)
  let tb := s.tile n a (nfld w 28 3)
  match tileFmts ta tb with
  | none => (false, s)
  | some f =>
    match v with
    | .twice =>
      let (k, s) := s.fresh
      let s := s.setAcc n a c ((List.range 16384).map (fun i => (Config.freeVec k i).toNat))
      (true, (s.raiseSlice (Src.SLC_ENGINE n) n (some 0)).fenceStream n 0)
    | v =>
      let r := mmaTile (s.strictOf n) (if f = 0 then 1 else f) (s.acc n a c) ta tb
      let s := (s.setAcc n a c r).flagIf n 0 a (r.map nonFinite)
      (true, if v = .once then s.raiseSlice (Src.SLC_CORRECTED n) n (some 0) else s)

def execMma (n : Fin 64) (check : MmaCheck) (s : State) : Out :=
  s.devNext (fun d => d.issue n.val 0 0x53 (ctlBody (fun w c => c.mma n.val w check)))

/-- Write rows at a staging address with a stride; false is a program fault. -/
def Dev.putRows (d : Dev) (n base stride : Nat) (rows : List (List Byte)) : Bool × Dev :=
  (List.range rows.length).foldl (fun acc r =>
    let a := (base + r * stride) % 2 ^ 64
    if !acc.1 || nbit a 63 then (false, acc.2) else acc.2.engWrite n a (rows.getD r [])) (true, d)

/-- CSTORE: rounded to nearest even; its output tile is the stored tile. -/
def Dev.cstore (d : Dev) (n w : Nat) : Bool × Dev :=
  let f := nfld w 26 3
  if 2 < f then (false, d)
  else
    let fmt := fmtOf f
    let st := d.ctl.strictOf n
    let codes := (d.ctl.acc n (fA w) (nfld w 23 2)).map (fun x => encodeFmt fmt st false (f32 st x))
    let rows := (List.range 128).map (fun r => packCodes fmt ((codes.drop (128 * r)).take 128))
    let (ok, d) := d.putRows n (d.ctl.areg n 0 (fAr w)) (d.ctl.areg n 0 (fAs w)) rows
    (ok, if ok then d.onCtl (fun c => c.flagIf n 0 (fA w) (codes.map (fun x =>
      match decodeFmt fmt st x with
      | .nan _ => true
      | .inf _ => true
      | _ => false))) else d)

def execCstore (n : Fin 64) (s : State) : Out := s.devNext (fun d => d.issue n.val 0 0x54 (fun w d => d.cstore n.val w))

end Sys2Proof.Machine
end

