-- ==== Sys2Proof/Machine/Vector.lean ====
section
/-!
DEFINITION. The vector engine (R250-R253): thread registers, predicates, and the opcodes of Table
SLC-6.
-/

namespace Sys2Proof.Machine

/-- Threads of the run: 256 for each group of its binding. -/
def Ctl.threads (s : Ctl) (n : Nat) : Nat :=
  match (s.stream n 1).run with
  | none => 0
  | some c => 256 * min 64 (s.binding n c.bank c.binding).groups

/-- A register of every thread of the run. -/
def Ctl.vreg (s : Ctl) (n r : Nat) : List Nat := fit (s.threads n) 0 (tblGet (fun _ => []) (s.engOf n).vregs r)

/-- Replace a register in the run's threads; other threads keep theirs. -/
def Ctl.setVreg (s : Ctl) (n r : Nat) (v : List Nat) : Ctl :=
  s.modEng n (fun e =>
    let old := tblGet (fun _ => []) e.vregs r
    { e with vregs := tblPut (fun _ => []) e.vregs r (v ++ old.drop v.length) })

def Ctl.pred (s : Ctl) (n p : Nat) : List Bool :=
  let l := tblGet (fun _ => []) (s.engOf n).preds p
  (l ++ List.replicate (s.threads n) false).take (s.threads n)
def Ctl.setPred (s : Ctl) (n p : Nat) (v : List Bool) : Ctl :=
  s.modEng n (fun e =>
    let old := tblGet (fun _ => []) e.preds p
    { e with preds := tblPut (fun _ => []) e.preds p (v ++ old.drop v.length) })

/-- The threads an instruction acts on (PRED, PINV); a PRED code of 5 to 7 names no predicate, and the
spec states nothing for it: a free value for each thread. -/
def Ctl.mask (s : Ctl) (n w : Nat) : List Bool :=
  let p := nfld w 42 3
  let inv := nbit w 45
  match p with
  | 0 => List.replicate (s.threads n) true
  | 1 | 2 | 3 | 4 => (s.pred n (p - 1)).map (fun b => b != inv)
  | _ => (List.range (s.threads n)).map (fun t => (Config.freeVec s.freeN t).getLsbD 0)

/-- Write a register under a mask. -/
def Ctl.putV (s : Ctl) (n w vd : Nat) (v : List Nat) : Ctl :=
  s.setVreg n vd (List.zipWith (fun (m : Bool) (x : Nat × Nat) => if m then x.1 else x.2) (s.mask n w) (List.zip v (s.vreg n vd)))

/-- Write the FP32 results of a vector instruction and flag them as its output tile (R230): the values
it writes, indexed by thread. -/
def Ctl.putF (s : Ctl) (n w vd : Nat) (v : List Nat) : Ctl :=
  let m := s.mask n w
  (s.putV n w vd v).flagIf n 1 0 (List.zipWith (fun b x => b && nonFinite x) m v)

/-- VA format on FP32: one, two or three sources. -/
def State.opV1 (s : State) (n op : Nat) (f : Bool → Nat → Nat) : Out :=
  s.devNext (fun d => d.issue n 1 op (ctlBody (fun w c =>
    (true, c.putF n w (fRd w) ((c.vreg n (fRa w)).map (f (c.strictOf n)))))))
def State.opV2 (s : State) (n op : Nat) (f : Bool → Nat → Nat → Nat) : Out :=
  s.devNext (fun d => d.issue n 1 op (ctlBody (fun w c =>
    (true, c.putF n w (fRd w) (List.zipWith (f (c.strictOf n)) (c.vreg n (fRa w)) (c.vreg n (fRb w)))))))

/-- VA format on integers: the output tile is flagged as any values it writes (R253). -/
def State.opVI (s : State) (n op : Nat) (f : Nat → Nat → Nat) : Out :=
  s.devNext (fun d => d.issue n 1 op (ctlBody (fun w c =>
    (true, c.putF n w (fRd w) (List.zipWith f (c.vreg n (fRa w)) (c.vreg n (fRb w)))))))

/-! ## Loads and stores -/

/-- VM format fields. -/
def fVar (w : Nat) : Nat := nfld w 27 4
def fVas (w : Nat) : Nat := nfld w 31 4
def fVfmt (w : Nat) : Nat := nfld w 35 3

/-- Format faults of VLD and VST: a code outside Table PST-8, block scales for a format without them,
and (a store) a predicated scaled store (R252). -/
def vmFault (w : Nat) (store : Bool) : Bool :=
  decide (4 < fVfmt w) || (nbit w 38 && (fmtOf (fVfmt w)).ieee) || (store && nbit w 38 && nfld w 42 3 != 0)

/-- Read the element of each thread that the mask admits: its byte or bytes at base; none is a fault. -/
def Dev.gather (d : Dev) (n base bits : Nat) : List (Nat × Bool) → Option (List Nat) × Dev
  | [] => (some [], d)
  | (t, m) :: r =>
    if !m then
      match d.gather n base bits r with
      | (some l, d) => (some (0 :: l), d)
      | x => x
    else
      match d.engRead n (base + t * bits / 8) (max 1 (bits / 8)) with
      | (some bs, d) =>
        let v := if bits = 4 then nfld (ofBytes bs) (4 * (t % 2)) 4 else ofBytes bs
        (match d.gather n base bits r with
         | (some l, d) => (some (v :: l), d)
         | x => x)
      | (none, d) => (none, d)

/-- One thread's element decoded with its block's scale (R222). -/
def decodeElem (fmt : Fmt) (st : Bool) (scale : Option Nat) (code : Nat) : Nat :=
  match scale with
  | none => toF32 st (decodeFmt fmt st code)
  | some e => if e = 0xFF then cNaN else toF32 st ((decodeFmt fmt st code).scale ((e : Int) - 127))

/-- Scale bytes of a scaled array of `T` elements. -/
def Dev.scaleBytes (d : Dev) (n w T : Nat) : Option (List Byte) × Dev :=
  if nbit w 38 then d.engRead n (d.ctl.areg n 1 (fVas w)) (cdiv T 32) else (some [], d)

/-- VLD. -/
def Dev.vld (d : Dev) (n w : Nat) : Bool × Dev :=
  if vmFault w false then (false, d)
  else
    let fmt := fmtOf (fVfmt w)
    let T := d.ctl.threads n
    let m := d.ctl.mask n w
    match d.gather n (d.ctl.areg n 1 (fVar w)) fmt.bits (List.zip (List.range T) m) with
    | (none, d) => (false, d)
    | (some codes, d) =>
      match d.scaleBytes n w T with
      | (none, d) => (false, d)
      | (some sc, d) =>
        let st := d.ctl.strictOf n
        let v := List.zipWith (fun t x =>
          decodeElem fmt st (if nbit w 38 then some (sc.getD (t / 32) 0).toNat else none) x) (List.range T) codes
        (true, d.onCtl (fun c => c.putF n w (fRd w) v))

def execVld (n : Fin 64) (s : State) : Out := s.devNext (fun d => d.issue n.val 1 0x60 (fun w d => d.vld n.val w))

/-- Store the code of each thread that the mask admits. -/
def Dev.scatter (d : Dev) (n base bits : Nat) : List (Nat × Bool × Nat) → Bool × Dev
  | [] => (true, d)
  | (t, m, v) :: r =>
    if !m then d.scatter n base bits r
    else
      let a := base + t * bits / 8
      if bits = 4 then
        match d.engRead n a 1 with
        | (none, d) => (false, d)
        | (some old, d) =>
          let b := (setFld (BitVec.ofNat 64 (ofBytes old)) (4 * (t % 2)) 4 v).toNat
          let (ok, d) := d.engWrite n a (toBytes 1 b)
          if ok then d.scatter n base bits r else (false, d)
      else
        let (ok, d) := d.engWrite n a (toBytes (bits / 8) v)
        if ok then d.scatter n base bits r else (false, d)

/-- The inputs of a stochastic conversion of thread `t` (R252). -/
def Ctl.rngBits (s : Ctl) (n : Nat) (fmt : Fmt) (t : Nat) : Nat :=
  let x := s.stream n 1
  stochBits s.fuse.stepA1 fmt (draw x.seed x.step x.rngTensor ((x.rngBase + t) % 2 ^ 40) x.rngStream)

/-- The codes and the block scales that a VST writes (R224-R226). -/
def Ctl.vstCodes (s : Ctl) (n w : Nat) (fmt : Fmt) : List Nat × List Nat :=
  let st := s.strictOf n
  let vs := (s.vreg n (fRd w)).map (f32 st)
  let conv (t : Nat) (v : FV) : Nat :=
    if nbit w 39 && fmt != .fp32 then encodeStoch fmt st (nbit w 40) v (s.rngBits n fmt t)
    else encodeFmt fmt st (nbit w 40) v
  if nbit w 38 then
    let sc := (List.range (cdiv vs.length 32)).map (fun b => blockScale fmt ((vs.drop (32 * b)).take 32))
    (List.zipWith (fun t v =>
      let e := sc.getD (t / 32) 127
      if e = 0xFF then fmt.nan else conv t (v.scale (127 - e))) (List.range vs.length) vs, sc)
  else (List.zipWith conv (List.range vs.length) vs, [])

/-- VST. -/
def Dev.vst (d : Dev) (n w : Nat) : Bool × Dev :=
  if vmFault w true then (false, d)
  else
    let fmt := fmtOf (fVfmt w)
    let m := d.ctl.mask n w
    let r := d.ctl.vstCodes n w fmt
    let bad := List.zipWith (fun (b : Bool) (x : Nat × Nat) =>
      b && (match decodeFmt fmt true x.2 with
        | .nan _ => true
        | .inf _ => true
        | _ => nbit w 38 && r.2.getD (x.1 / 32) 0 == 0xFF)) m (List.zip (List.range m.length) r.1)
    let sa := d.ctl.areg n 1 (fVas w)
    let (ok, d) := d.scatter n (d.ctl.areg n 1 (fVar w)) fmt.bits (List.zip (List.range m.length) (List.zip m r.1))
    let (ok, d) := if ok && nbit w 38 then d.engWrite n sa (r.2.map (BitVec.ofNat 8)) else (ok, d)
    (ok, if ok then d.onCtl (fun c => c.flagIf n 1 0 bad) else d)

def execVst (n : Fin 64) (s : State) : Out := s.devNext (fun d => d.issue n.val 1 0x61 (fun w d => d.vst n.val w))

/-- VBCAST. -/
def execVbcast (n : Fin 64) (s : State) : Out :=
  s.devNext (fun d => d.issue n.val 1 0x62 (ctlBody (fun w c =>
    (true, c.putF n.val w (fRd w) (List.replicate (c.threads n.val) (c.areg n.val 1 (fVar w) % 2 ^ 32))))))

/-- VRNG: the draw context. -/
def execVrng (n : Fin 64) (s : State) : Out :=
  s.devNext (fun d => d.issue n.val 1 0x63 (ctlBody (fun w c =>
    (true, c.modStream n.val 1 (fun x =>
      { x with rngTensor := nfld w 26 14, rngStream := nfld w 40 8, rngBase := c.areg n.val 1 (nfld w 22 4) })))))

/-! ## Arithmetic -/

/-- VADD. -/
def execVadd (n : Fin 64) (s : State) : Out := s.opV2 n.val 0x64 fadd
/-- VSUB. -/
def execVsub (n : Fin 64) (s : State) : Out := s.opV2 n.val 0x65 fsub
/-- VMUL. -/
def execVmul (n : Fin 64) (s : State) : Out := s.opV2 n.val 0x66 fmul

/-- VFMA: va x vb + vc with one rounding. -/
def execVfma (n : Fin 64) (s : State) : Out :=
  s.devNext (fun d => d.issue n.val 1 0x67 (ctlBody (fun w c =>
    let st := c.strictOf n.val
    (true, c.putF n.val w (fRd w) (List.zipWith (fun a (x : Nat × Nat) => ffma st a x.1 x.2)
      (c.vreg n.val (fRa w)) (List.zip (c.vreg n.val (fRb w)) (c.vreg n.val (fRc w))))))))

/-- VDIV. -/
def execVdiv (n : Fin 64) (s : State) : Out := s.opV2 n.val 0x68 fdiv
/-- VSQRT. -/
def execVsqrt (n : Fin 64) (s : State) : Out := s.opV1 n.val 0x69 fsqrt
/-- VMIN. -/
def execVmin (n : Fin 64) (s : State) : Out := s.opV2 n.val 0x6A fminimum
/-- VMAX. -/
def execVmax (n : Fin 64) (s : State) : Out := s.opV2 n.val 0x6B fmaximum
/-- VABS. -/
def execVabs (n : Fin 64) (s : State) : Out := s.opV1 n.val 0x6C fabs
/-- VNEG. -/
def execVneg (n : Fin 64) (s : State) : Out := s.opV1 n.val 0x6D fneg
/-- VSIGN. -/
def execVsign (n : Fin 64) (s : State) : Out := s.opV1 n.val 0x6E fsign

/-- Set predicate p, in vd[1:0], of the threads that the mask admits. -/
def State.opVP (s : State) (n op : Nat) (f : Bool → Nat → Nat → Bool) : Out :=
  s.devNext (fun d => d.issue n 1 op (ctlBody (fun w c =>
    let p := fRd w % 4
    let v := List.zipWith (f (c.strictOf n)) (c.vreg n (fRa w)) (c.vreg n (fRb w))
    (true, c.setPred n p (List.zipWith (fun (m : Bool) (x : Bool × Bool) => if m then x.1 else x.2) (c.mask n w)
      (List.zip v (c.pred n p)))))))

/-- VCMPLT. -/
def execVcmplt (n : Fin 64) (s : State) : Out := s.opVP n.val 0x70 flt
/-- VCMPEQ. -/
def execVcmpeq (n : Fin 64) (s : State) : Out := s.opVP n.val 0x71 feq

/-- VSEL: va where the predicate holds, else vb. -/
def execVsel (n : Fin 64) (s : State) : Out :=
  s.devNext (fun d => d.issue n.val 1 0x72 (ctlBody (fun w c =>
    let v := List.zipWith (fun (m : Bool) (x : Nat × Nat) => if m then x.1 else x.2) (c.mask n.val w)
      (List.zip (c.vreg n.val (fRa w)) (c.vreg n.val (fRb w)))
    (true, (c.setVreg n.val (fRd w) v).flagIf n.val 1 0 (v.map nonFinite)))))

/-- VTID. -/
def execVtid (n : Fin 64) (s : State) : Out :=
  s.devNext (fun d => d.issue n.val 1 0x73 (ctlBody (fun w c =>
    (true, c.putF n.val w (fRd w) (List.range (c.threads n.val))))))

/-- VIADD. -/
def execViadd (n : Fin 64) (s : State) : Out := s.opVI n.val 0x74 (fun a b => (a + b) % 2 ^ 32)
/-- VAND. -/
def execVand (n : Fin 64) (s : State) : Out := s.opVI n.val 0x75 (fun a b => a &&& b)
/-- VOR. -/
def execVor (n : Fin 64) (s : State) : Out := s.opVI n.val 0x76 (fun a b => a ||| b)
/-- VXOR. -/
def execVxor (n : Fin 64) (s : State) : Out := s.opVI n.val 0x77 (fun a b => a ^^^ b)
/-- VSHL: by vb[4:0] (log entry 34). -/
def execVshl (n : Fin 64) (s : State) : Out := s.opVI n.val 0x78 (fun a b => (a <<< (b % 32)) % 2 ^ 32)
/-- VSHR: a logical shift by vb[4:0] (log entry 34). -/
def execVshr (n : Fin 64) (s : State) : Out := s.opVI n.val 0x79 (fun a b => a >>> (b % 32))

/-- VI2F, on 32-bit values. -/
def execVi2f (n : Fin 64) (s : State) : Out := s.opV1 n.val 0x7A (fun st a => i2f st (sext 32 a))
/-- VF2I, on 32-bit values. -/
def execVf2i (n : Fin 64) (s : State) : Out := s.opV1 n.val 0x7B (fun st a => ofInt 32 (f2i st 32 a))

/-! ## Reductions (R253) -/

/-- A binary tree over adjacent values; a node with one child passes it on. -/
def treeFold (f : Nat → Nat → Nat) : List Nat → List Nat
  | a :: b :: t => f a b :: treeFold f t
  | l => l

/-- The reduction of a mode: 0 ADD, 1 MAX, 2 MIN, 3 SUMSQ. -/
def reduceBy (st : Bool) (mode : Nat) (l : List Nat) : Nat :=
  let l := if mode = 3 then l.map (fun x => fmul st x x) else l
  match mode with
  | 1 => (iter (treeFold (fmaximum st)) 14 l).headD 0
  | 2 => (iter (treeFold (fminimum st)) 14 l).headD 0
  | _ => if st then l.foldl (fadd st) 0 else (iter (treeFold (fadd st)) 14 l).headD 0

/-- VRED. -/
def execVred (n : Fin 64) (s : State) : Out :=
  s.devNext (fun d => d.issue n.val 1 0x7C (ctlBody (fun w c =>
    let v := reduceBy (c.strictOf n.val) (nfld w 32 2) (c.vreg n.val (fRa w))
    (true, (c.setReg n.val 1 (nfld w 22 4) (BitVec.ofNat 64 v)).flagIf n.val 1 0 [nonFinite v]))))

/-- VMASK: 1.0 where bits [63:32] of the thread's draw lie below the threshold. -/
def execVmask (n : Fin 64) (s : State) : Out :=
  s.devNext (fun d => d.issue n.val 1 0x7D (ctlBody (fun w c =>
    let x := c.stream n.val 1
    let th := c.areg n.val 1 (fVar w) % 2 ^ 32
    (true, c.setVreg n.val (fRd w) ((List.range (c.threads n.val)).map (fun t =>
      if draw x.seed x.step x.rngTensor ((x.rngBase + t) % 2 ^ 40) x.rngStream / 2 ^ 32 < th then fOne else 0))))))

/-- VSTU. -/
def execVstu (n : Fin 64) (s : State) : Out :=
  s.devNext (fun d => d.issue n.val 1 0x7E (fun w d =>
    let v := d.ctl.areg n.val 1 (nfld w 22 4) % 2 ^ 32
    let (ok, d) := d.engWrite n.val (d.ctl.areg n.val 1 (nfld w 26 4)) (toBytes 4 v)
    (ok, if ok then d.onCtl (fun c => c.flagIf n.val 1 0 [nonFinite v]) else d)))

end Sys2Proof.Machine
end

