-- ==== Sys2Proof/Machine/Stream.lean ====
section
/-!
DEFINITION. The stream engine (R254, R255, R340-R342): the opcodes of Table SLC-7 and the program
check-value units.
-/

namespace Sys2Proof.Machine

/-- Address fields of Table SLC-7. -/
def Ctl.sAd (s : Ctl) (n w : Nat) : Nat := s.areg n 3 (nfld w 22 4)
def Ctl.sAs (s : Ctl) (n w : Nat) : Nat := s.areg n 3 (nfld w 26 4)
def Ctl.sAl (s : Ctl) (n w : Nat) : Nat := s.areg n 3 (nfld w 30 4)

/-- Read rows of bytes; none is a program fault. -/
def Dev.readRows (d : Dev) (n base stride len : Nat) : Nat → Option (List (List Byte)) × Dev
  | 0 => (some [], d)
  | k + 1 =>
    match d.readRows n base stride len k with
    | (none, d) => (none, d)
    | (some l, d) =>
      match d.engRead n ((base + k * stride) % 2 ^ 64) len with
      | (some bs, d) => (some (l ++ [bs]), d)
      | (none, d) => (none, d)

/-- Write rows of bytes; false is a program fault. -/
def Dev.writeRows (d : Dev) (n base stride : Nat) (rows : List (List Byte)) : Bool × Dev :=
  (List.range rows.length).foldl (fun acc k =>
    if !acc.1 then acc else acc.2.engWrite n ((base + k * stride) % 2 ^ 64) (rows.getD k [])) (true, d)

/-- Copy rows: the source is read whole before the destination is written. -/
def Dev.copyRows (d : Dev) (n dst ds src ss len rows : Nat) : Bool × Dev :=
  if len = 0 ∨ rows = 0 then (true, d)
  else
    match d.readRows n src ss len rows with
    | (none, d) => (false, d)
    | (some l, d) => d.writeRows n dst ds l

/-- COPY. -/
def execCopy (n : Fin 64) (s : State) : Out :=
  s.devNext (fun d => d.issue n.val 3 0x80 (fun w d =>
    d.copyRows n.val (d.ctl.sAd n.val w) 0 (d.ctl.sAs n.val w) 0 (d.ctl.sAl n.val w) 1))

/-- COPY2D. -/
def execCopy2d (n : Fin 64) (s : State) : Out :=
  s.devNext (fun d => d.issue n.val 3 0x81 (fun w d =>
    d.copyRows n.val (d.ctl.sAd n.val w) (d.ctl.areg n.val 3 (nfld w 38 4)) (d.ctl.sAs n.val w)
      (d.ctl.areg n.val 3 (nfld w 42 4)) (d.ctl.sAl n.val w) (d.ctl.areg n.val 3 (nfld w 34 4))))

/-- FILL. -/
def execFill (n : Fin 64) (s : State) : Out :=
  s.devNext (fun d => d.issue n.val 3 0x82 (fun w d =>
    let len := d.ctl.sAl n.val w
    let pat := toBytes 4 (nfld w 32 32)
    if len = 0 then (true, d)
    else d.engWrite n.val (d.ctl.sAd n.val w) ((List.range len).map (fun i => pat.getD (i % 4) 0))))

/-- Algorithm of a program unit (Table FLT-5). -/
def unitSel (u : Nat) : Nat := if u < 4 then 0 else if u < 6 then 1 else 2

/-- Running value of a program unit. -/
def Ctl.ckVal (s : Ctl) (n u : Nat) : Nat := tblGet (fun u => chkInit (unitSel u)) (s.engOf n).checks u
def Ctl.setCk (s : Ctl) (n u v : Nat) : Ctl :=
  s.modEng n (fun e => { e with checks := tblPut (fun u => chkInit (unitSel u)) e.checks u v })

/-- CKFEED (R342). -/
def execCkfeed (n : Fin 64) (s : State) : Out :=
  s.devNext (fun d => d.issue n.val 3 0x83 (fun w d =>
    let u := nfld w 22 3
    let len := d.ctl.sAl n.val w
    if len = 0 then (true, d)
    else
      match d.engRead n.val (d.ctl.sAs n.val w) len with
      | (some bs, d) => (true, d.onCtl (fun c => c.setCk n.val u (chkRun (unitSel u) (c.ckVal n.val u) bs)))
      | (none, d) => (false, d)))

/-- CKGET: eight bytes, a 32-bit value zero-extended. -/
def execCkget (n : Fin 64) (s : State) : Out :=
  s.devNext (fun d => d.issue n.val 3 0x84 (fun w d =>
    d.engWrite n.val (d.ctl.areg n.val 3 (nfld w 25 4)) (toBytes 8 (d.ctl.ckVal n.val (nfld w 22 3)))))

/-- CKPUT: a 32-bit unit ignores the upper four bytes. -/
def execCkput (n : Fin 64) (s : State) : Out :=
  s.devNext (fun d => d.issue n.val 3 0x85 (fun w d =>
    let u := nfld w 22 3
    match d.engRead n.val (d.ctl.sAs n.val w) 8 with
    | (some bs, d) =>
      (true, d.onCtl (fun c => c.setCk n.val u (if unitSel u = 2 then ofBytes bs else ofBytes bs % 2 ^ 32)))
    | (none, d) => (false, d)))

/-- Reduction of the leaves' elements in the order of R161. -/
def treeReduce (st : Bool) (mode : Nat) (leaves : List Nat) : Nat :=
  let l := if mode = 3 then leaves.map (fun x => fmul st x x) else leaves
  let f := match mode with
    | 1 => fmaximum st
    | 2 => fminimum st
    | _ => fadd st
  (iter (treeFold f) 5 l).headD 0

/-- TREE (R255): vector i of `len` FP32 elements is leaf i. -/
def Dev.tree (d : Dev) (n w : Nat) : Bool × Dev :=
  let len := d.ctl.sAl n w
  let k := nfld w 34 5 + 1
  if len = 0 then (true, d)
  else
    match d.readRows n (d.ctl.sAs n w) (4 * len) (4 * len) k with
    | (none, d) => (false, d)
    | (some rows, d) =>
      let st := d.ctl.strictOf n
      let xs := (List.range len).map (fun i => treeReduce st (nfld w 39 2) (rows.map (fun r => leAt r (4 * i) 4)))
      d.engWrite n (d.ctl.sAd n w) (xs.flatMap (toBytes 4))

def execTree (n : Fin 64) (s : State) : Out := s.devNext (fun d => d.issue n.val 3 0x86 (fun w d => d.tree n.val w))

end Sys2Proof.Machine
end

