-- ==== Sys2Proof/Machine/Banks.lean ====
section
/-!
DEFINITION. Banks (R44-R50): what may be written to them and when, and the load checks of BANK_CHECK
(Tables MER-5, SWX-4, COL-3, PST-9, SLC-11 and MEM-4).
-/

namespace Sys2Proof.Machine

/-! ## Writing a bank (R25, R47, R262, R294) -/

/-- Live, armed, not yet drained, or under a running BANK_CHECK. -/
def Ctl.bankLocked (s : Ctl) (d k : Nat) : Bool :=
  s.liveBank d == k || s.armed d || s.draining d k || (s.domMer d).checking == some k

/-- The refusal of a write to bank `k` of a domain; OK where it is accepted. -/
def Ctl.bankGate (s : Ctl) (d : Option Nat) (k : Nat) : Nat :=
  match d with
  | none => St.DENIED
  | some d => if !s.created d then St.DENIED else if s.bankLocked d k then St.BUSY else St.OK

/-- The domain that owns a slice. -/
def Ctl.sliceDom (s : Ctl) (n : Nat) : Option Nat := if s.bit (SLC_DOMAIN.ASSIGNED n) then some (s.domOf n) else none

/-- A stream of the slice runs, or holds in its queue, a program of the bank (R262). -/
def Ctl.imageInUse (s : Ctl) (n k : Nat) : Bool :=
  (List.range 4).any (fun t =>
    let x := s.stream n t
    (x.run.toList ++ x.queue).any (fun c => c.bank == k))

/-- An accepted write of bytes at a bank's window address: VALID of the bank clears. -/
def Ctl.bankStore (s : Ctl) (d k a : Nat) (bs : List Byte) : Ctl := (s.setBytes a bs).setBankValid d k false

/-! ## Results of a check -/

/-- Where a check fails: slice (0 where it names none) and entry, template, binding or object. -/
abbrev BadAt := Option (Nat × Nat)

def firstIn (ns : List Nat) (f : Nat → Option Nat) : BadAt := ns.findSome? (fun n => (f n).map (fun i => (n, i)))

/-- The first entry of a table that fails a test. -/
def badEntry (l : List (Nat × Entry)) (p : Entry → Bool) : Option Nat := (l.find? (fun e => p e.2)).map Prod.fst

/-! ## Table MER-5 -/

/-- An entry's ACTION, reserved and fixed fields (check 4). -/
def entryOk (e : Entry) : Bool :=
  let rest := e.link == 0 && e.vc == 0 && e.units == 0 && e.chunk == 0 && e.arg0 == 0 && e.mask == 0 && e.arg1 == 0 &&
    e.desc == 0 && !e.first && !e.last
  !e.resv && (e.action == Act.MCAST || e.mask == 0) &&
    (match e.action with
     | 0 => rest
     | 2 => e.link == 0x3F && e.units == 0
     | 4 => e.link == 0x3F
     | 15 => rest && e.offset == 0 && e.count == 0
     | a => decide (a ≤ 8))

def Ctl.check4 (s : Ctl) (n k : Nat) : Option Nat :=
  match s.endOf n k with
  | none => some 16383
  | some e => badEntry (s.table n k ++ [(e, s.entry n k e)]) (fun e => !entryOk e)

def check5 (period : Nat) (l : List (Nat × Entry)) : Option Nat :=
  ((List.zip l (0 :: l.map (fun e => e.2.offset))).find? (fun x =>
    decide (x.1.2.offset < x.2) || decide (period < x.1.2.offset + x.1.2.count) || x.1.2.count == 0)).map (fun x => x.1.1)

/-- Links that an entry's VC and reservation concern. -/
def Entry.links (e : Entry) : List Nat := if e.action = Act.MCAST then bitsOf 48 e.mask else [e.link]
def Entry.sends (e : Entry) : Bool := e.action = Act.ACCEPT || e.action = Act.SEND || e.action = Act.MCAST

def Ctl.isRing (s : Ctl) (d k l : Nat) : Bool := nbit (s.linkEntry d k l) 1

def Ctl.check6 (s : Ctl) (d k use : Nat) (l : List (Nat × Entry)) : Option Nat :=
  badEntry l (fun e => e.sends && (e.links.any (fun i => decide (48 ≤ i) || !nbit use i) || !schedVc e.vc ||
    (e.vc != 2 && e.links.any (fun i => !s.isRing d k i))))

/-- FIRST and LAST alternate: the open descriptors with the index of their FIRST entry. -/
def check7 : List (Nat × Entry) → List (Nat × Nat) → Option Nat
  | [], opn => match opn.map Prod.snd with
    | [] => none
    | x :: t => some (listMin x t)
  | (i, e) :: t, opn =>
    if e.first && opn.any (fun o => o.1 = e.desc) then some i
    else
      let opn := if e.first then opn ++ [(e.desc, i)] else opn
      if e.last && !opn.any (fun o => o.1 = e.desc) then some i
      else check7 t (if e.last then opn.filter (fun o => o.1 != e.desc) else opn)

def isSwap (e : Entry) : Bool := e.action = Act.SWAP
def isStep (e : Entry) : Bool := e.action = Act.MARK && nbit e.arg0 31

/-- Check 8 over all slices of the bank. -/
def check8 (kind : Nat) (ts : List (Nat × List (Nat × Entry))) : BadAt :=
  let idle := if kind = 0 then ts.findSome? (fun t => t.2.head?.map (fun e => (t.1, e.1))) else none
  let common (p : Entry → Bool) (o : Nat) : Bool := ts.all (fun t => t.2.any (fun e => p e.2 && e.2.offset = o))
  match idle with
  | some x => some x
  | none => ts.findSome? (fun t => (badEntry t.2 (fun e =>
      (isSwap e && !common isSwap e.offset) || (isStep e && !common isStep e.offset))).map (fun i => (t.1, i)))

/-- The entries active in a slot of the period. -/
def activeAt (l : List (Nat × Entry)) (o : Nat) : List (Nat × Entry) :=
  l.filter (fun e => decide (e.2.offset ≤ o) && decide (o < e.2.offset + e.2.count))

/-- The entry at which a running sum first exceeds a limit. -/
def firstOver (lim : Nat) : List (Nat × Nat) → Nat → Option Nat
  | [], _ => none
  | (i, v) :: t, acc => if lim < acc + v then some i else firstOver lim t (acc + v)

/-- The least of the failures found. -/
def leastOf (l : List (Option Nat)) : Option Nat :=
  match l.filterMap id with
  | [] => none
  | x :: t => some (listMin x t)

/-- Offsets of a table, rising and without repeats: every sum over active entries rises only there. -/
def offsetsOf (l : List (Nat × Entry)) : List Nat := (l.map (fun e => e.2.offset)).eraseDups

def check9 (l : List (Nat × Entry)) : Option Nat :=
  (offsetsOf l).findSome? (fun o =>
    let act := activeAt l o
    leastOf [firstOver 64 ((l.filter (fun e => e.2.offset = o)).map (fun e => (e.1, 1))) 0,
             firstOver 128 (act.map (fun e => (e.1, 1))) 0,
             firstOver 1 ((act.filter (fun e => e.2.action = Act.SUM)).map (fun e => (e.1, 1))) 0])

/-- Insert a slot into a rising list without repeats. -/
def insNat (x : Nat) : List Nat → List Nat
  | [] => [x]
  | y :: t => if x < y then x :: y :: t else if x = y then y :: t else y :: insNat x t

/-- The entry of some slice at which the units of a link and direction exceed a limit. -/
def overUnits (lim : Nat) : List (Nat × Nat × Nat) → Nat → BadAt
  | [], _ => none
  | (n, i, v) :: t, acc => if lim < acc + v then some (n, i) else overUnits lim t (acc + v)

def Ctl.check10 (s : Ctl) (d : Nat) (ts : List (Nat × List (Nat × Entry))) : BadAt :=
  let offs := (ts.flatMap (fun t => offsetsOf t.2)).foldl (fun a o => insNat o a) []
  offs.findSome? (fun o =>
    (List.range 48).findSome? (fun l =>
      [false, true].findSome? (fun out =>
        let items := ts.flatMap (fun t => ((activeAt t.2 o).filter (fun e =>
          e.2.sends && (out == (e.2.action != Act.ACCEPT)) && e.2.links.contains l)).map (fun e => (t.1, e.1, e.2.units)))
        overUnits (if out then s.rd (DOM_RESV.OUT_UNITS d l) else s.rd (DOM_RESV.IN_UNITS d l)) items 0)))

/-- The entry uses its DESC field. -/
def Entry.usesDesc (e : Entry) : Bool := [1, 2, 3, 4].contains e.action || e.first || e.last

/-- FIRST and LAST entries of a table as intervals: descriptor, first slot, end, index of FIRST. -/
def openSpans : List (Nat × Entry) → List (Nat × Nat × Nat) → List (Nat × Nat × Nat × Nat)
  | [], _ => []
  | (i, e) :: t, opn =>
    let opn := if e.first then opn ++ [(e.desc, e.offset, i)] else opn
    if e.last then
      ((opn.filter (fun o => o.1 = e.desc)).map (fun o => (e.desc, o.2.1, e.offset + e.count, o.2.2))) ++
        openSpans t (opn.filter (fun o => o.1 != e.desc))
    else openSpans t opn

def Ctl.check11 (s : Ctl) (n : Nat) (l : List (Nat × Entry)) : Option Nat :=
  let lim := s.schedLimit n
  let sp := openSpans l []
  leastOf [badEntry l (fun e => e.usesDesc && decide (lim ≤ e.desc)),
    (offsetsOf l).findSome? (fun o =>
      firstOver lim ((sp.filter (fun x => decide (x.2.1 ≤ o) && decide (o < x.2.2.1))).map (fun x => (x.2.2.2, 1))) 0)]

/-! ## Table SWX-4 -/

def devTableAddr (d k : Nat) : Nat := 0x0500_0000 + d * 0x2_0000 + k * 0x1_0000

/-- The device-table entries that differ from 0. -/
def Ctl.devEntries (s : Ctl) (d k : Nat) : List (Nat × Nat) :=
  let a := devTableAddr d k
  (s.listed a (a + 0x8000)).map (fun e => ((e.1 - a) / 8, e.2.toNat))

/-- Object index of a link-table entry in the routing table, whose device table comes first (log entry
105). -/
def linkObject (l : Nat) : Nat := 4096 + l

def Ctl.check12 (s : Ctl) (d k : Nat) : BadAt :=
  let dev := (s.devEntries d k).find? (fun e =>
    let w := e.2
    nfld w 6 2 != 0 || nfld w 15 49 != 0 || (nbit w 14 && (e.1 == s.devNum || nfld w 0 6 == 0x3F || nfld w 0 6 == nfld w 8 6)))
  match dev with
  | some e => some (0, e.1)
  | none => ((List.range 48).find? (fun l =>
      let w := s.linkEntry d k l
      nfld w 5 3 != 0 || nfld w 29 35 != 0)).map (fun l => (0, linkObject l))

def Ctl.usedLink (s : Ctl) (d k l : Nat) : Bool := decide (l < 48) && nbit (s.linkEntry d k l) 0

def Ctl.check13 (s : Ctl) (d k : Nat) : BadAt :=
  ((s.devEntries d k).find? (fun e =>
    [nfld e.2 0 6, nfld e.2 8 6].any (fun l => l != 0x3F && !s.usedLink d k l))).map (fun e => (0, e.1))

def Ctl.check14 (s : Ctl) (d k use : Nat) : BadAt :=
  ((List.range 48).find? (fun l =>
    let w := s.linkEntry d k l
    (nbit w 0 != nbit use l) || (nbit w 1 && (!nbit w 0 || s.rd (LNK_CTRL.ROLE l) != 3)) || (!nbit w 1 && nfld w 2 3 != 0))).map
    (fun l => (0, linkObject l))

/-! ## Table COL-3 -/

/-- The templates that a table's FIRST entries name, rising. -/
def namedBy (l : List (Nat × Entry)) : List Nat :=
  ((l.filter (fun e => e.2.first)).map (fun e => e.2.desc)).foldl (fun a o => insNat o a) []

/-- Check 15: the fields of the templates; an unused address field is not checked (R453). -/
def Ctl.check15 (s : Ctl) (d n k : Nat) (l : List (Nat × Entry)) : Option Nat :=
  (namedBy l).find? (fun i => !s.descFieldsOk d k false (s.template n k i))

/-- Working areas of templates open together do not overlap and lie below DYN_BASE. -/
def Ctl.check16 (s : Ctl) (n k : Nat) (l : List (Nat × Entry)) : Option Nat :=
  let sp := openSpans l []
  (namedBy l).find? (fun i =>
    let a := (s.template n k i).area
    decide (dynBase s n < a.2) ||
      (sp.filter (fun x => x.1 = i)).any (fun x => sp.any (fun y =>
        decide (y.1 < i) && decide (x.2.1 < y.2.2.1) && decide (y.2.1 < x.2.2.1) && rangesOverlap a (s.template n k y.1).area)))

def Ctl.check17 (s : Ctl) (d n k : Nat) (l : List (Nat × Entry)) : Option Nat :=
  (namedBy l).find? (fun i => !nbit (s.rdWord (groupAddr d (s.template n k i).group)) 0)

/-! ## Table PST-9 -/

def Ctl.check18 (s : Ctl) (d k : Nat) : BadAt :=
  match (List.range 4).find? (fun v =>
      let f := s.outFmt d k v
      f.resv || (f.valid && (decide (4 < f.fmt) || (f.fmt == 0 && f.stoch) || (decide (f.fmt ≤ 2) && (f.scaled || f.ovfNan))))) with
  | some v => some (0, v)
  | none => ((List.range 48).find? (fun l =>
      s.usedLink d k l && s.rd (LNK_CTRL.ROLE l) == 1 && !(s.outFmt d k (s.linkVariant d k l)).valid)).map (fun l => (0, l))

def Ctl.check19 (s : Ctl) (d n k : Nat) (l : List (Nat × Entry)) : Option Nat :=
  (namedBy l).find? (fun i => (s.template n k i).inStore && s.storeOff d)

/-- Tensors that a range of global chunks meets. -/
def Ctl.tensorsIn (s : Ctl) (d g0 n : Nat) : List Tensor :=
  let ce := s.ce d
  ((s.tensors d).map Prod.snd).filter (fun t => decide (t.first ce < g0 + n) && decide (g0 < t.first ce + t.chunks ce))

/-- Check 20 on one template. -/
def Ctl.storeGeometryOk (s : Ctl) (d : Nat) (t : Desc) : Bool :=
  let ce := s.ce d
  let geom := t.ce == ce && t.ringN == s.ringN d && t.ringPos == s.ringPos d
  let first (a : Nat) : Nat := winOff a / (4 * max 1 ce)
  let owned (a o : Nat) : Bool := (s.tensorsIn d (first a) t.chunks).all (fun x => x.owner == o)
  let striped (a : Nat) : Bool := first a % max 1 t.ringN == 0 && owned a 0xFFF
  (!(t.usesDst && winOf t.dst == 2) ||
      ((t.kind == 1 || t.kind == 4) && t.norm && geom && (if t.kind = 1 then striped t.dst else owned t.dst t.rootPos))) &&
    (!(t.usesSrc && decide (winOf t.src < 2)) ||
      (match t.kind with
       | 2 => geom && striped t.src
       | 5 => geom && owned t.src t.rootPos
       | 6 => t.ce == ce && owned t.src (s.ringPos d)
       | _ => false)) &&
    (!(t.used.any (fun a => winOf a == 3)) || (t.kind == 3 && !t.edge))

def Ctl.check20 (s : Ctl) (d n k : Nat) (l : List (Nat × Entry)) : Option Nat :=
  (namedBy l).find? (fun i => !s.storeGeometryOk d (s.template n k i))

/-- A binding of the bank, on some slice of the domain. -/
def Ctl.check21 (s : Ctl) (d k : Nat) : BadAt :=
  ((s.tensors d).find? (fun t =>
    decide (t.2.prog < 0xFFF0) && !(s.slicesOf d).any (fun n => (s.binding n k t.2.prog).valid))).map (fun t => (0, t.1))

/-! ## Table SLC-11 -/

def bindingOk (b : Binding) : Bool :=
  !b.resv && (!b.valid || (decide (b.entry < regionLen b.stream) &&
    (if b.stream = 1 then decide (1 ≤ b.groups ∧ b.groups ≤ 64) else b.groups == 0)))

/-- The listed bindings of an image: those that differ from 0. -/
def Ctl.bindings (s : Ctl) (n k : Nat) : List Nat :=
  let a := bindingAddr n k 0
  ((s.listed a (a + 0x4000)).map (fun e => (e.1 - a) / 16)).eraseDups

def Ctl.check22 (s : Ctl) (n k : Nat) : Option Nat := (s.bindings n k).find? (fun i => !bindingOk (s.binding n k i))

def Ctl.check23 (s : Ctl) (n k : Nat) (l : List (Nat × Entry)) : Option Nat :=
  badEntry l (fun e =>
    let st := e.arg0 % 4
    let i := e.arg0 / 65536
    if e.action = Act.RUN then
      nfld e.arg0 2 14 != 0 ||
        (if i = 0xFFFF then st != 1 else !((s.binding n k i).valid && (s.binding n k i).stream == st))
    else if e.action = Act.SYNC then decide (64 ≤ e.arg0 % 256) || decide (256 ≤ e.arg0)
    else false)

/-- A word of a region: a defined opcode with no stray operand bit, its direct targets in the region. -/
def instrOk (t pc w : Nat) : Bool :=
  match operands t (w % 256) with
  | none => false
  | some fs =>
    let target : Int := pc + sext 32 (nfld w 32 32)
    !strayBits w fs &&
      (if t = 2 ∧ ((0x32 ≤ w % 256 ∧ w % 256 ≤ 0x37) ∨ w % 256 = 0x38) then decide (0 ≤ target ∧ target < regionLen t)
       else if w % 256 = 0x0A then decide (1 ≤ nfld w 22 10 ∧ pc + nfld w 22 10 < regionLen t)
       else true)

/-- Check 24 by the byte offset / 8 of the failing word in its image. -/
def Ctl.check24 (s : Ctl) (n k : Nat) : Option Nat :=
  let a := imageAddr n k
  [2, 1, 0, 3].findSome? (fun t =>
    ((s.listed (a + regionBase t) (a + regionBase t + 8 * regionLen t)).find? (fun e =>
      !instrOk t ((e.1 - a - regionBase t) / 8) e.2.toNat)).map (fun e => (e.1 - a) / 8))

/-! ## Table MEM-4 -/

/-- Chunks of a template that this position reads (`src`) or places by the operation's geometry. -/
def Desc.mine (t : Desc) (src : Bool) : List Nat :=
  let byOwner := t.kind = 2 ∨ (t.kind = 1 ∧ !src)
  let byRoot := t.kind = 5 ∨ (t.kind = 4 ∧ !src)
  if byOwner then (List.range t.chunks).filter (fun c => c % max 1 t.ringN = t.ringPos)
  else if byRoot then (if t.rootPos = t.ringPos then List.range t.chunks else [])
  else List.range t.chunks

/-- Check 25 on one used address. -/
def Ctl.rangeOk (s : Ctl) (d : Nat) (t : Desc) (a : Nat) (src : Bool) : Bool :=
  let w := winOf a
  let es := if w < 8 ∨ !src ∨ t.inFmt = 0 then 4 else 2
  let size := t.chunks * t.ce * es
  let o := winOff a
  decide (o + size ≤ 2 ^ 52) &&
    (match w with
     | 8 => decide (o + size + s.dataBase d ≤ s.rd (MEM_DOM_SHARD.SIZE_GIB d) * 2 ^ 30)
     | 9 => decide (o + size ≤ s.rd (MEM_DOM_PROG.SCRATCH_MIB d) * 2 ^ 20)
     | 3 => decide (o + size ≤ 65536) || (decide (0x1_0000_0000 ≤ o) && decide (o + size ≤ 0x1_0001_0000))
     | _ =>
       (if src then [0, 1, 4, 5, 6, 7].contains w else w == 2) &&
         (decide (w < 4) || decide (w - 4 < s.rd (PST_LAYOUT.STATE_WORDS d))) &&
         (t.mine src).all (fun c =>
           let p := o / 4 + c * t.ce
           let ce := max 1 (s.ce d)
           (List.range (cdiv (p % ce + t.ce) ce)).all (fun j => (s.ownedChunk d (p / ce + j)).isSome)))

def Ctl.check25 (s : Ctl) (d n k : Nat) (l : List (Nat × Entry)) : Option Nat :=
  (namedBy l).find? (fun i =>
    let t := s.template n k i
    (t.usesSrc && !s.rangeOk d t t.src true) || (t.usesDst && !s.rangeOk d t t.dst false))

def Ctl.check26 (s : Ctl) (n k : Nat) (l : List (Nat × Entry)) : Option Nat :=
  (namedBy l).find? (fun i => decide ((s.template n k i).stageOff < s.progArea n))

def check27 (l : List (Nat × Entry)) : Option Nat :=
  (offsetsOf l).findSome? (fun o =>
    firstOver 640 (((activeAt l o).filter (fun e => e.2.action = Act.SEND || e.2.action = Act.MCAST)).map (fun e => (e.1, e.2.units))) 0)

/-! ## BANK_CHECK (R48) -/

/-- The outcome of a BANK_CHECK: status, order number, slice and index. -/
structure BankRes where
  status : Nat := 0
  order : Nat := 0
  slice : Nat := 0
  idx : Nat := 0
deriving DecidableEq, Repr

/-- The first failing check of a list. -/
def firstFail : List (Nat × Nat × BadAt) → BankRes
  | [] => {}
  | (o, st, none) :: t => let _ := (o, st); firstFail t
  | (o, st, some (n, i)) :: _ => { status := st, order := o, slice := n, idx := i }

/-- Every check from 3 on, in order. -/
def Ctl.bankChecks (s : Ctl) (d k : Nat) (h : BankHdr) : BankRes :=
  let ns := s.slicesOf d
  let ts := ns.map (fun n => (n, s.table n k))
  let per (f : Nat → List (Nat × Entry) → Option Nat) : BadAt := ts.findSome? (fun t => (f t.1 t.2).map (fun i => (t.1, i)))
  firstFail
    [(3, St.DENIED, if h.linkUse &&& s.rd (DOM_LINKS.LINKS d) = h.linkUse then none else some (0, 0)),
     (4, St.BAD_PARAM, firstIn ns (fun n => s.check4 n k)),
     (5, St.BAD_PARAM, per (fun _ l => check5 h.period l)),
     (6, St.BAD_PARAM, per (fun _ l => s.check6 d k h.linkUse l)),
     (7, St.BAD_PARAM, per (fun _ l => check7 l [])),
     (8, St.BAD_PARAM, check8 h.kind ts),
     (9, St.OVERSUBSCRIBED, per (fun _ l => check9 l)),
     (10, St.OVERSUBSCRIBED, s.check10 d ts),
     (11, St.OVERSUBSCRIBED, per (fun n l => s.check11 n l)),
     (12, St.BAD_PARAM, s.check12 d k),
     (13, St.DENIED, s.check13 d k),
     (14, St.BAD_PARAM, s.check14 d k h.linkUse),
     (15, St.BAD_PARAM, per (fun n l => s.check15 d n k l)),
     (16, St.OVERSUBSCRIBED, per (fun n l => s.check16 n k l)),
     (17, St.DENIED, per (fun n l => s.check17 d n k l)),
     (18, St.BAD_PARAM, s.check18 d k),
     (19, St.DENIED, per (fun n l => s.check19 d n k l)),
     (20, St.BAD_PARAM, per (fun n l => s.check20 d n k l)),
     (21, St.BAD_PARAM, s.check21 d k),
     (22, St.BAD_PARAM, firstIn ns (fun n => s.check22 n k)),
     (23, St.BAD_PARAM, per (fun n l => s.check23 n k l)),
     (24, St.BAD_PARAM, firstIn ns (fun n => s.check24 n k)),
     (25, St.BAD_PARAM, per (fun n l => s.check25 d n k l)),
     (26, St.BAD_PARAM, per (fun n l => s.check26 n k l)),
     (27, St.OVERSUBSCRIBED, per (fun _ l => check27 l))]

/-- BANK_CHECK of a bank whose checking this command is: the two refusals before check 1, check 2, and
the rest; on success the header is kept and VALID is set. -/
def Ctl.bankCheck (s : Ctl) (d k : Nat) (h : BankHdr) (wide : Bool) : BankRes × Ctl :=
  if !s.created d then ({ status := St.DENIED }, s)
  else if h.period = 0 ∨ wide then ({ status := St.BAD_PARAM }, s)
  else if s.liveBank d = k ∨ s.armed d ∨ s.draining d k then ({ status := St.BUSY, order := 2 }, s)
  else
    let r := s.bankChecks d k h
    if r.status ≠ St.OK then (r, s) else (r, (s.setBank d k h).setBankValid d k true)

end Sys2Proof.Machine
end

