-- ==== Sys2Proof/Machine/Update.lean ====
section
/-!
DEFINITION. The update dispatcher of a slice (R193-R195, R201, R202), the mirror stream it feeds
(R327, R329), the step fingerprint (R374), and what a domain's store does at a slot boundary: commit,
PENDING, failure and pause (R206-R208).
-/

namespace Sys2Proof.Machine

/-! ## The mirror stream (R327) -/

/-- This device is the source of a re-silver that has read record `k` of the domain. -/
def Ctl.silverRead (s : Ctl) (d k : Nat) : Bool :=
  s.tw.silver.any (fun x => x.d = d && x.source && decide (k < x.rec_))

/-- Updates of a slice's records go to the twin as mirror writes. -/
def Ctl.mirrors (s : Ctl) (n d k : Nat) : Bool :=
  s.twinOn && (s.twinState n = Tws.PRIMARY || (s.twinState n = Tws.SOLO && s.silverRead d k))

/-- A mirror write: the 16-byte header and what follows it. -/
def Ctl.sendMirror (s : Ctl) (n d kind off w1 : Nat) (ack : Bool) (bs : List Byte) : Ctl :=
  s.issue n { typ := Typ.WRITE, vc := 7, ackReq := ack, dstDev := s.rd TWN_STATUS.TWIN_DEV, dstPort := 64 + n, domain := d,
              stream := 0xFFFC, addr := mirrorAddr, isFirst := true, isLast := true,
              payload := toBytes 8 (off + kind <<< 48) ++ toBytes 8 w1 ++ bs }

/-- Record bytes in packets of at most 8,176 bytes. -/
def Ctl.sendMirrorBytes (s : Ctl) (n d off : Nat) (bs : List Byte) : Ctl :=
  (List.range (cdiv bs.length 8176)).foldl (fun s i =>
    s.sendMirror n d 1 (off + i * 8176) 0 false ((bs.drop (i * 8176)).take 8176)) s

/-- A record's chunk state, after its bytes: STAMP, PREV and CUR (log entry 41). -/
def Ctl.sendMirrorState (s : Ctl) (n d k : Nat) : Ctl :=
  let x := s.chunkSt d k
  s.sendMirror n d 2 (k * s.recBytes d) k true (toBytes 4 x.stamp ++ toBytes 4 x.prev ++ toBytes 8 (b2n x.cur))

def Ctl.unackedOf (s : Ctl) (n : Nat) : List Nat := tblGet (fun _ => []) s.tw.unacked n
def Ctl.setUnacked (s : Ctl) (n : Nat) (l : List Nat) : Ctl :=
  { s with tw := { s.tw with unacked := tblPut (fun _ => []) s.tw.unacked n l } }

/-- The writes of a record's update: the copies it wrote, then the chunk state. -/
def Dev.mirrorUpdate (dv : Dev) (n d k : Nat) : Dev :=
  if !dv.ctl.mirrors n d k then dv
  else
    let s := dv.ctl
    let cur := (s.chunkSt d k).cur
    let base := (s.shardRange d).1
    let part (s : Ctl) (o len : Nat) : Ctl := s.sendMirrorBytes n d o (dv.ram.dramBytes (base + o) len)
    let s := part s (k * s.recBytes d + s.wOff d cur) (4 * s.ce d)
    let s := (List.range (s.rd (PST_LAYOUT.STATE_WORDS d))).foldl (fun s j =>
      part s (k * s.recBytes d + s.sOff d j cur) (s.sBytes d * s.ce d)) s
    let s := s.sendMirrorState n d k
    { dv with ctl := s.setUnacked n (s.unackedOf n ++ [k]) }

/-- The slice that speaks for a domain: its lowest-numbered one on the device. -/
def Ctl.firstSlice (s : Ctl) (d : Nat) : Option Nat := (s.slicesOf d).head?

/-! ## A record's update ends (R195, R320, R374) -/

/-- The UPDATE signature of a record whose new copies are written and not yet current (R321). -/
def Dev.updateSig (dv : Dev) (d k : Nat) : Nat :=
  let s := dv.ctl
  let cur := (s.chunkSt d k).cur
  let base := s.recBase d k
  let w := dv.ram.dramBytes (base + s.wOff d (!cur)) (4 * s.ce d)
  let st := (List.range (s.rd (PST_LAYOUT.STATE_WORDS d))).flatMap (fun j =>
    dv.ram.dramBytes (base + s.sOff d j (!cur)) (s.sBytes d * s.ce d))
  crc64 (toBytes 4 k ++ toBytes 4 (s.stepNo d) ++ w ++ st)

/-- The chunk state advances, the gradient slot is free, the fingerprint takes the signature, and the
mirror stream the writes. -/
def Dev.advanceChunk (dv : Dev) (n d : Nat) (c : ChunkId) (sig : Nat) : Dev :=
  let dv := dv.onCtl (fun s =>
    let s := if s.bit (TWN_MODE.ACTING d) then s.modPst d (fun p => { p with fp := p.fp ^^^ sig }) else s
    (s.advance d c).freeGrad d c.k)
  dv.mirrorUpdate n d c.k

/-- A COMPARED slice holds the update for its twin's record (R320); `from_` is the slot in which it
began. -/
def Ctl.holdUpdate (s : Ctl) (n d : Nat) (c : ChunkId) (sig from_ : Nat) : Ctl :=
  let ck := s.checksFired n from_
  let h : HeldObj := { n := n, d := d, update := true, job := c, step := s.stepNo d % 2 ^ 32, sig := sig, checks := ck,
                       since := s.slots, firstMer := from_ }
  let s := ({ s with held := s.held ++ [h] }).heldRefresh n
  s.sendSliceRec n { kind := 3, checks := ck, value := sig, local_ := c.k, step := h.step }

/-- The new copies of a record are written. -/
def Dev.updateDone (dv : Dev) (n d : Nat) (c : ChunkId) (from_ : Nat) : Dev :=
  let sig := dv.updateSig d c.k
  if dv.ctl.compared n then dv.onCtl (fun s => s.holdUpdate n d c sig from_) else dv.advanceChunk n d c sig

/-! ## Taking chunks (R194, R201, R202) -/

/-- ORTHO's code (Table PST-6), and whether a tensor's program runs once for the whole tensor. -/
def progOrtho : Nat := 0xFFF4
def Tensor.wholeCall (x : Tensor) : Bool := x.prog = progOrtho || (decide (x.prog < 0xFFF0) && !x.striped && x.rows != 0)

/-- Write the update context of Table PST-7 for a user's program. -/
def Ctl.writeContext (s : Ctl) (n d : Nat) (c : ChunkId) (whole : Bool) : Ctl :=
  let x := s.tensor d c.t
  let cur := (s.chunkSt d c.k).cur
  let ce := s.ce d
  let o := ctxRecords + c.k * s.recBytes d
  let stride := s.sBytes d * ce * s.sCopies d
  let flags := b2n whole + 2 * s.rd (PST_LAYOUT.STATE_FMT d) + 4 * b2n x.decay
  let ctx :=
    toBytes 8 (2 * 2 ^ 52 + c.g * ce * 4) ++ toBytes 8 (o + s.wOff d cur) ++ toBytes 8 (o + s.wOff d (!cur))
    ++ toBytes 8 (o + s.sOff d 0 cur) ++ toBytes 8 (o + s.sOff d 0 (!cur)) ++ toBytes 4 stride ++ toBytes 4 c.t
    ++ toBytes 8 ((c.g - x.first ce) * ce) ++ toBytes 4 (if whole then x.len else s.liveElems d c)
    ++ toBytes 4 (if whole then x.chunks ce else 1)
    ++ toBytes 4 ((tblGet (fun _ => none) (s.pstOf d).acc.factors c.t).getD 0) ++ toBytes 4 (s.stepNo d)
    ++ toBytes 8 (ctxHsets + x.hset * 64) ++ toBytes 8 (9 * 2 ^ 52 + s.rd (MEM_DOM_PROG.SCRATCH_MIB d) <<< 40)
    ++ toBytes 4 flags ++ toBytes 4 0
  s.setDmem n 0x3_FF80 (fitBytes 128 ctx)

/-- Start the update of the first chunk of the queue, where one may start. -/
def Ctl.startJob (s : Ctl) (n d : Nat) (c : ChunkId) : Ctl :=
  let u := s.updOf n
  let x := s.tensor d c.t
  let whole := x.wholeCall
  let cs := if whole then s.ownedOf d c.t else [c]
  let r : RunUpd := { d := d, job := cs.headD c, chunks := cs, since := s.slots, user := decide (x.prog < 0xFFF0) }
  let foreign := cs.find? (fun y => !u.queue.contains y)
  match (if whole then foreign else none) with
  | some y =>
    let s := s.setUpd n { u with queue := u.queue.filter (fun z => z.t != c.t) }
    s.updateFault n { r with job := y }
  | none =>
    let s1 := s.setUpd n { u with queue := u.queue.filter (fun z => !cs.contains z), running := some r }
    if r.user then
      let s1 := s1.writeContext n d r.job whole
      let (ok, s1) := s1.enqueueStart n 2 { binding := x.prog, bank := s.liveBank d, upd := true }
      if ok then s1 else s
    else s1

/-- Chunks at the head of the queue that already carry the step number leave without running. -/
def Ctl.skipStamped (s : Ctl) (n d : Nat) : Nat → Ctl
  | 0 => s
  | k + 1 =>
    let u := s.updOf n
    match u.queue with
    | [] => s
    | c :: q =>
      if (s.chunkSt d c.k).stamp = s.stepNo d % 2 ^ 32 then
        Ctl.skipStamped ((s.setUpd n { u with queue := q }).freeGrad d c.k) n d k
      else s

/-- Under an active UPDATE entry the slice takes the next chunk; a primary waits while the mirror
writes of more than one earlier chunk are unacknowledged (R327), and a failed step only finishes the
chunks already started (R206). -/
def Ctl.startUpdate (s : Ctl) (n : Nat) : Ctl :=
  let u := s.updOf n
  if !u.active || u.running.isSome || !s.sliceOn n || s.storeState (s.domOf n) == 4 then s
  else
    let d := s.domOf n
    let s := s.skipStamped n d u.queue.length
    if s.twinState n = Tws.PRIMARY ∧ 1 < (s.unackedOf n).length then s
    else
      match (s.updOf n).queue with
      | [] => s
      | c :: _ => s.startJob n d c

/-- The user's program has written 1 to DONE. -/
def Ctl.ctxDone (s : Ctl) (n : Nat) : Bool :=
  ((List.range 4).map (fun i => (s.dmemByte n (0x3_FFDC + i)).toNat)) == [1, 0, 0, 0]

/-- An update program ends: the chunk's new copies are written, and the next chunk is taken. -/
def Dev.updateComplete (dv : Dev) (n : Nat) : Dev :=
  match (dv.ctl.updOf n).running with
  | none => dv
  | some r =>
    if r.user && !dv.ctl.ctxDone n then dv
    else
      let from_ := dv.ctl.now - (dv.ctl.slots - r.since)
      let (ok, dv1) :=
        if r.user then (true, dv)
        else if (dv.ctl.tensor r.d r.job.t).prog = progOrtho then dv.runOrtho r.d r.job.t r.chunks
        else dv.runChunk r.d r.job
      if !ok then dv1.onCtl (fun s => (s.updateFault n r).startUpdate n)
      else
        let dv := dv1.onCtl (fun s => s.setUpd n { s.updOf n with running := none })
        let dv := r.chunks.foldl (fun dv c => dv.updateDone n r.d c from_) dv
        dv.onCtl (fun s => s.startUpdate n)

/-- UPDATE_COMPLETE (R194, R195). -/
def execUpdateComplete (n : Fin 64) (s : State) : Host.Outcome State Fault Refusal :=
  s.devNext (fun d => d.updateComplete n.val)

/-- UPDATE_TIMEOUT (R194): a program still running 65,536 slots after its chunk started. -/
def Ctl.updateTimeout (s : Ctl) (n : Nat) : Ctl :=
  match (s.updOf n).running with
  | none => s
  | some r =>
    if s.elapsed r.since 65536 then
      let s := if r.user then s.fenceStream n 2 else s
      (s.updateFault n r).startUpdate n
    else s

/-- UPDATE_TIMEOUT (R194). -/
def execUpdateTimeout (n : Fin 64) (s : State) : Host.Outcome State Fault Refusal :=
  s.ctlNext (fun c => c.updateTimeout n.val)

/-! ## Steps at a slot boundary (R206-R208, R374) -/

/-- Latch the fingerprint of the step that commits, and clear its accumulator. -/
def Ctl.latchFp (s : Ctl) (d : Nat) : Ctl :=
  let act := s.bit (TWN_MODE.ACTING d)
  let s := if act then s.wrWord (DOM_STEP_FP.addr d) (s.pstOf d).fp else s
  let s := if act then s.wr (DOM_STEP_FP_INFO.STEP d) (s.stepNo d) else s
  (s.wrB (DOM_STEP_FP_INFO.VALID d) act).clearFp d

/-- A primary commits once the standby has acknowledged every mirror write of the step (R327). -/
def Ctl.mirrorAcked (s : Ctl) (d : Nat) : Bool :=
  (s.slicesOf d).all (fun n => s.twinState n != Tws.PRIMARY || !s.twinOn || (s.unackedOf n).isEmpty)

/-- Commit, with the fingerprint and the mirror stream's record of it; an operation of the new step that
was already abandoned fails it. -/
def Ctl.commitStep (s : Ctl) (d : Nat) : Ctl :=
  let k := s.stepNo d
  let s := (s.latchFp d).stepCommit d
  let s := match s.firstSlice d with
    | some n => if s.twinOn && (s.twinState n = Tws.PRIMARY || s.silverRead d 0) then s.sendMirror n d 3 0 k true [] else s
    | none => s
  if (s.pstOf d).acc.lost then s.stepFail d Fail.ABANDONED else s

/-- Evaluation of a domain's step at a slot boundary; `mark` where it is a step boundary. -/
def Ctl.stepEdge (s : Ctl) (d : Nat) (mark : Bool) : Ctl :=
  let ready := s.stepComplete d && s.mirrorAcked d
  let s := match s.storeState d with
    | 2 =>
      if !mark then s
      else if ready then s.commitStep d
      else (s.wr (PST_STATUS.STATE d) 3).raisePst Src.STEP_PENDING d
    | 3 => if ready then s.commitStep d else if mark then s.stepFail d Fail.LATE else s
    | _ => s
  let s := if s.storeState d = 4 then s.modPst d (fun p => { p with pauseNow := false })
    else if mark && (s.pstOf d).pauseDue then s.modPst d (fun p => { p with pauseNow := true })
    else s
  s.pauseEffect d

/-- The boundary's evaluation of a domain, with the step boundary that an entry of the slot has set. -/
def Ctl.stepBoundary (s : Ctl) (d : Nat) : Ctl :=
  let m := (s.domMer d).mark
  let s := if m then s.setDomMer d { s.domMer d with mark := false } else s
  if s.storeOff d then s else s.stepEdge d m

/-- PAUSE_EFFECT (R208): the evaluation of the boundary at which a pause that waits takes effect. -/
def execPauseEffect (d : Fin 64) (s : State) : Host.Outcome State Fault Refusal :=
  s.ctlNext (fun c =>
    if (c.pstOf d.val).pauseDue && ((c.domMer d.val).mark || (c.pstOf d.val).pauseNow) then c.stepBoundary d.val else c)

end Sys2Proof.Machine
end

