-- ==== Sys2Proof/Machine/Schedule.lean ====
section
/-!
DEFINITION. Arming and disarming a swap and the wake plan (R51-R55), the swap step (R57), and the
sequencers (R41-R45).
-/

namespace Sys2Proof.Machine

/-! ## The lead window (R52, R53) -/

/-- Links of the bank that an armed swap would have to wake. -/
def Ctl.wakeLinks (s : Ctl) (d k : Nat) : List Nat :=
  (bitsOf 48 (s.bank d k).linkUse).filter (fun l => s.linkState l = LanSt.IDLE)

/-- A link will have been in electrical idle longer than 31,250 slots at slot S. -/
def Ctl.idleLongAt (s : Ctl) (l S : Nat) : Bool := decide (31250 + s.now < s.slots - (s.link l).idleSince + S)

/-- Fast-exit lead L of a link: 1 + ⌈RTT / 320 ns⌉. -/
def Ctl.exitLead (s : Ctl) (l : Nat) : Nat := 1 + cdiv (s.rd (LNK_STATUS.RTT l)) 320

/-- S lies in the lead window for bank `k`. -/
def Ctl.leadOk (s : Ctl) (d k S : Nat) : Bool :=
  let ls := s.wakeLinks d k
  let lead := if ls.any (fun l => s.idleLongAt l S) then 6256
    else 1 + (if ls.isEmpty then 3 else listMax (ls.map s.exitLead))
  decide (s.now + lead ≤ S) && decide (S ≤ s.now + 2 ^ 31)

/-! ## Arming (R51, R54, R55) -/

/-- The refusal of an arming for slot S; a SWAP entry's takes no account of MER_PHASE_NEXT. A bank
whose routing still drains is not armed (R25, R50). -/
def Ctl.armCheck (s : Ctl) (d S : Nat) (entry : Bool) : Nat :=
  let k := 1 - s.liveBank d
  if s.armed d then St.BUSY
  else if (s.domMer d).checking = some k ∨ s.draining d k then St.BUSY
  else if !s.bankValid d k then St.DENIED
  else if !entry ∧ (s.bank d k).kind ≠ s.rd (MER_PHASE_NEXT.KIND d) then St.BAD_PARAM
  else if !s.leadOk d k S then St.BAD_PARAM
  else St.OK

def Ctl.swapStatus (s : Ctl) (d st : Nat) : Ctl := s.wr (MER_SWAP_STATUS.LAST_STATUS d) st

/-- Arm the swap for slot S. -/
def Ctl.arm (s : Ctl) (d S : Nat) : Ctl :=
  (s.wrB (MER_SWAP_STATUS.ARMED d) true).wr (MER_SWAP_AT.SLOT d) S

/-- A status for MER_SWAP_AT or MER_PHASE_NEXT of a write by route `rt`; a refused one is a NOTE. -/
def Ctl.swapReply (s : Ctl) (rt d a st : Nat) : Ctl :=
  let s := s.swapStatus d st
  if st = St.OK then s else s.logRefused rt a 8 st

/-- A write of MER_SWAP_AT: S ≠ 0 arms, 0 disarms. -/
def Ctl.swapAtWrite (s : Ctl) (rt d S : Nat) : Ctl :=
  let a := MER_SWAP_AT.addr d
  if s.bit (MER_SWAP_STATUS.WAKING d) then s.swapReply rt d a St.BUSY
  else if S = 0 then
    let s := if s.armed d then (s.wrB (MER_SWAP_STATUS.ARMED d) false).wr (MER_SWAP_AT.SLOT d) 0 else s
    s.swapReply rt d a St.OK
  else
    let st := s.armCheck d S false
    let s := if st = St.OK then s.arm d S else s
    s.swapReply rt d a st

/-- A write of MER_PHASE_NEXT. -/
def Ctl.phaseNextWrite (s : Ctl) (rt d v : Nat) : Ctl :=
  let a := MER_PHASE_NEXT.addr d
  if s.armed d then s.swapReply rt d a St.BUSY
  else (s.wr (MER_PHASE_NEXT.KIND d) v).swapReply rt d a St.OK

/-- Slot at which the next period of a domain's live bank begins. -/
def Ctl.nextPeriod (s : Ctl) (d : Nat) : Nat :=
  (s.domMer d).start + (s.periodNo d + 1) * max 1 (s.bank d (s.liveBank d)).period

/-- A SWAP entry in the present slot (R55). -/
def Ctl.swapEntry (s : Ctl) (d lead : Nat) : Ctl :=
  let S := s.now + lead
  let st := s.armCheck d S true
  let s' := s.swapStatus d st
  if st = St.OK then (s'.wr (MER_PHASE_NEXT.KIND d) (s.bank d (1 - s.liveBank d)).kind).arm d S
  else
    let s' := s'.setDomMer d { s'.domMer d with forcedFrom := some (s.nextPeriod d) }
    s'.raise Src.SWAP_INVALID { domain := some d } (s.rdWord MER_SYNC_STATUS.addr)

/-! ## The wake plan (R53, R54) -/

/-- What the start of the present slot begins of an armed swap's wake. -/
def Ctl.swapWake (s : Ctl) (d : Nat) : Ctl :=
  if !s.armed d then s
  else
    let S := s.rd (MER_SWAP_AT.SLOT d)
    let due := (s.wakeLinks d (1 - s.liveBank d)).filter (fun l =>
      if s.idleLongAt l S then decide (S ≤ s.now + 6251) else decide (S ≤ s.now + s.exitLead l))
    let s := if due.isEmpty && !decide (S ≤ s.now + 1) then s else s.wrB (MER_SWAP_STATUS.WAKING d) true
    due.foldl (fun s l => s.startWakeAs l (!s.idleLongAt l S)) s

/-- SWAP_WAKE_START (R53). -/
def execSwapWakeStart (d : Fin 64) (s : State) : Host.Outcome State Fault Refusal :=
  s.ctlNext (fun c => c.swapWake d.val)

/-! ## Ending an active entry -/

/-- An entry stops being active: an ACCEPT window closes, an UPDATE entry starts no more chunks, and
LAST leaves its operation to late traffic (R154). -/
def Ctl.endEntry (s : Ctl) (n : Nat) (a : ActiveEnt) : Ctl :=
  let e := s.entry n (s.liveBank (s.domOf n)) a.idx
  let k := opKey n e.desc
  let upto := s.slots - 1
  let mine (w : Nat × Nat × Option Nat) : Bool := w.1 = e.link && w.2.1 = e.chunk && w.2.2.isNone
  let close (w : Nat × Nat × Option Nat) : Nat × Nat × Option Nat := (w.1, w.2.1, some upto)
  let s := if e.action = Act.ACCEPT then s.modOp k (fun o => { o with windows := updWhere mine close o.windows })
    else if e.action = Act.RUN ∧ e.arg0 / 65536 = 0xFFFF then s.setUpd n { s.updOf n with active := false }
    else s
  if e.last && s.opOpen k && (s.opOf k).sched then s.modOp k (fun o => { o with late := true }) else s

/-- Every active entry of a slice ends. -/
def Ctl.dropActive (s : Ctl) (n : Nat) : Ctl :=
  let s := (s.seqOf n).active.foldl (fun s a => s.endEntry n a) s
  s.setSeq n { s.seqOf n with active := [] }

/-! ## The swap step (R57) -/

/-- At a swap every UP link takes its idle decision (R53). -/
def Ctl.idleDecisions (s : Ctl) : Ctl :=
  (List.range 48).foldl (fun s l =>
    if s.linkState l = LanSt.UP then
      let due := !s.linkInBanks l && !s.heldAwake l
      s.modLink l (fun k => { k with idleDue := due, partnerWoken := false })
    else s) s

/-- The swap step of a domain at the boundary into slot S. -/
def Ctl.phaseSwap (s : Ctl) (d S : Nat) : Ctl :=
  let old := s.liveBank d
  let ns := s.slicesOf d
  let s := ns.foldl Ctl.dropActive s
  let ks := ns.flatMap (fun n => (s.openOps n).filter (fun k => (s.opOf k).sched))
  let s := ks.foldl (fun s k => s.abandonOp k St.TIMEOUT false) s
  let s := if ks.isEmpty then s
    else s.raise Src.SWAP_ABANDON { domain := some d } (s.rdWord MER_SYNC_STATUS.addr) (min 255 ks.length)
  let s := s.wr (MER_SWAP_STATUS.ABANDONED d) (min 255 ks.length)
  let s := (s.wr (MER_PHASE.BANK d) (1 - old)).wr (MER_PHASE.KIND d) (s.bank d (1 - old)).kind
  let s := (s.inc (MER_PHASE.EPOCH d) 1).inc (MER_PHASE.SWAPS d) 1
  let s := (s.wrB (MER_PHASE.HELD d) false).wr (SWX_EPOCH.CUR d) (s.epoch d)
  let s := (s.wrB (MER_SWAP_STATUS.ARMED d) false).wrB (MER_SWAP_STATUS.WAKING d) false
  let s := (s.wr (MER_SWAP_AT.SLOT d) 0).wr (MER_SWAP_STATUS.LAST_SWAP d) S
  let s := s.setDomMer d { s.domMer d with start := S, ended := false, forcedFrom := none }
  let s := (s.wrB (SWX_EPOCH.DRAINING d) true).wr (SWX_EPOCH.DRAIN_BANK d) old
  let s := { s with sw := { s.sw with drainFrom := tblPut (fun _ => 0) s.sw.drainFrom d (s.slots + 1) } }
  let s := { s with tw := { s.tw with bare := s.tw.bare.filter (fun n => !ns.contains n) } }
  (s.drainRefresh d).idleDecisions

/-- A swap of the domain falls on the boundary that ends the present slot. -/
def Ctl.swapDue (s : Ctl) (d : Nat) : Bool :=
  s.armed d && s.mer.counting && decide (s.rd (MER_SWAP_AT.SLOT d) ≤ s.now + 1)

/-- PHASE_SWAP (R57): the swap step of the boundary that ends the present slot. -/
def execPhaseSwap (d : Fin 64) (s : State) : Host.Outcome State Fault Refusal :=
  s.ctlNext (fun c => if c.swapDue d.val then c.phaseSwap d.val (c.now + 1) else c)

/-! ## The sequencer (R41-R45, R55) -/

/-- The slice executes nothing now, whatever its entry: before alignment or after its loss (R38), in
FOLLOW or STANDBY (R326, R327), after a stop (R264), and in an orderly stop or the safe state. -/
def Ctl.idleNow (s : Ctl) (n : Nat) : Bool :=
  !s.aligned || s.twinState n = Tws.FOLLOW || s.twinState n = Tws.STANDBY || s.inSafe || s.flt.safeAt.isSome
    || (match (s.engOf n).idleFrom with | some t => decide (t ≤ s.slots) | none => false)
    || (match s.flt.orderlyAt with | some b => decide (b ≤ s.slots) | none => false)

/-- A domain's entries run as IDLE in the period that begins now (R55, R208). -/
def Ctl.idlePeriod (s : Ctl) (d : Nat) : Bool :=
  s.storeState d = 4 || s.storeState d = 5 || (match (s.domMer d).forcedFrom with | some t => decide (t ≤ s.now) | none => false)

/-- The live bank has run its last repeat. -/
def Ctl.bankHeld (s : Ctl) (d : Nat) : Bool :=
  let h := s.bank d (s.liveBank d)
  h.repeat_ != 0 && decide (h.repeat_ ≤ s.periodNo d)

/-- Slot offset in the period of the domain's live bank. -/
def Ctl.periodOffset (s : Ctl) (d : Nat) : Nat := (s.now - (s.domMer d).start) % max 1 (s.bank d (s.liveBank d)).period

/-- The bank's last repeat ends (R41). -/
def Ctl.holdBank (s : Ctl) (d : Nat) : Ctl :=
  if s.created d && s.bankHeld d && !(s.domMer d).ended then
    let s := (s.wrB (MER_PHASE.HELD d) true).setDomMer d { s.domMer d with ended := true }
    s.raise Src.MER_TABLE_END { domain := some d } (s.rdWord MER_SYNC_STATUS.addr)
  else s

/-- Index of the next entry to execute: of a slice that has joined, the first of a later offset of the
period; after the last, and of a slice that has not joined, the first of the table (log entry 54). -/
def Ctl.nextEntry (s : Ctl) (n : Nat) : Nat :=
  let d := s.domOf n
  let l := s.table n (s.liveBank d)
  let o := s.periodOffset d
  match l.find? (fun e => (s.seqOf n).joined && decide (o < e.2.offset)) with
  | some e => e.1
  | none => (l.head?.map Prod.fst).getD 0

/-- Registers of the sequencer. -/
def Ctl.seqPublish (s : Ctl) (n : Nat) : Ctl :=
  let d := s.domOf n
  let h := s.bank d (s.liveBank d)
  let q := s.seqOf n
  let on := s.sliceOn n && s.assigned n d
  let held := s.bankHeld d
  let st := if !on then 0 else if q.idle || s.idleNow n then 3 else if held then 2 else 1
  let s := (s.wr (SLC_SEQ_STATUS.STATE n) st).wr (SLC_SEQ_STATUS.BANK n) (s.liveBank d)
  let s := s.wr (SLC_SEQ_STATUS.ENTRY n) (if on then s.nextEntry n else 0)
  s.wr (SLC_SEQ_STATUS.REPEATS_LEFT n)
    (if !on then 0 else if h.repeat_ = 0 then 0xFFFF_FFFF else if held then 0 else h.repeat_ - s.periodNo d)

/-- The slice runs entries in the present slot. -/
def Ctl.seqRuns (s : Ctl) (n : Nat) : Bool :=
  let d := s.domOf n
  s.sliceOn n && s.assigned n d && (s.seqOf n).joined && !(s.seqOf n).idle && !s.idleNow n && !s.bankHeld d
    && decide ((s.domMer d).start ≤ s.now)

/-- The lowest-numbered slice of the domain that runs entries executes its SWAP entry (R55). -/
def Ctl.leadSlice (s : Ctl) (d : Nat) : Option Nat := (s.slicesOf d).find? s.seqRuns

/-- An ACCEPT window opens: contributions held for it are placed (Table COL-4, row 7). -/
def Dev.openWindow (dv : Dev) (n : Nat) (e : Entry) : Dev :=
  let k := opKey n e.desc
  let mine := (dv.ctl.opOf k).early.filter (fun x => x.link = e.link && x.from_ = e.chunk)
  let other (w : Nat × Nat × Option Nat) : Bool := !(w.1 = e.link && w.2.1 = e.chunk)
  let rest (x : Early) : Bool := !(x.link = e.link && x.from_ = e.chunk)
  let dv := dv.onCtl (fun s => s.modOp k (fun o =>
    { o with windows := o.windows.filter other ++ [(e.link, e.chunk, none)], early := o.early.filter rest }))
  mine.foldl (fun dv x =>
    let dv := dv.onCtl (fun s => (s.releaseBuf (4 * n + 1) x.pool x.cls x.idx).takeIn k x.x)
    dv.afterInput n x.x.pkt) dv

/-- An entry in its first slot (Table MER-3). -/
def Dev.startEntry (dv : Dev) (n i : Nat) (e : Entry) : Dev :=
  let d := dv.ctl.domOf n
  let bank := dv.ctl.liveBank d
  let k := opKey n e.desc
  let dv := if e.first then dv.onCtl (fun s => s.openSched n e.desc) else dv
  let a (s : Ctl) : ActiveEnt := { idx := i, last := s.now + e.count - 1, budget := e.units }
  let dv := dv.onCtl (fun s => s.setSeq n { s.seqOf n with active := (s.seqOf n).active ++ [a s] })
  match e.action with
  | 1 => dv.openWindow n e
  | 3 => dv.onCtl (fun s => s.modOp k (fun o => { o with lastSend := some (e.link, e.vc) }))
  | 4 => dv.onCtl (fun s => s.modOp k (fun o => { o with lastMcast := some (e.mask, e.vc) }))
  | 5 =>
    if e.arg0 / 65536 = 0xFFFF then dv.onCtl (fun s => s.setUpd n { s.updOf n with active := true })
    else dv.onCtl (fun s =>
      let (ok, s) := s.enqueueStart n (e.arg0 % 4) { binding := e.arg0 / 65536, bank := bank, arg := e.arg1 }
      if ok then s else s.raise Src.SEQ_LATE { domain := some d, slice := some n } (s.rdWord MER_SYNC_STATUS.addr))
  | 6 => dv.onCtl (fun s => s.syncSem n (e.arg0 % 256) e.arg1)
  | 7 => dv.onCtl (fun s => if s.leadSlice d = some n then s.swapEntry d e.arg0 else s)
  | 8 => dv.onCtl (fun s =>
      let s := s.setSeq n { s.seqOf n with marks := (e.arg0 % 2 ^ 31, s.now) :: (s.seqOf n).marks }
      if nbit e.arg0 31 then s.setDomMer d { s.domMer d with mark := true } else s)
  | _ => dv

/-- The present slot of one slice: entries that have ended leave, a period's start is joined, and the
step of this offset is executed in table order. -/
def Dev.seqSlot (dv : Dev) (n : Nat) : Dev :=
  let s := dv.ctl
  let d := s.domOf n
  if !(s.sliceOn n && s.assigned n d) then
    dv.onCtl (fun s => ((s.dropActive n).setSeq n { marks := (s.seqOf n).marks }).seqPublish n)
  else
    let s := ((s.seqOf n).active.filter (fun a => decide (a.last < s.now))).foldl (fun s a => s.endEntry n a) s
    let s := s.setSeq n { s.seqOf n with active := (s.seqOf n).active.filter (fun a => decide (s.now ≤ a.last)) }
    let o := s.periodOffset d
    let begun := decide ((s.domMer d).start ≤ s.now)
    let s := if o = 0 ∧ begun ∧ s.aligned ∧ !s.bankHeld d then
        s.setSeq n { s.seqOf n with joined := true, idle := s.idlePeriod d }
      else s
    if !s.seqRuns n then
      let s := s.dropActive n
      let s := if s.aligned then s else s.setSeq n { s.seqOf n with joined := false }
      { dv with ctl := s.seqPublish n }
    else
      let fill (a : ActiveEnt) : ActiveEnt := { a with budget := (s.entry n (s.liveBank d) a.idx).units }
      let s := s.setSeq n { s.seqOf n with active := (s.seqOf n).active.map fill }
      let step := (s.table n (s.liveBank d)).filter (fun e => e.2.offset = o)
      let dv := step.foldl (fun dv e => dv.startEntry n e.1 e.2) { dv with ctl := s }
      dv.onCtl (fun s => s.seqPublish n)

/-- The first schedule entries of the new slot, on every slice (R26 step 4). -/
def Dev.seqAll (dv : Dev) : Dev :=
  let dv := dv.onCtl (fun s => (List.range 64).foldl Ctl.holdBank s)
  (List.range 64).foldl Dev.seqSlot dv

end Sys2Proof.Machine
end

