-- ==== Sys2Proof/Machine/Lifecycle.lean ====
section
/-!
DEFINITION. Domains and the lifecycle of slices and links (R293-R305): creation and its checks,
zeroing, the end of a domain, the commands of Table PRT-4, STARTING, DRAINING and OFF.
-/

namespace Sys2Proof.Machine

/-- Lifecycle codes (Table PRT-3). -/
def Life.OFF : Nat := 0
def Life.STARTING : Nat := 1
def Life.ON : Nat := 2
def Life.DRAINING : Nat := 3

def Ctl.lifeOf (s : Ctl) (u : Nat) : LifeSt := tblGet (fun _ => {}) s.life u
def Ctl.setLife (s : Ctl) (u : Nat) (x : LifeSt) : Ctl := { s with life := tblPut (fun _ => {}) s.life u x }

def Ctl.sliceLife (s : Ctl) (n : Nat) : Nat := s.rd (SLC_STATE.LIFECYCLE n)
def Ctl.linkLife (s : Ctl) (l : Nat) : Nat := s.rd (LNK_STATUS.LIFECYCLE l)

/-- A slice enters a state; the change counts in TRANSITIONS. -/
def Ctl.setSliceLife (s : Ctl) (n st : Nat) : Ctl :=
  ((s.wr (SLC_STATE.LIFECYCLE n) st).inc (SLC_STATE.TRANSITIONS n) 1).setLife n { since := s.slots + 1 }

/-- A link enters a state. -/
def Ctl.setLinkLife (s : Ctl) (l st : Nat) : Ctl :=
  (s.wr (LNK_STATUS.LIFECYCLE l) st).setLife (64 + l) { since := s.slots + 1 }

/-! ## Creation of a domain (R294) -/

/-- The limit of R46 at the highest rate a link may take. -/
def Ctl.linkCap (s : Ctl) (l : Nat) : Nat := resvCap (topRate (s.rd (LNK_RATE.ALLOW l)))

/-- Creation checks of Table PRT-2, in order. -/
def Ctl.createCheck (s : Ctl) (d : Nat) : Nat :=
  let sh := s.shardRange d
  let pr := s.progRange d
  let fits := decide (sh.2 ≤ shardSize) && decide (progBase ≤ pr.1) && decide (pr.2 ≤ reservedBase)
  let clash := s.lockedDoms.any (fun e => rangesOverlap sh (s.shardRange e) || rangesOverlap pr (s.progRange e))
  let resv (l : Nat) : Nat × Nat := (s.rd (DOM_RESV.IN_UNITS d l), s.rd (DOM_RESV.OUT_UNITS d l))
  if !fits || clash then St.BAD_PARAM
  else if (List.range 48).any (fun l => resv l != (0, 0) && !nbit (s.rd (DOM_LINKS.LINKS d)) l) then St.BAD_PARAM
  else if (List.range 48).any (fun l =>
      decide (s.linkCap l < s.resvUnits l false + (resv l).1) || decide (s.linkCap l < s.resvUnits l true + (resv l).2)) then
    St.OVERSUBSCRIBED
  else St.OK

/-- Bytes of a domain's allocations. -/
def Ctl.domBytes (s : Ctl) (d : Nat) : Nat :=
  let sh := s.shardRange d
  let pr := s.progRange d
  (sh.2 - sh.1) + (pr.2 - pr.1)

/-- Empty tables of a bank: every slice's schedule table, templates and bindings, the routing tables,
output formats and link variants. Bank A starts with END. -/
def Ctl.emptyBank (s : Ctl) (d k : Nat) : Ctl :=
  let s := (s.slicesOf d).foldl (fun s n =>
    let s := (s.zeroWords (entryAddr n k 0) 0x1_0000).zeroWords (tmplAddr n k 0) 0x1000
    let s := s.zeroWords (bindingAddr n k 0) 0x800
    if k = 0 then s.wrWord (entryAddr n k 0) (15 * 2 ^ 24) else s) s
  let s := s.zeroWords (devEntryAddr d k 0) 0x2000
  (s.zeroWords (outFmtAddr d k 0) 4).zeroWords (linkMapAddr d k 0) 2

/-- Create the domain at the boundary that ends the present slot (R294, R49). -/
def Ctl.createDomain (s : Ctl) (d : Nat) : Ctl :=
  let s := (s.emptyBank d 0).emptyBank d 1
  let s := (s.setBank d 0 { period := 1 }).setBank d 1 {}
  let s := (s.wrWord (MER_PHASE.addr d) 0).wrB (MER_PHASE.VALID_A d) true
  let s := (s.wrWord (SWX_EPOCH.addr d) 0).setDomMer d { start := s.now + 1 }
  let s := (s.wr (PST_STATUS.STATE d) 0).setPst d {}
  let s := (s.zeroWords (groupAddr d 0) 256).wr (COL_TICKET.NEXT d) 0
  let s := s.wrB (TWN_MODE.ACTING d) (s.rd (TWN_MODE.MODE d) = 0 || s.bit (TWN_MODE.PRIMARY d))
  let s := (s.wr (DOM_STATE.STATE d) 1).wr (DOM_STATE.ZERO_LEFT d) (cdiv (s.domBytes d) (2 ^ 30))
  { s with tw := { s.tw with tellDoms := s.tw.tellDoms ++ [d] } }

/-- Slices of a domain that are not OFF. -/
def Ctl.liveSlices (s : Ctl) (d : Nat) : Nat := ((s.slicesOf d).filter (fun n => s.sliceLife n != 0)).length

/-- Write zero to every byte of the domain's allocations (R295); the pass goes ahead of every access
of the domain, so that none of them meets what an earlier domain left (log entry 101). -/
def Dev.zeroAlloc (dv : Dev) (d : Nat) : Dev :=
  let sh := dv.ctl.shardRange d
  let pr := dv.ctl.progRange d
  (dv.zeroRange sh.1 sh.2).zeroRange pr.1 pr.2

/-- Zeroing ends and the domain is ACTIVE (R295). -/
def Ctl.zeroDone (s : Ctl) (d : Nat) : Ctl :=
  if s.rd (DOM_STATE.STATE d) ≠ 1 then s
  else (s.wr (DOM_STATE.STATE d) 2).wr (DOM_STATE.ZERO_LEFT d) 0

/-- ZEROING_DONE (R295). -/
def execZeroingDone (d : Fin 64) (s : State) : Host.Outcome State Fault Refusal :=
  s.ctlNext (fun c => c.zeroDone d.val)

/-- The domain ends on the device (R296). -/
def Ctl.endDomain (s : Ctl) (d : Nat) : Ctl :=
  let s := ((s.wrB (MER_SWAP_STATUS.ARMED d) false).wrB (MER_SWAP_STATUS.WAKING d) false).wr (MER_SWAP_AT.SLOT d) 0
  let s := (s.setBankValid d 0 false).setBankValid d 1 false
  let s := (s.wr (PST_STATUS.STATE d) 0).setPst d {}
  let s := s.zeroWords (groupAddr d 0) 256
  let s := (s.wr (DOM_STATE.STATE d) 0).wr (DOM_STATE.ZERO_LEFT d) 0
  let tw := s.tw
  let s := { s with tw := { tw with tellDoms := tw.tellDoms ++ [d], silver := tw.silver.filter (fun x => x.d != d),
                                    nackDoms := tw.nackDoms.filter (fun x => x != d),
                                    takeover := tw.takeover.filter (fun x => x != d) } }
  -- reservations have shrunk: links whose rate now fits carry scheduled traffic again (R297)
  (List.range 48).foldl (fun s l =>
    s.modLink l (fun k => { k with resvOver := k.resvOver && s.resvOverAt l k.rate })) s

/-! ## Commands (R299, R300, R305) -/

/-- The refusal of a slice's enable; OK where it passes. -/
def Ctl.sliceEnableCheck (s : Ctl) (n : Nat) : Nat :=
  let d := s.domOf n
  if s.inSafe || s.bit GLB_STATE.FSTOP_HOLD then St.DENIED
  else if s.rd PWR_STATE.STATE = 3 then St.BUSY
  else if !s.bit (SLC_DOMAIN.ASSIGNED n) || s.flt.fenced.contains (sliceDie s n) || s.tw.bare.contains n then St.DENIED
  else if min 32 (s.rd (COL_SLICE.DYN_BASE n)) < s.rd (MEM_STAGE.PROG_MIB n) then St.BAD_PARAM
  else if s.created d then St.OK
  else s.createCheck d

/-- The refusal of a link's enable. -/
def Ctl.linkEnableCheck (s : Ctl) (l : Nat) : Nat :=
  if s.inSafe || s.flt.fenced.contains (linkDie l) then St.DENIED
  else if lanes8.any (fun i => s.rd (LANE_PRBS_CFG.TX_PAT l i) != 0 || s.rd (LANE_PRBS_CFG.RX_PAT l i) != 0) then St.DENIED
  else St.OK

/-- The slice's enable is refused: its status, that of the creation it would have made, LIFE_REFUSED. -/
def Ctl.sliceRefused (s : Ctl) (n st : Nat) : Ctl :=
  let d := s.domOf n
  let s := if s.bit (SLC_DOMAIN.ASSIGNED n) && !s.created d && st == s.createCheck d then s.wr (DOM_STATE.LAST_STATUS d) st else s
  (s.wr (SLC_STATE.LAST_STATUS n) st).raise Src.LIFE_REFUSED { domain := some d, slice := some n }

/-- ENABLE of a slice: its status and effect (Table PRT-4). -/
def Ctl.sliceEnable (s : Ctl) (n : Nat) : Nat × Ctl :=
  let say (st : Nat) (s : Ctl) : Nat × Ctl := (st, s.wr (SLC_STATE.LAST_STATUS n) st)
  match s.sliceLife n with
  | 0 =>
    let st := s.sliceEnableCheck n
    if st = St.OK then say st (s.setLife n { s.lifeOf n with due := 1 }) else (st, s.sliceRefused n st)
  | 1 => say St.OK (s.wrB (SLC_STATE.PENDING_DIS n) false)
  | 2 => say St.OK s
  | _ => say St.ACCEPTED_DEFERRED (s.wrB (SLC_STATE.PENDING_EN n) true)

/-- DISABLE of a slice. -/
def Ctl.sliceDisable (s : Ctl) (n : Nat) : Nat × Ctl :=
  let say (st : Nat) (s : Ctl) : Nat × Ctl := (st, s.wr (SLC_STATE.LAST_STATUS n) st)
  match s.sliceLife n with
  | 0 => say St.OK s
  | 1 => say St.ACCEPTED_DEFERRED (s.wrB (SLC_STATE.PENDING_DIS n) true)
  | 2 => say St.OK (s.setLife n { s.lifeOf n with due := 2 })
  | _ => say St.OK (s.wrB (SLC_STATE.PENDING_EN n) false)

/-- ENABLE of a link. -/
def Ctl.linkEnable (s : Ctl) (l : Nat) : Nat × Ctl :=
  let say (st : Nat) (s : Ctl) : Nat × Ctl := (st, s.wr (LNK_LIFE.LAST_STATUS l) st)
  match s.linkLife l with
  | 0 =>
    let st := s.linkEnableCheck l
    if st = St.OK then say st (s.setLife (64 + l) { s.lifeOf (64 + l) with due := 1 })
    else say st (s.raise Src.LIFE_REFUSED { link := some l, port := some l })
  | 1 => say St.OK (s.wrB (LNK_LIFE.PENDING_DIS l) false)
  | 2 => say St.OK s
  | _ => say St.ACCEPTED_DEFERRED (s.wrB (LNK_LIFE.PENDING_EN l) true)

/-- DISABLE of a link: BUSY while a live or armed bank uses it, or as a twin link in twin operation,
unless forced (R305). -/
def Ctl.linkDisable (s : Ctl) (l : Nat) (force : Bool) : Nat × Ctl :=
  let say (st : Nat) (s : Ctl) : Nat × Ctl := (st, s.wr (LNK_LIFE.LAST_STATUS l) st)
  let busy := !force && (s.linkInBanks l || (s.twinOn && s.isTwinLink l))
  match s.linkLife l with
  | 0 => say St.OK s
  | 1 => if busy then say St.BUSY s else say St.ACCEPTED_DEFERRED (s.wrB (LNK_LIFE.PENDING_DIS l) true)
  | 2 => if busy then say St.BUSY s else say St.OK (s.setLife (64 + l) { s.lifeOf (64 + l) with due := 2 })
  | _ => say St.OK (s.wrB (LNK_LIFE.PENDING_EN l) false)

/-! ## STARTING (R301) -/

/-- The slice is cleared and STARTING. -/
def Dev.beginStarting (dv : Dev) (n : Nat) : Dev :=
  let dv := dv.onRam (fun r => r.zeroStaging n 0 stagingBytes)
  dv.onCtl (fun s =>
    let s := s.setSliceLife n Life.STARTING
    let s := s.stageGood n 0 stagingBytes
    let s := s.modEng n (fun e => { e with streams := [], sems := [], dmem := [], tiles := [], checks := [], idleFrom := none })
    let s := (List.range 4).foldl (fun s t => (s.setEngState n t Eng.IDLE).wr (SLC_ENG_PC.QUEUED n t) 0) s
    let s := (s.wrWord (SLC_NONFINITE.addr n 0) 0).wrWord (SLC_NONFINITE.addr n 1) 0
    let s := (List.range 512).foldl (fun s i => s.wrWord (COL_DESC_STATUS.addr n i) 0) s
    let s := { s with ops := s.ops.filter (fun o => o.1 / 512 != n) }
    let s := { s with net := { s.net with cache := tblPut (fun _ => []) s.net.cache n [] } }
    let s := s.setUpd n {}
    (s.setAlive n []).refreshCol n)

/-! ## DRAINING (R302-R304) -/

/-- Every stream discards its queue and stops before its next instruction. -/
def Ctl.stopStreams (s : Ctl) (n : Nat) : Ctl :=
  (List.range 4).foldl (fun s t =>
    let s := s.modStream n t (fun x =>
      { x with queue := [], run := none, loops := [], wait := none, woken := false, skip := none, stopRun := false })
    let s := s.wr (SLC_ENG_PC.QUEUED n t) 0
    if s.engState n t = Eng.FENCED then s else s.setEngState n t Eng.IDLE) s

/-- The slice enters DRAINING, by a disable or by a fault reaction. -/
def Ctl.beginDraining (s : Ctl) (n : Nat) (fault : Bool) : Ctl :=
  let s := (s.setSliceLife n Life.DRAINING).wrB (SLC_STATE.FAULT_STOP n) fault
  let s := s.wrB (SLC_STATE.PENDING_DIS n) false
  let s := if s.stopped n || s.bit (SLC_STOP_AT.ARM n) then s.resume n else s
  let s := (s.openOps n).foldl (fun s k => s.abandonOp k St.TIMEOUT) s
  let s := s.stopStreams n
  let u := s.updOf n
  let s := s.setUpd n { u with running := none, active := false }
  let s := ({ s with held := s.held.filter (fun h => h.n != n), twinRecs := s.twinRecs.filter (fun r => r.1 != n) }).heldRefresh n
  s.endTxns n St.TIMEOUT

/-- A fault reaction stops a slice (R303). -/
def Ctl.stopSlice (s : Ctl) (n : Nat) : Ctl :=
  if s.sliceLife n = Life.ON ∨ s.sliceLife n = Life.STARTING then s.beginDraining n true else s

/-- Nothing of the slice is in flight: no instruction, and no packet of its own in the switch core. -/
def Ctl.drained (s : Ctl) (n : Nat) : Bool :=
  (List.range 4).all (fun t => (s.stream n t).flight.isEmpty) && (s.inQ (48 + n)).isEmpty &&
    s.sw.out.all (fun o => !(o.2.q ++ o.2.cur.toList ++ o.2.zcur.toList).any (fun x => x.inp = 48 + n))

/-- The slice reaches OFF: its buffers are reclaimed, and with the domain's last slice the domain
ends. -/
def Ctl.reachOff (s : Ctl) (n : Nat) : Ctl :=
  let s := s.setSliceLife n Life.OFF
  let s := (s.reclaimBufs n).setRxQ n []
  let d := s.domOf n
  let s := s.wr (DOM_STATE.SLICES d) (s.liveSlices d)
  if s.created d && s.liveSlices d = 0 then s.endDomain d else s

/-- What remains of a slice is discarded, its packets counted as flushed. -/
def Ctl.discardSlice (s : Ctl) (n : Nat) : Ctl :=
  let s := (List.range 4).foldl (fun s t => s.modStream n t (fun x => { x with flight := [] })) s
  let s := s.setInQ (48 + n) []
  s.sw.out.foldl (fun s o =>
    let st := s.outSt o.1
    let mine := st.q.filter (fun x => x.inp = 48 + n)
    let cut (x : OutPkt) : OutPkt := if x.inp = 48 + n then { x with chkOk := false, inp := 112 } else x
    let s := s.setOut o.1 { st with q := st.q.filter (fun x => x.inp != 48 + n), cur := st.cur.map cut, zcur := st.zcur.map cut }
    mine.foldl (fun s x => s.countFlush o.1 x.pkt) s) s

/-- SLICE_REACHES_OFF (R302). -/
def Ctl.sliceOffStep (s : Ctl) (n : Nat) : Ctl :=
  if s.sliceLife n = Life.DRAINING && s.drained n then s.reachOff n else s

def execSliceReachesOff (n : Fin 64) (s : State) : Host.Outcome State Fault Refusal :=
  s.ctlNext (fun c => c.sliceOffStep n.val)

/-- A link enters DRAINING: what waits in its buffers is still sent and acknowledged. -/
def Ctl.beginLinkDraining (s : Ctl) (l : Nat) : Ctl :=
  ((s.setLinkLife l Life.DRAINING).wrB (LNK_LIFE.PENDING_DIS l) false).modLink l (fun k => { k with drainSince := s.slots + 1, retrainAt := none })

/-- Something waits in a link's output. -/
def Ctl.outputHolds (s : Ctl) (l : Nat) : Bool :=
  let o := s.outSt l
  !o.q.isEmpty || o.cur.isSome || o.zcur.isSome

/-- A link reaches OFF with its transmitters squelched. What it could not send is flushed. -/
def Ctl.linkReachOff (s : Ctl) (l : Nat) : Ctl :=
  let s := (if s.outputHolds l then s.flushOutput l else s).modLink l (fun k => { k with squelched := true, retrainAt := none, idleDue := false, stored := [] })
  let s := (s.setLinkState l LanSt.OFF).setLinkLife l Life.OFF
  s.parentLost l

/-- The link is down, idle, or has sent everything and had it acknowledged. -/
def Ctl.linkDrained (s : Ctl) (l : Nat) : Bool :=
  let o := s.outSt l
  s.linkState l != LanSt.UP || (o.q.isEmpty && o.cur.isNone && o.zcur.isNone && (s.link l).stored.isEmpty)

def Ctl.linkOffStep (s : Ctl) (l : Nat) : Ctl :=
  if s.linkLife l = Life.DRAINING && s.linkDrained l then s.linkReachOff l else s

/-- LINK_REACHES_OFF (R304). -/
def execLinkReachesOff (l : Fin 48) (s : State) : Host.Outcome State Fault Refusal :=
  s.ctlNext (fun c => c.linkOffStep l.val)

/-- DRAINING has lasted 3,125 slots (R302, R304) at slot `t`. -/
def Ctl.drainTimeout (s : Ctl) (u t : Nat) : Ctl :=
  if t < (s.lifeOf u).since + 3125 then s
  else if u < 64 then
    if s.sliceLife u = Life.DRAINING then
      ((s.discardSlice u).raise Src.DRAIN_TIMEOUT { domain := some (s.domOf u), slice := some u }).reachOff u
    else s
  else
    let l := u - 64
    if s.linkLife l = Life.DRAINING then
      ((s.flushOutput l).raise Src.DRAIN_TIMEOUT { link := some l, port := some l }).linkReachOff l
    else s

def lifeIndex : LifeUnit → Nat
  | .slice n => n.val
  | .link l => 64 + l.val

/-- DRAIN_TIMEOUT (R302, R304). -/
def execDrainTimeout (unit : LifeUnit) (s : State) : Host.Outcome State Fault Refusal :=
  s.ctlNext (fun c => c.drainTimeout (lifeIndex unit) c.slots)

/-! ## Transitions at a slot boundary (R26 step 3, R299) -/

/-- A slice leaves OFF: its domain is created where it is the first. A refusal leaves it OFF. -/
def Dev.sliceLeavesOff (dv : Dev) (n : Nat) : Dev :=
  let s := dv.ctl.wrB (SLC_STATE.PENDING_EN n) false
  let dv : Dev := { dv with ctl := s }
  let d := s.domOf n
  let st := s.sliceEnableCheck n
  if st ≠ St.OK then
    dv.onCtl (fun s => (s.sliceRefused n st).setLife n { since := s.slots + 1 })
  else
    let dv := if s.created d then dv
      else ({ dv with ctl := (s.createDomain d).wr (DOM_STATE.LAST_STATUS d) St.OK } : Dev).zeroAlloc d
    let dv := (dv.onCtl (fun s => s.wr (SLC_STATE.LAST_STATUS n) St.OK)).beginStarting n
    dv.onCtl (fun s => s.wr (DOM_STATE.SLICES d) (s.liveSlices d))

/-- STARTING of a slice has ended: its clearing is done, or 64 slots have passed, and its domain is
ACTIVE. -/
def Ctl.startingOver (s : Ctl) (n : Nat) : Bool :=
  ((s.lifeOf n).ready || decide ((s.lifeOf n).since + 64 ≤ s.slots + 1)) && s.rd (DOM_STATE.STATE (s.domOf n)) = 2

/-- One slice's transition at a boundary. -/
def Dev.sliceStep (dv : Dev) (n : Nat) : Dev :=
  let s := dv.ctl
  let x := s.lifeOf n
  match s.sliceLife n with
  | 0 =>
    if x.due = 1 then dv.sliceLeavesOff n
    else if s.bit (SLC_STATE.PENDING_EN n) && decide (x.since ≤ s.slots) then
      dv.sliceLeavesOff n
    else dv
  | 1 =>
    if s.startingOver n then
      let dis := s.bit (SLC_STATE.PENDING_DIS n)
      let s := s.setSliceLife n Life.ON
      { dv with ctl := if dis then s.beginDraining n false else s.setSeq n { marks := (s.seqOf n).marks } }
    else dv
  | 2 => if x.due = 2 then dv.onCtl (fun s => s.beginDraining n false) else dv
  | _ => dv.onCtl (fun s => if decide (s.slots < x.since) then s else (s.sliceOffStep n).drainTimeout n (s.slots + 1))

/-- One link's transition at a boundary. -/
def Ctl.linkStep (s : Ctl) (l : Nat) : Ctl :=
  let x := s.lifeOf (64 + l)
  match s.linkLife l with
  | 0 =>
    if x.due = 1 then ((s.wrB (LNK_LIFE.PENDING_EN l) false).setLinkLife l Life.STARTING).startTraining l
    else if s.bit (LNK_LIFE.PENDING_EN l) && decide (x.since ≤ s.slots) then
      let s := s.wrB (LNK_LIFE.PENDING_EN l) false
      let st := s.linkEnableCheck l
      let s := s.wr (LNK_LIFE.LAST_STATUS l) st
      if st = St.OK then (s.setLinkLife l Life.STARTING).startTraining l
      else s.raise Src.LIFE_REFUSED { link := some l, port := some l }
    else s
  | 1 =>
    if s.linkState l = LanSt.UP then
      let dis := s.bit (LNK_LIFE.PENDING_DIS l)
      let s := s.setLinkLife l Life.ON
      if dis then s.beginLinkDraining l else s
    else s
  | 2 => if x.due = 2 then s.beginLinkDraining l else s
  | _ => if decide (s.slots < x.since) then s else (s.linkOffStep l).drainTimeout (64 + l) (s.slots + 1)

/-- STARTING_DONE (R301): the clearing has ended. -/
def execStartingDone (n : Fin 64) (s : State) : Host.Outcome State Fault Refusal :=
  s.ctlNext (fun c => if c.sliceLife n.val = Life.STARTING then c.setLife n.val { c.lifeOf n.val with ready := true } else c)

end Sys2Proof.Machine
end

