-- ==== Sys2Proof/Machine/Twin.lean ====
section
/-!
DEFINITION. The twin logic (R311-R335): device records, pairing and loss, twin states of slices,
comparison and its outcomes, twin fill, exclusion agreement, the mirror stream's receiver, takeover,
re-silvering and array die sparing.
-/

namespace Sys2Proof.Machine

/-- Pair states (Table TWN-3). -/
def Pair.ABSENT : Nat := 0
def Pair.HANDSHAKE : Nat := 1
def Pair.PAIRED : Nat := 2
def Pair.SOLO : Nat := 3
def Pair.UNPAIRED : Nat := 4
def Pair.RESILVER : Nat := 5

def Ctl.pair (s : Ctl) : Nat := s.rd TWN_STATUS.PAIR
def Ctl.setPair (s : Ctl) (p : Nat) : Ctl := s.wr TWN_STATUS.PAIR p
def Ctl.modTw (s : Ctl) (f : TwinSt → TwinSt) : Ctl := { s with tw := f s.tw }

/-- Comparison is on: PAIRED or RESILVER. -/
def Ctl.pairOn (s : Ctl) : Bool := s.pair = Pair.PAIRED || s.pair = Pair.RESILVER

def Ctl.twinLinks (s : Ctl) : List Nat := [s.rd TWN_CTRL.LINK0, s.rd TWN_CTRL.LINK1].filter (fun l => decide (l < 48))

/-! ## Device records (R313) -/

/-- The twin's device number: from its HELLO, else of the partner of an UP twin link (log entry 42). -/
def Ctl.twinDev (s : Ctl) : Option Nat :=
  if s.tw.hello.isSome then some (s.rd TWN_STATUS.TWIN_DEV)
  else (s.twinLinks.find? s.linkUp).map (fun l => s.rd (LNK_PARTNER.DEV l))

/-- Send a device record as the command TWIN_RECORD. -/
def Ctl.sendDevRec (s : Ctl) (kind a1 a2 a3 : Nat) (solo : Bool := false) : Ctl :=
  match s.twinDev with
  | none => s
  | some dev =>
    let (rid, s) := s.takeAlive 64 0xFFFA
    let w0 := kind + (s.rd TWN_CTRL.SIDE) <<< 4 + (b2n solo) <<< 5 + s.devNum <<< 16
    let hdr := toBytes 8 (1 + 0x0060 <<< 16 + 32 <<< 32) ++ toBytes 8 (rid % 2 ^ 32) ++ toBytes 8 0 ++ toBytes 8 0
    s.issue 64 { typ := Typ.MGMT_CMD, vc := 6, dstDev := dev, dstPort := 128, stream := 0xFFFB, chkSel := 2, isFirst := true,
                 isLast := true, payload := hdr ++ toBytes 8 w0 ++ toBytes 8 a1 ++ toBytes 8 a2 ++ toBytes 8 a3 }

def Ctl.sendHello (s : Ctl) : Ctl := s.sendDevRec 1 (s.rdWord GLB_DET_SIG.addr) 0 0 (s.pair = Pair.SOLO)

/-- DOMAIN record of a domain. -/
def Ctl.sendDomainRec (s : Ctl) (d : Nat) : Ctl :=
  s.sendDevRec 6 (d + (s.rd (TWN_MODE.MODE d)) <<< 6 + (s.rd (TWN_MODE.PRIMARY d)) <<< 7 + (b2n (s.created d)) <<< 8)
    (s.rdWord (MEM_DOM_SHARD.addr d)) (s.rdWord (MEM_DOM_PROG.addr d))

/-- Links UP and slices ON, as LINKS and SLICES report them. -/
def Ctl.upMask (s : Ctl) : Nat := maskOf ((List.range 48).filter (fun l => s.bit (LNK_STATUS.UP l)))
def Ctl.onMask (s : Ctl) : Nat := maskOf ((List.range 64).filter s.sliceOn)

/-- The records of a slot: LOST in the safe state; a SOLO device's HELLO; in twin operation HEARTBEAT,
and what has changed. -/
def Ctl.sendRecords (s : Ctl) : Ctl :=
  if s.pair = Pair.ABSENT ∨ s.pair = Pair.UNPAIRED then s
  else if s.inSafe then s.sendDevRec 3 (s.rd TWN_STATUS.CAUSE) 0 0
  else if s.pair = Pair.SOLO then
    if s.tw.helloNext then (s.modTw (fun t => { t with helloNext := false })).sendHello else s
  else
    let s := s.sendDevRec 2 (s.now % 2 ^ 56) 0 0
    if s.pair = Pair.HANDSHAKE then s
    else
      let l := s.upMask
      let n := s.onMask
      let s := if s.tw.toldLinks = some l then s else (s.modTw (fun t => { t with toldLinks := some l })).sendDevRec 4 l 0 0
      let s := if s.tw.toldSlices = some n then s else (s.modTw (fun t => { t with toldSlices := some n })).sendDevRec 5 n 0 0
      let ds := s.tw.tellDoms
      ds.foldl Ctl.sendDomainRec (s.modTw (fun t => { t with tellDoms := [] }))

/-! ## Pairing (R315) -/

/-- TWN_CTRL.GO: from ABSENT, or again from UNPAIRED. -/
def Ctl.twnGo (s : Ctl) : Ctl :=
  if s.pair = Pair.ABSENT ∨ s.pair = Pair.UNPAIRED then
    ((s.setPair Pair.HANDSHAKE).wr TWN_STATUS.CAUSE 0).sendHello
  else s

/-- The handshake is refused. -/
def Ctl.unpair (s : Ctl) (cause : Nat) : Ctl :=
  let s := (s.setPair Pair.UNPAIRED).wr TWN_STATUS.CAUSE cause
  let s := s.modTw (fun t => { t with hello := none, solo := false, revive := none, silver := [], fill := 0 })
  s.raise Src.TWIN_UNPAIRED {} 0 0 0 cause

/-- The checks of a HELLO, and PAIRED, or RESILVER where one of the two has been SOLO. -/
def Ctl.helloChecks (s : Ctl) (h : Hello) : Ctl :=
  let solo := s.pair = Pair.SOLO
  if h.sig ≠ s.rdWord GLB_DET_SIG.addr then s.unpair 5
  else if h.side = s.rd TWN_CTRL.SIDE then s.unpair 6
  else if h.solo ∧ solo then s.unpair 7
  else
    let copy := h.solo || solo
    let any := (List.range 64).any s.created
    let s := s.setPair (if copy && any then Pair.RESILVER else Pair.PAIRED)
    let s := s.wr TWN_STATUS.CAUSE 0
    s.modTw (fun t => { t with
      lastHb := s.slots, presMiss := 0, lost := none, doms := [], diff := [], forced := []
      toldLinks := none, toldSlices := none, tellDoms := (List.range 64).filter s.created, helloNext := false
      revive := (if copy then some (decide solo) else none) })

/-- PAIRING: the conditions of R315 in HANDSHAKE, or in SOLO on a HELLO (R317). -/
def Ctl.pairing (s : Ctl) : Ctl :=
  match s.tw.hello with
  | none => s
  | some h =>
    if (s.pair = Pair.HANDSHAKE ∨ (s.pair = Pair.SOLO ∧ s.tw.solo)) ∧ s.bit TWN_STATUS.PRESENT ∧
        s.twinLinks.any s.linkUp ∧ s.aligned then
      (s.helloChecks h).modTw (fun t => { t with solo := false })
    else s

/-- PAIRING (R315). -/
def execPairing (s : State) : Host.Outcome State Fault Refusal := s.ctlNext Ctl.pairing

/-! ## The twin's device records -/

/-- Contributions a slice holds from link `l`, as packets again, for the twin (R324). -/
def Ctl.heldPackets (s : Ctl) (n l : Nat) : List Pkt :=
  (s.openOps n).flatMap (fun k =>
    let o := s.opOf k
    let d := s.opDesc k
    let w := if d.inFmt = 0 then 4 else 2
    let js := (List.range 32).filter (fun j => tblGet (fun _ => none) o.linkOf j = some l)
    (o.chunks.filter (fun c => !c.2.complete)).flatMap (fun c =>
      js.flatMap (fun j => (tblGet (fun _ => []) c.2.leaves j).map (fun g =>
        { typ := Typ.CONTRIB, opTag := k, ticket := d.ticket, chunk := c.1, contrib := d.cbase + j, addr := g.off,
          chkSel := d.chkSel, isFirst := g.off = 0, isLast := decide (d.ce ≤ g.off + g.data.length),
          epoch := s.rd (COL_DESC_STATUS.EPOCH n (k % 512)),
          payload := g.data.flatMap (fun x =>
            if d.inFmt = 0 then toBytes 4 x
            else toBytes w (encodeFmt (fmtOf d.inFmt) (s.strict (s.domOf n)) false (decodeFmt .fp32 (s.strict (s.domOf n)) x))) }))))

/-- Send held contributions to the twin's slice. -/
def Ctl.fillHeld (s : Ctl) (n : Nat) (ps : List Pkt) : Ctl :=
  ps.foldl (fun s p => s.issue n { p with
    vc := 0, dstDev := s.rd TWN_STATUS.TWIN_DEV, dstPort := 64 + n, domain := s.domOf n, stream := 0xFFFD }) s

/-- Begin and end twin fill as the twin's and this device's links come and go (R324). -/
def Ctl.fillRefresh (s : Ctl) : Ctl :=
  if !s.pairOn then (if s.tw.fill = 0 then s else s.modTw (fun t => { t with fill := 0 }))
  else
    let want := (List.range 48).filter (fun l => s.bit (LNK_STATUS.UP l) && !nbit s.tw.links l && !s.isTwinLink l)
    let fresh := want.filter (fun l => !nbit s.tw.fill l)
    let s := s.modTw (fun t => { t with fill := maskOf want })
    fresh.foldl (fun s l =>
      let s := s.raise Src.TWIN_FILL { link := some l, port := some l }
      ((List.range 64).filter (fun n => s.sliceOn n && s.rd (TWN_MODE.MODE (s.domOf n)) = 0)).foldl
        (fun s n => s.fillHeld n (s.heldPackets n l)) s) s

/-- The domain records of the twins differ (R318). -/
def Ctl.domDiffers (s : Ctl) (d : Nat) (t : TwinDom) : Bool :=
  let m := s.rd (TWN_MODE.MODE d)
  m != t.mode || (m = 1 && s.bit (TWN_MODE.PRIMARY d) == t.primary) ||
    s.rdWord (MEM_DOM_SHARD.addr d) != t.shard || s.rdWord (MEM_DOM_PROG.addr d) != t.prog

/-- Bytes of a domain's shard allocation. -/
def Ctl.shardBytes (s : Ctl) (d : Nat) : Nat := (s.shardRange d).2 - (s.shardRange d).1

/-- A domain that both hold, and whose records agree, is re-silvered (R329). -/
def Ctl.beginSilver (s : Ctl) (d : Nat) : Ctl :=
  match s.tw.revive with
  | none => s
  | some source =>
    if s.tw.silver.any (fun x => x.d = d) then s
    else
      let x : Silver := { d := d, source := source, byte := s.dataBase d, total := s.shardBytes d, since := s.slots }
      let s := s.modTw (fun t => { t with silver := t.silver ++ [x] })
      if source then s
      else (s.slicesOf d).foldl (fun s n => s.modTw (fun t => { t with
        follow := tblPut (fun _ => 0) t.follow n (tblGet (fun _ => 0) t.follow n ||| 17) })) s

/-- A DOMAIN record. -/
def Ctl.takeDomain (s : Ctl) (a1 a2 a3 : Nat) : Ctl :=
  let d := nfld a1 0 6
  if !nbit a1 8 then
    s.modTw (fun t => { t with doms := tblPut (fun _ => none) t.doms d none, diff := t.diff.filter (fun x => x != d) })
  else
    let t : TwinDom := { mode := nfld a1 6 1, primary := nbit a1 7, shard := a2, prog := a3 }
    let s := s.modTw (fun w => { w with doms := tblPut (fun _ => none) w.doms d (some t) })
    if !s.created d then s
    else if s.domDiffers d t then
      if s.tw.diff.contains d then s
      else (s.modTw (fun w => { w with diff := d :: w.diff })).raise Src.TWIN_MODE_DIFF { domain := some d }
    else (s.modTw (fun w => { w with diff := w.diff.filter (fun x => x != d) })).beginSilver d

/-- Primary slices of MIRROR domains that the twin no longer reports ON: the standby takes over (R328). -/
def Ctl.standbyCause (s : Ctl) (p : Nat → Bool) : Ctl :=
  let ds := (List.range 64).filter (fun d =>
    s.created d && s.rd (TWN_MODE.MODE d) = 1 && !s.bit (TWN_MODE.ACTING d) && p d && !s.tw.takeover.contains d)
  s.modTw (fun t => { t with takeover := t.takeover ++ ds })

/-- What a device record does (Table TWN-1); an unknown KIND is discarded. -/
def Ctl.takeDevRec (s : Ctl) (bs : List Byte) : Ctl :=
  let w0 := leAt bs 0 8
  let a1 := leAt bs 8 8
  match nfld w0 0 4 with
  | 1 =>
    let h : Hello := { dev := nfld w0 16 12, side := nfld w0 4 1, solo := nbit w0 5, sig := a1 }
    let s := (s.modTw (fun t => { t with hello := some h })).wr TWN_STATUS.TWIN_DEV h.dev
    if s.pair = Pair.SOLO ∧ !s.inSafe then (s.modTw (fun t => { t with solo := true, helloNext := true })).pairing else s
  | 2 => s.modTw (fun t => { t with lastHb := s.slots })
  | 3 => if s.twinOn then s.modTw (fun t => { t with lost := some (nfld a1 0 4) }) else s
  | 4 => (s.modTw (fun t => { t with links := a1 % 2 ^ 48 })).fillRefresh
  | 5 =>
    let gone := s.tw.slices
    let s := s.modTw (fun t => { t with slices := a1 })
    s.standbyCause (fun d => (s.slicesOf d).any (fun n => nbit gone n && !nbit a1 n))
  | 6 => s.takeDomain a1 (leAt bs 16 8) (leAt bs 24 8)
  | _ => s

/-! ## Release of what is held (R320) -/

/-- Drop an entry of the comparison. -/
def Ctl.dropHeld (s : Ctl) (h : HeldObj) : Ctl :=
  ({ s with held := dropFirst (fun x => x = h) s.held }).heldRefresh h.n

/-- The copies an entry holds may leave. -/
def Ctl.freeOuts (s : Ctl) (h : HeldObj) : Ctl :=
  let mine (o : OutObj) : Bool := o.contrib = h.variant && (o.kind = 0) == (h.kind = 0)
  s.modChunk h.opTag h.chunk (fun c => { c with outs := updWhere mine (fun o => { o with ok := true }) c.outs })

/-- Let a held object go: a chunk's copies leave, an update becomes current. -/
def Dev.release (dv : Dev) (h : HeldObj) : Dev :=
  if h.left then dv
  else if h.update then dv.advanceChunk h.n h.d h.job (if h.attempt = 0 then h.sig else h.sig1)
  else dv.onCtl (fun s => s.freeOuts h)

/-- Release and forget. -/
def Dev.releaseHeld (dv : Dev) (h : HeldObj) : Dev := (dv.release h).onCtl (fun s => s.dropHeld h)

/-! ## Comparison (R322, R323) -/

/-- Record a mismatch's outcome: 1 CORRECTED, 2 SELF_FENCED, 3 TWIN_FENCED, 4 SUSPECT. -/
def Ctl.cmpErr (s : Ctl) (h : HeldObj) (outcome : Nat) : Ctl :=
  let s := s.wrWord TWN_CMP_ERR.addr 0
  let s := (s.wr TWN_CMP_ERR.OP_TAG (if h.update then 0 else h.opTag)).wr TWN_CMP_ERR.OUTCOME outcome
  let s := (s.wrB TWN_CMP_ERR.UPDATE h.update).wr TWN_CMP_ERR.DOMAIN h.d
  (s.wr TWN_CMP_ERR.CHUNK (if h.update then h.job.k else h.chunk)).wrB TWN_CMP_ERR.VALID true

/-- Raise a comparison source for a held object. -/
def Ctl.raiseCmp (s : Ctl) (src : Nat) (h : HeldObj) (own twin : Nat) : Ctl :=
  s.raise src { domain := some h.d, slice := some h.n, opTag := if h.update then none else some (h.opTag % 2 ^ 15), chunk := h.chunk }
    (if h.update then h.job.k + h.step <<< 32 else 0) own twin (s.rd TWN_STATUS.CAUSE)

/-- The chunk is SUSPECT: it is not released, its operation is abandoned and the step fails. -/
def Ctl.suspect (s : Ctl) (h : HeldObj) (own twin : Nat) : Ctl :=
  let s := (s.cmpErr h 4).sat TWN_COUNT.SUSPECT 1
  let s := s.raiseCmp Src.CMP_SUSPECT h own twin
  let s := if h.update || (s.opDesc h.opTag).ticket != h.ticket then s else s.abandonOp h.opTag St.TIMEOUT
  (s.dropHeld h).stepFail h.d Fail.SUSPECT

/-- The decision from the CHECKS bits of all records. -/
def Dev.cmpDecide (dv : Dev) (h : HeldObj) (own twin : Bool) (a b : Nat) : Dev :=
  if own && !twin then
    dv.onCtl (fun s => ((s.cmpErr h 2).raiseCmp Src.CMP_FENCE h a b).dropHeld h)
  else if twin && !own then
    let dv := dv.onCtl (fun s => (s.cmpErr h 3).modTw (fun t => { t with forced := h.n :: t.forced }))
    dv.releaseHeld h
  else dv.onCtl (fun s => s.suspect h a b)

/-- An update of a record of which some slot has only one copy cannot be run again. -/
def Ctl.cannotRerun (s : Ctl) (h : HeldObj) : Bool :=
  h.update && (s.wCopies h.d = 1 || (s.sCopies h.d = 1 && s.rd (PST_LAYOUT.STATE_WORDS h.d) != 0))

/-- Both records of a held object are present: what the slot after does. -/
def Dev.compare (dv : Dev) (h : HeldObj) : Dev :=
  match h.attempt, h.twin0, h.twin1 with
  | 0, some (v, ck), _ =>
    if v = h.sig then dv.releaseHeld h
    else if h.left then dv.onCtl (fun s => s.suspect h h.sig v)
    else if dv.ctl.cannotRerun h then dv.cmpDecide h h.checks ck h.sig v
    else dv.onCtl (fun s => { s with held := updFirst (fun x => x = h) (fun x => { x with attempt := 1, since := s.slots }) s.held })
  | 2, some (_, c0), some (v, ck) =>
    if v = h.sig1 then
      (dv.releaseHeld h).onCtl (fun s =>
        ((s.cmpErr h 1).sat TWN_COUNT.CORRECTED 1).raiseCmp Src.CMP_CORRECTED h h.sig1 v)
    else if h.left then dv.onCtl (fun s => s.suspect h h.sig1 v)
    else dv.cmpDecide h (h.checks || h.checks1) (c0 || ck) h.sig1 v
  | _, _, _ => dv

/-- The re-run of a stage ends: its signature goes to the twin with ATTEMPT = 1. A built-in program runs
again from the copies CUR; what stands in staging is summed again with the same result. -/
def Dev.rerunOne (dv : Dev) (h : HeldObj) : Dev :=
  let whole := (dv.ctl.tensor h.d h.job.t).wholeCall
  let user := decide ((dv.ctl.tensor h.d h.job.t).prog < 0xFFF0)
  let dv := if h.update && !whole && !user then (dv.runChunk h.d h.job).2 else dv
  let sig := if h.update then dv.updateSig h.d h.job.k else h.sig
  dv.onCtl (fun s =>
    let ck := s.checksFired h.n h.firstMer
    let s := { s with held := updFirst (fun x => x = h) (fun x =>
      { x with attempt := 2, sig1 := sig, checks1 := ck, since := s.slots }) s.held }
    s.sendSliceRec h.n (if h.update then { kind := 3, attempt := 1, checks := ck, value := sig, local_ := h.job.k, step := h.step }
      else { kind := 1, attempt := 1, checks := ck, variant := recVariant h.variant, opTag := h.opTag, chunk := h.chunk,
             value := sig, ticket := h.ticket }))

/-- RERUN_DONE (R323): the slice's oldest re-run ends. -/
def execRerunDone (n : Fin 64) (s : State) : Host.Outcome State Fault Refusal :=
  s.devNext (fun dv =>
    match dv.ctl.held.find? (fun h => h.n = n.val && h.attempt = 1) with
    | some h => dv.rerunOne h
    | none => dv)

/-- A record of the twin belongs to a held object that still waits for it. -/
def HeldObj.meets (h : HeldObj) (n : Nat) (r : TwinRec) : Bool :=
  h.n = n && (if h.update then r.kind = 3 && r.local_ = h.job.k && r.step = h.step
    else r.kind = 1 && r.opTag = h.opTag && r.chunk = h.chunk && r.variant = recVariant h.variant && r.ticket = h.ticket) &&
  (if r.attempt = 0 then h.twin0.isNone else h.twin1.isNone)

/-- Note a RELEASE or UPDATE record on the object it belongs to; false where nothing held meets it. -/
def Ctl.noteRec (s : Ctl) (n : Nat) (r : TwinRec) : Bool × Ctl :=
  if s.held.any (fun h => h.meets n r) then
    (true, { s with held := updFirst (fun h => h.meets n r) (fun h =>
      if r.attempt = 0 then { h with twin0 := some (r.value, r.checks) } else { h with twin1 := some (r.value, r.checks) }) s.held })
  else (false, s)

/-- Records that came before what they belong to. -/
def Ctl.noteEarly (s : Ctl) : Ctl :=
  s.twinRecs.foldl (fun s x =>
    let (hit, s) := s.noteRec x.1 x.2
    if hit then { s with twinRecs := dropFirst (fun y => y = x) s.twinRecs } else s) s

/-- A slice record arrives (Table TWN-2): an EXCL record waits for the boundary; of an unknown KIND it
is discarded. -/
def Ctl.takeSliceRec (s : Ctl) (n : Nat) (r : TwinRec) : Ctl :=
  if r.kind = 2 then { s with twinRecs := s.twinRecs ++ [(n, r)] }
  else if r.kind = 1 ∨ r.kind = 3 then
    let (hit, s) := s.noteRec n r
    if hit then s else { s with twinRecs := s.twinRecs ++ [(n, r)] }
  else s

/-- SIG_WAIT; 0 reads as 1. -/
def Ctl.sigWait (s : Ctl) : Nat := max 1 (s.rd TWN_CTRL.SIG_WAIT)

/-- The twin's record is late for a held object: it leaves uncompared, and its signature is kept. -/
def Dev.sigLate (dv : Dev) (h : HeldObj) : Dev :=
  let waiting := (h.attempt = 0 && h.twin0.isNone) || (h.attempt = 2 && h.twin1.isNone)
  if h.left || !waiting || !dv.ctl.elapsed h.since dv.ctl.sigWait then dv
  else
    let dv := dv.onCtl (fun s => s.raiseCmp Src.CMP_LATE h (if h.attempt = 0 then h.sig else h.sig1) 0)
    let dv := dv.release h
    dv.onCtl (fun s => ({ s with held := updFirst (fun x => x = h) (fun x => { x with left := true }) s.held }).heldRefresh h.n)

/-! ## Exclusion agreement (R325) -/

/-- The EXCL record of the twin for an open chunk. -/
def Ctl.exclOf (s : Ctl) (k c : Nat) : Option (Nat × TwinRec) :=
  s.twinRecs.find? (fun x => x.2.kind = 2 && x.1 = k / 512 && x.2.opTag = k && x.2.chunk = c && x.2.ticket = (s.opDesc k).ticket)

/-- Contributions of a chunk's leaves, to the twin that lacks them. -/
def Ctl.fillLeaves (s : Ctl) (k c m : Nat) : Ctl :=
  let n := k / 512
  let ls := (List.range 48).filter (fun l => (List.range 32).any (fun j => nbit m j && tblGet (fun _ => none) (s.opOf k).linkOf j = some l))
  let base := (s.opDesc k).cbase
  let ps := (ls.flatMap (s.heldPackets n)).filter (fun p => p.opTag = k && p.chunk = c && nbit m (p.contrib - base))
  s.fillHeld n ps

/-- Both EXCL records of a chunk are present: exclude what both lack or an operator excluded, or wait
for what the twin fills. A twin that lacks nothing here answers with an empty record. -/
def Dev.exclAgree (dv : Dev) (k c : Nat) : Dev :=
  let s := dv.ctl
  match s.exclOf k c with
  | none =>
    match (s.chunkOf k c).exclSent with
    | some (t, v) =>
      if s.elapsed t s.sigWait then
        let dv := dv.onCtl (fun s =>
          (s.raise Src.CMP_LATE { domain := some (s.domOf (k / 512)), slice := some (k / 512), opTag := some (k % 2 ^ 15), chunk := c }).modChunk
            k c (fun x => { x with exclSent := none }))
        dv.decideMissing k c (bitsOf 32 v) (nbit v 32) St.TIMEOUT
      else dv
    | none => dv
  | some x =>
    let gone (s : Ctl) : Ctl := { s with twinRecs := dropFirst (fun y => y = x) s.twinRecs }
    let tv := x.2.value
    match (s.chunkOf k c).exclSent with
    | none =>
      dv.onCtl (fun s => ((gone s).sendSliceRec (k / 512)
        { kind := 2, opTag := k, chunk := c, value := 0, ticket := (s.opDesc k).ticket }).fillLeaves k c tv)
    | some (_, v) =>
      let both := (bitsOf 32 v).filter (fun j => nbit tv j || (s.opOf k).oper.contains j)
      let theirs := if nbit tv 33 then (bitsOf 32 tv).filter (fun j => !nbit v j) else []
      let dv := dv.onCtl (fun s => ((gone s).modChunk k c (fun y => { y with exclSent := none })).fillLeaves k c
        (maskOf ((bitsOf 32 tv).filter (fun j => !nbit v j))))
      dv.decideMissing k c (both ++ theirs) (nbit v 32 && nbit tv 32) St.TIMEOUT

/-- Every chunk of a slice for which an EXCL record is out or has come. -/
def Dev.exclAll (dv : Dev) (n : Nat) : Dev :=
  let sent := (dv.ctl.openOps n).flatMap (fun k =>
    ((dv.ctl.opOf k).chunks.filter (fun c => c.2.exclSent.isSome)).map (fun c => (k, c.1)))
  let come := (dv.ctl.twinRecs.filter (fun x => x.1 = n && x.2.kind = 2 && dv.ctl.opOpen x.2.opTag)).map (fun x => (x.2.opTag, x.2.chunk))
  (sent ++ come.filter (fun x => !sent.contains x)).foldl (fun dv x => dv.exclAgree x.1 x.2) dv

/-- SIG_WAIT_EXPIRY (R322, R325): what has waited SIG_WAIT slots for the twin's record. -/
def execSigWaitExpiry (n : Fin 64) (s : State) : Host.Outcome State Fault Refusal :=
  s.devNext (fun dv =>
    let dv := (dv.ctl.held.filter (fun h => h.n = n.val)).foldl Dev.sigLate dv
    dv.exclAll n.val)

/-! ## Twin states of slices (R318, R319, R326, R327) -/

def Ctl.followOf (s : Ctl) (n : Nat) : Nat := tblGet (fun _ => 0) s.tw.follow n
def Ctl.setFollow (s : Ctl) (n v : Nat) : Ctl := s.modTw (fun t => { t with follow := tblPut (fun _ => 0) t.follow n v })

/-- The twin state a slice has now. -/
def Ctl.twinStateNow (s : Ctl) (n : Nat) : Nat :=
  let d := s.domOf n
  if s.pair = Pair.ABSENT || !s.bit (SLC_DOMAIN.ASSIGNED n) || !s.created d then 0
  else if s.followOf n ≠ 0 then Tws.FOLLOW
  else
    let both := s.pairOn && (tblGet (fun _ => none) s.tw.doms d).isSome && !s.tw.diff.contains d
    if s.rd (TWN_MODE.MODE d) = 1 then
      if s.tw.diff.contains d then Tws.SOLO
      else if s.bit (TWN_MODE.ACTING d) then (if both then Tws.PRIMARY else Tws.SOLO)
      else Tws.STANDBY
    else if both && s.sliceOn n && nbit s.tw.slices n && !s.tw.forced.contains n && !s.tw.silver.any (fun x => x.d = d) then
      Tws.COMPARED
    else Tws.SOLO

/-- Set a slice's twin state; one that is no longer COMPARED releases what it holds, in order. -/
def Dev.twinSlice (dv : Dev) (n : Nat) : Dev :=
  let was := dv.ctl.twinState n
  let is := dv.ctl.twinStateNow n
  if was = is then dv
  else
    let dv := dv.onCtl (fun s => s.wr (TWN_SLICE.STATE n) is)
    if was = Tws.COMPARED then (dv.ctl.held.filter (fun h => h.n = n)).foldl Dev.releaseHeld dv else dv

/-! ## Loss of the twin (R316, R317) -/

/-- The first cause found at a slot boundary; 0 where there is none. -/
def Ctl.lossCause (s : Ctl) : Nat :=
  if !s.twinOn || s.pair = Pair.HANDSHAKE then 0
  else if s.tw.lost.isSome then 1
  else if 2 ≤ s.tw.presMiss then 2
  else if s.elapsed s.tw.lastHb (max 2 (s.rd TWN_CTRL.HB_LIMIT)) then 3
  else if !s.twinLinks.isEmpty && s.twinLinks.all s.linkIsDown then 4
  else 0

/-- The twin is declared lost: SOLO, and what follows for MIRROR domains and re-silvering. -/
def Ctl.loseTwin (s : Ctl) (cause : Nat) : Ctl :=
  let s := ((s.setPair Pair.SOLO).wr TWN_STATUS.CAUSE cause).sat TWN_COUNT.LOSSES 1
  let s := s.raise Src.TWIN_LOST {} 0 0 0 cause
  let standby := (List.range 64).filter (fun d => s.created d && s.rd (TWN_MODE.MODE d) = 1 && !s.bit (TWN_MODE.ACTING d))
  let s := if cause = 1 ∨ cause = 2 then s.standbyCause (fun _ => true)
    else standby.foldl (fun s d => s.raise Src.MIRROR_HOLD { domain := some d }) s
  let s := (s.tw.silver.filter (fun x => !x.source)).foldl (fun s x => s.raise Src.RESILVER_FAIL { domain := some x.d }) s
  s.modTw (fun t => { t with hello := none, solo := false, silver := [], revive := none, fill := 0, unacked := [], lost := none,
                             presMiss := 0, links := 0, slices := 0, forced := [] })

/-- Evaluate the causes. -/
def Ctl.twinLoss (s : Ctl) : Ctl := if s.lossCause = 0 then s else s.loseTwin s.lossCause

/-- HEARTBEAT_TIMEOUT (R316). -/
def execHeartbeatTimeout (s : State) : Host.Outcome State Fault Refusal :=
  s.ctlNext (fun c => if c.lossCause = 3 then c.twinLoss else c)

/-- PRESENCE_LOSS (R316): Cirrus samples TWIN_PRES_N. -/
def execPresenceLoss (deasserted : Bool) (s : State) : Host.Outcome State Fault Refusal :=
  s.ctlNext (fun c =>
    let c := c.wrB TWN_STATUS.PRESENT (!deasserted)
    c.modTw (fun t => { t with presMiss := if deasserted then t.presMiss + 1 else 0 }))

/-! ## The mirror stream's receiver (R326-R329) -/

/-- Write bytes of the shard allocation. -/
def Dev.putShard (dv : Dev) (d off : Nat) (bs : List Byte) : Dev :=
  if off + bs.length ≤ dv.ctl.shardBytes d then dv.writeDA ((dv.ctl.shardRange d).1 + off) bs else dv

/-- Count bytes of a re-silver taken. -/
def Ctl.silverTook (s : Ctl) (d k : Nat) : Ctl :=
  s.modTw (fun t => { t with silver := updWhere (fun x => x.d = d && !x.source) (fun x => { x with done := x.done + k }) t.silver })

/-- A follower whose causes have ended, with every write of the stream applied, leaves FOLLOW. -/
def Ctl.followExit (s : Ctl) (n : Nat) : Ctl :=
  if s.followOf n = 16 && s.sliceOn n && !s.tw.collect.any (fun c => c.1 = s.domOf n) then
    (s.setFollow n 0).setSeq n { marks := (s.seqOf n).marks }
  else s

/-- FOLLOW_EXIT (R326). -/
def execFollowExit (n : Fin 64) (s : State) : Host.Outcome State Fault Refusal :=
  s.devNext (fun dv => (dv.onCtl (fun c => c.followExit n.val)).twinSlice n.val)

/-- A mirror write arrives at a slice in FOLLOW or STANDBY. -/
def Dev.takeMirror (dv : Dev) (n : Nat) (bs : List Byte) : Dev :=
  let s := dv.ctl
  let d := s.domOf n
  let w0 := leAt bs 0 8
  let off := nfld w0 0 41
  let w1 := leAt bs 8 4
  let data := bs.drop 16
  if !(s.twinState n = Tws.FOLLOW || s.twinState n = Tws.STANDBY) || s.bit TWN_STATUS.DEGRADED then dv
  else match nfld w0 48 4 with
    | 1 =>
      let dv := dv.onCtl (fun s => s.silverTook d data.length)
      if off < s.dataBase d then dv.onCtl (fun s => s.modTw (fun t => { t with collect := t.collect ++ [(d, off, data)] }))
      else dv.putShard d off data
    | 2 =>
      let lo := w1 * s.recBytes d
      let mine (c : Nat × Nat × List Byte) : Bool := c.1 = d && decide (lo ≤ c.2.1) && decide (c.2.1 < lo + s.recBytes d)
      let dv := (s.tw.collect.filter mine).foldl (fun dv c => dv.putShard d c.2.1 c.2.2) dv
      dv.onCtl (fun s => (s.modTw (fun t => { t with collect := t.collect.filter (fun c => !mine c) })).setChunkSt d w1
        { stamp := leAt data 0 4, prev := leAt data 4 4, cur := (data.getD 8 0).toNat % 2 = 1 })
    | 3 =>
      dv.onCtl (fun s =>
        let s := (s.wr (PST_STEP.COMMITTED d) w1).copyHsets d
        let s := s.modPst d (fun p => { p with acc := {}, nxt := {}, busy := [] })
        (s.slicesOf d).foldl Ctl.followExit s)
    | 4 =>
      dv.onCtl (fun s => (List.range (data.length / 8)).foldl (fun s i =>
        let w := off / 8 + i
        s.modPst d (fun p => { p with hset := tblPut (fun _ => 0) p.hset w (BitVec.ofNat 64 (leAt data (8 * i) 8)) })) s)
    | _ => dv

/-! ## Takeover (R328) -/

/-- TWN_MODE.TAKEOVER on the standby. -/
def Ctl.takeoverWrite (s : Ctl) (d : Nat) : Ctl := s.standbyCause (fun e => e = d)

/-- The standby takes over the domain. -/
def Ctl.takeoverNow (s : Ctl) (d : Nat) : Ctl :=
  let s := s.modTw (fun t => { t with takeover := t.takeover.filter (fun x => x != d), collect := t.collect.filter (fun c => c.1 != d),
                                      nackDoms := t.nackDoms.filter (fun x => x != d) })
  let s := s.wrB (TWN_MODE.ACTING d) true
  let s := s.modPst d (fun p => { p with busy := [], acc := {}, nxt := {}, fp := 0 })
  let s := (s.slicesOf d).foldl (fun s n => s.setUpd n { s.updOf n with queue := [] }) s
  let s := if s.storeOff d then s else s.wr (PST_STATUS.STATE d) 2
  s.raise Src.MIRROR_TAKEOVER { domain := some d }

/-- The next slot begins a period of the domain's live bank. -/
def Ctl.periodEdge (s : Ctl) (d : Nat) : Bool := decide (s.nextPeriod d = s.now + 1)

/-- MIRROR_TAKEOVER (R328): the takeover that waits for the period boundary. -/
def execMirrorTakeover (d : Fin 64) (s : State) : Host.Outcome State Fault Refusal :=
  s.ctlNext (fun c => if c.tw.takeover.contains d.val && c.periodEdge d.val then c.takeoverNow d.val else c)

/-- At a period boundary an acting primary that has lost a stack or a slice of the domain yields: its
slices become STANDBY and answer CONTRIB with LINK_LOST. -/
def Ctl.yieldPrimary (s : Ctl) (d : Nat) : Ctl :=
  let bad := (List.range 16).any (fun k => s.stackState k = 1 || s.stackState k = 2) ||
    (s.slicesOf d).any (fun n => s.bit (SLC_STATE.FAULT_STOP n) && !s.sliceOn n)
  if s.created d && s.rd (TWN_MODE.MODE d) = 1 && s.bit (TWN_MODE.ACTING d) && s.pairOn && bad &&
      (tblGet (fun _ => none) s.tw.doms d).isSome then
    let s := (s.wrB (TWN_MODE.ACTING d) false).modTw (fun t => { t with nackDoms := d :: t.nackDoms })
    (s.slicesOf d).foldl Ctl.dropActive s
  else s

/-! ## Re-silvering, the source (R329) -/

/-- Records of a domain's shard. -/
def Ctl.recCount (s : Ctl) (d : Nat) : Nat := s.dataBase d / max 1 (s.recBytes d)

/-- Send one more piece: first the hyperparameter sets and the committed step, then a record with its
chunk state, then the rest. -/
def Dev.silverPiece (dv : Dev) (x : Silver) : Option (Silver × Dev) :=
  let s := dv.ctl
  let d := x.d
  match s.firstSlice d with
  | none => none
  | some n =>
    let base := (s.shardRange d).1
    let head (s : Ctl) : Ctl :=
      if x.done = 0 ∧ x.rec_ = 0 then
        let hs := (List.range 2048).flatMap (fun w => toBytes 8 (tblGet (fun _ => 0) (s.pstOf d).hset w).toNat)
        let s := (List.range 4).foldl (fun s i => s.sendMirror n d 4 (i * 4096) 0 false ((hs.drop (i * 4096)).take 4096)) s
        s.sendMirror n d 3 0 (s.rd (PST_STEP.COMMITTED d)) true []
      else s
    if x.rec_ < s.recCount d then
      let s := head s
      let s := s.sendMirrorBytes n d (x.rec_ * s.recBytes d) (dv.ram.dramBytes (base + x.rec_ * s.recBytes d) (s.recBytes d))
      let s := s.sendMirrorState n d x.rec_
      let s := s.setUnacked n (s.unackedOf n ++ [x.rec_])
      some ({ x with rec_ := x.rec_ + 1, done := x.done + s.recBytes d }, { dv with ctl := s })
    else if x.byte < x.total then
      let s := head s
      let k := min 8176 (x.total - x.byte)
      let s := s.sendMirror n d 1 x.byte 0 true (dv.ram.dramBytes (base + x.byte) k)
      some ({ x with byte := x.byte + k, done := x.done + k }, { dv with ctl := s })
    else none

/-- What the source may send in a slot: RATE is in units of 100 MB/s, that is 32 bytes a slot, shared
among the domains; without a limit, up to 64 pieces. -/
def Dev.silverStep (dv : Dev) (d : Nat) : Dev :=
  let rate := dv.ctl.rd TWN_SILVER.RATE
  let share := rate * 32 / max 1 (dv.ctl.tw.silver.filter (fun x => x.source)).length
  let go (dv : Dev) : Dev :=
    match dv.ctl.tw.silver.find? (fun x => x.d = d && x.source) with
    | none => dv
    | some x =>
      if rate ≠ 0 ∧ (dv.ctl.slots - x.since) * share < x.done then dv
      else match dv.silverPiece x with
        | none => dv
        | some (y, dv) => dv.onCtl (fun s => s.modTw (fun t => { t with silver := updFirst (fun z => z = x) (fun _ => y) t.silver }))
  iter go 64 dv

/-- Everything of a domain's copy has been sent and acknowledged, or taken. -/
def Ctl.silverOver (s : Ctl) (x : Silver) : Bool :=
  if x.source then x.rec_ = s.recCount x.d && decide (x.total ≤ x.byte) &&
    !s.net.txns.any (fun t => t.req.addr = mirrorAddr && t.req.domain = x.d)
  else decide (x.total ≤ x.done) && !s.tw.collect.any (fun c => c.1 = x.d)

/-- RESILVER_DONE: the copy of a domain ends; the pair is PAIRED when none is left. -/
def Ctl.resilverDone (s : Ctl) (d : Nat) : Ctl :=
  match s.tw.silver.find? (fun x => x.d = d) with
  | none => s
  | some x =>
    if !s.silverOver x then s
    else
      let s := s.modTw (fun t => { t with silver := t.silver.filter (fun y => y.d != d) })
      let s := if x.source then s else (s.slicesOf d).foldl (fun s n => s.setFollow n ((s.followOf n / 2) * 2)) s
      let s := s.raise Src.RESILVER_DONE { domain := some d }
      if s.tw.silver.isEmpty ∧ s.pair = Pair.RESILVER then (s.setPair Pair.PAIRED).modTw (fun t => { t with revive := none }) else s

/-- RESILVER_DONE (R329). -/
def execResilverDone (d : Fin 64) (s : State) : Host.Outcome State Fault Refusal :=
  s.ctlNext (fun c => c.resilverDone d.val)

/-- Progress in TWN_SILVER. -/
def Ctl.silverPublish (s : Ctl) : Ctl :=
  let l := s.tw.silver
  let sum (f : Silver → Nat) : Nat := (l.map f).foldl (· + ·) 0
  let s := (s.wrB TWN_SILVER.ACTIVE (!l.isEmpty)).wrB TWN_SILVER.SOURCE (l.any (fun x => x.source))
  (s.wr TWN_SILVER.DONE_GIB (sum (fun x => x.done) / 2 ^ 30)).wr TWN_SILVER.TOTAL_GIB (cdiv (sum (fun x => x.total)) (2 ^ 30))

/-! ## Fences and sparing (R18, R330-R332) -/

/-- Slices of every created domain enter FOLLOW for a cause, while the device is in twin operation. -/
def Ctl.followAll (s : Ctl) (bit : Nat) (p : Nat → Bool) : Ctl :=
  if !s.pairOn then s
  else ((List.range 64).filter (fun n => s.sliceOn n && s.bit (SLC_DOMAIN.ASSIGNED n) &&
      (tblGet (fun _ => none) s.tw.doms (s.domOf n)).isSome && p (s.domOf n))).foldl
    (fun s n => s.setFollow n (s.followOf n ||| bit ||| 16)) s

/-- What the fence of a die closes off. -/
def Ctl.fenceDie (s : Ctl) (die : Nat) : Ctl :=
  if s.flt.fencing.contains die || s.flt.fenced.contains die then s
  else
    let s := { s with flt := { s.flt with fencing := s.flt.fencing ++ [die] } }
    if die < 18 then
      let ns := (List.range 64).filter (fun n => sliceDie s n = die)
      let s := ns.foldl Ctl.stopSlice s
      s.modTw (fun t => { t with remap := t.remap ++ ns })
    else if die < 26 then
      let ls := (List.range 6).map (fun i => (die - 18) * 6 + i)
      let s := ls.foldl (fun s l => if s.linkLife l = Life.ON ∧ s.linkState l ≠ LanSt.OFF then s.linkDown l 0 else s) s
      let s := ls.foldl (fun s l => s.modLink l (fun k => { k with retrainAt := none })) s
      s.followAll 4 (fun d => ls.any (fun l => nbit (s.rd (DOM_LINKS.LINKS d)) l))
    else if die < 30 then
      (List.range 4).foldl (fun s i => s.stackFail ((die - 26) * 4 + i) (((die - 26) * 4 + i) * 256)) s
    else s

/-- DIE_FENCED (R355): the die has confirmed its fence. -/
def execDieFenced (die : Fin 32) (s : State) : Host.Outcome State Fault Refusal :=
  s.ctlNext (fun c =>
    if c.flt.fencing.contains die.val then
      let c := { c with flt := { c.flt with fencing := c.flt.fencing.filter (fun x => x != die.val), fenced := c.flt.fenced ++ [die.val] } }
      c.raise Src.DIE_FENCED { die := some die.val }
    else c)

/-- DIE_FENCE_FAIL (R355): a die has not confirmed its fence within its time. -/
def execDieFenceFail (die : Fin 32) (s : State) : Host.Outcome State Fault Refusal :=
  s.ctlNext (fun c =>
    if c.flt.fencing.contains die.val then
      let c := { c with flt := { c.flt with fencing := c.flt.fencing.filter (fun x => x != die.val), fenced := c.flt.fenced ++ [die.val] } }
      c.raise Src.DIE_FENCE_FAIL { die := some die.val }
    else c)

/-- The spare that takes a failed die's place: the one already taken, else the lowest unused. -/
def Ctl.spareFor (s : Ctl) (die : Nat) : Option Nat :=
  match s.tw.spares.find? (fun x => x.1 = die) with
  | some x => some x.2
  | none => (List.range 18).find? (fun c =>
      !(List.range 64).any (fun n => sliceDie s n = c) && !s.fuse.retired.contains c && !s.flt.fenced.contains c &&
        !s.flt.fencing.contains c && !s.tw.spares.any (fun x => x.1 = c || x.2 = c))

/-- Remap a slice of a fenced die. With its twin's slice in the domain the tables are copied from there,
which R311 makes equal to its own; else an enable waits for a swap to a newly loaded bank. -/
def Ctl.remap (s : Ctl) (n : Nat) : Ctl :=
  let die := sliceDie s n
  let d := s.domOf n
  let s := s.modTw (fun t => { t with remap := t.remap.filter (fun x => x != n) })
  match s.spareFor die with
  | none => s.raise Src.SPARE_NONE { domain := some d, slice := some n }
  | some c =>
    let s := s.modTw (fun t => if t.spares.any (fun x => x.1 = die) then t else { t with spares := t.spares ++ [(die, c)] })
    let s := (s.wr (SLC_STATE.DIE n) c).wr (SLC_STATE.QUARTER n) (n % 4)
    let s := s.raise Src.SPARE_REMAP { domain := some d, slice := some n, die := some c }
    if s.pairOn && s.bit (SLC_DOMAIN.ASSIGNED n) && (tblGet (fun _ => none) s.tw.doms d).isSome && !s.tw.diff.contains d then
      s.setFollow n 16
    else
      let s := s.modTw (fun t => { t with bare := t.bare ++ [n] })
      if s.created d ∧ s.bit (SLC_DOMAIN.ASSIGNED n) then s.setBankValid d (1 - s.liveBank d) false else s

/-- SPARE_REMAP (R330). -/
def execSpareRemap (n : Fin 64) (s : State) : Host.Outcome State Fault Refusal :=
  s.ctlNext (fun c => if c.tw.remap.contains n.val && c.sliceLife n.val = Life.OFF then c.remap n.val else c)

/-- A stack's loss or return (R332). -/
def Ctl.stackFollow (s : Ctl) : Ctl :=
  let bad := (List.range 16).any (fun k => s.stackState k = 1 || s.stackState k = 2)
  let s := if bad then s.followAll 2 (fun d => s.rd (TWN_MODE.MODE d) = 0)
    else (List.range 64).foldl (fun s n => let f := s.followOf n; if nbit f 1 then s.setFollow n (f - 2) else s) s
  if s.bit MEM_STATUS.DEGRADED && !s.bit TWN_STATUS.DEGRADED && s.pairOn then
    (s.wrB TWN_STATUS.DEGRADED true).raise Src.PAIR_DEGRADED
  else s

/-! ## A slot boundary -/

/-- Acknowledged mirror writes leave the list of their slice; every other completed transaction of the
device's own records is taken (R327). -/
def Ctl.takeDone (s : Ctl) : Ctl :=
  let ds := s.net.done
  let s := { s with net := { s.net with done := [] } }
  ds.foldl (fun s t =>
    if t.req.addr = mirrorAddr ∧ nfld (leAt t.req.payload 0 8) 48 4 = 2 ∧ t.ep < 64 then
      s.setUnacked t.ep ((s.unackedOf t.ep).filter (fun k => k != leAt t.req.payload 8 4))
    else s) s

/-- The twin logic in a new slot; `marks` are the domains whose last slot ended at a step boundary. -/
def Dev.twinSlot (dv : Dev) (marks : List Nat) : Dev :=
  let dv := dv.onCtl (fun s =>
    let s := s.takeDone.pairing.twinLoss.stackFollow.fillRefresh
    let s := s.wr TWN_STATUS.TLINK_UP (b2n (s.linkUp (s.rd TWN_CTRL.LINK0)) + 2 * b2n (s.linkUp (s.rd TWN_CTRL.LINK1)))
    (List.range 64).foldl (fun s n => if marks.contains (s.domOf n) then s.followExit n else s) s)
  let dv := (List.range 64).foldl Dev.twinSlice dv
  let dv := dv.onCtl Ctl.noteEarly
  let dv := dv.ctl.held.foldl Dev.compare dv
  let dv := dv.ctl.held.foldl Dev.sigLate dv
  let dv := (List.range 64).foldl Dev.exclAll dv
  let dv := (dv.ctl.tw.silver.map (fun x => x.d)).foldl Dev.silverStep dv
  dv.onCtl (fun s =>
    let s := (s.tw.silver.map (fun x => x.d)).foldl Ctl.resilverDone s
    s.silverPublish.sendRecords)

end Sys2Proof.Machine
end

