-- ==== Sys2Proof/Machine/Packets.lean ====
section
/-!
DEFINITION. WRITE and READ_REQ packets at their endpoint (R102, R112, R113): memory, the collective
page (R155, R175), slice records (R313) and the mirror stream (R327).
-/

namespace Sys2Proof.Machine

/-- The record of a payload check carries PLACED with the address and length of the bytes that a WRITE
placed before its check failed (R338). -/
def Ctl.notePlaced (s : Ctl) (p : Pkt) : Ctl :=
  let mark (e : Event) : Event :=
    if (e.src = Src.CHK_INGRESS || e.src = Src.CHK_INTERNAL) && e.d5 = p.w1 then
      { e with d6 := p.addr % 2 ^ 57, d7 := p.payload.length + 2 ^ 32 } else e
  let ps := s.flt.pend.map (fun q => { q with first := mark q.first })
  let f : Flt := { s.flt with inflight := s.flt.inflight.map mark, pend := ps }
  let s : Ctl := { s with flt := f }
  s.sat FLT_CHK_COUNT.PLACED 1

/-- A WRITE whose payload check fails leaves the bytes it has placed (R338). -/
def Dev.placeBad (d : Dev) (n : Nat) (x : InPkt) : Dev :=
  let p := x.pkt
  if p.chkGood || d.ctl.inSafe || colPage ≤ p.addr then d
  else
    match d.winWrite (d.ctl.domOf n) p.addr p.payload with
    | (0, d) => d.onCtl (fun s => s.notePlaced p)
    | _ => d

/-- Refuse an access outside the allocation (R272); any other refusal keeps its status. -/
def Dev.boundCheck (d : Dev) (dom a n st : Nat) : Dev :=
  if st = St.DENIED ∧ d.ctl.winOut dom a n then d.onCtl (fun s => s.memBound dom a) else d

/-- The effect of an accepted WRITE with a good tail: its status. -/
def Dev.doWrite (d : Dev) (n : Nat) (p : Pkt) : Nat × Dev :=
  let dom := d.ctl.domOf n
  let o := p.addr - colPage
  if p.addr < colPage then
    if d.ctl.inSafe then (St.DENIED, d)
    else
      let (st, e) := d.winWrite dom p.addr p.payload
      (st, e.boundCheck dom p.addr p.payload.length st)
  else if p.addr = sliceRecAddr then (St.OK, d.onCtl (fun s => s.takeSliceRec n (TwinRec.of p.payload)))
  else if p.addr = mirrorAddr then (if d.ctl.inSafe then (St.DENIED, d) else (St.OK, d.takeMirror n p.payload))
  else if o < 0x8000 ∧ o % 0x40 = 0 ∧ p.payload.length = 64 ∧ p.ackReq then
    let (st, c) := d.ctl.openDyn n (o / 0x40) (fun w => leAt p.payload (8 * w) 8)
    (st, { d with ctl := c })
  else (St.DENIED, d)

/-- The next dynamic ticket of the domain, at its home slice (R175). -/
def Ctl.nextTicket (s : Ctl) (dom : Nat) : Nat × Ctl :=
  let t := s.rd (COL_TICKET.NEXT dom)
  (0x200_0000 + t, s.wr (COL_TICKET.NEXT dom) ((t + 1) % 2 ^ 25))

/-- The effect of an accepted READ_REQ: its status, the bytes read, and whether they are poisoned. -/
def Dev.doRead (d : Dev) (n : Nat) (p : Pkt) : (Nat × List Byte × Bool) × Dev :=
  let dom := d.ctl.domOf n
  if p.addr = colPage + 0x8000 then
    if !d.ctl.bit (COL_TICKET.HOME dom) || d.ctl.rd (COL_TICKET.HOME_SLICE dom) != n then ((St.NOT_FOUND, [], false), d)
    else if p.contrib ≠ 1 then ((St.BAD_PARAM, [], false), d)
    else
      let (t, c) := d.ctl.nextTicket dom
      ((St.OK, toBytes 16 t, false), { d with ctl := c })
  else if p.contrib < 1 ∨ 512 < p.contrib then ((St.BAD_PARAM, [], false), d)
  else if colPage ≤ p.addr ∨ d.ctl.inSafe then ((St.DENIED, [], false), d)
  else
    let (st, bs, po) := d.winRead dom p.addr (16 * p.contrib)
    ((st, bs, po), d.boundCheck dom p.addr (16 * p.contrib) st)

/-- A discarded duplicate is answered, any other discarded packet has been by the screen (R113). -/
def Ctl.discarded (s : Ctl) (e : Nat) (x : InPkt) (c : AliveClass) : Ctl :=
  if c = .duplicate || c = .inProgress then s.answerDup e x c else s

/-- A WRITE at its endpoint. The control dies hold no memory that one could reach. -/
def Dev.takeWrite (d : Dev) (e : Nat) (x : InPkt) : Dev :=
  let p := x.pkt
  let (cls, c) := d.ctl.screen e x
  if !cls.accepted then { d with ctl := c.discarded e x cls }
  else
    let (good, c) := c.tailCheck x
    if !good then
      let d := { d with ctl := c.tailDone e p false }
      if e < 64 then d.placeBad e x else d
    else
      let c := c.tailDone e p true
      if 64 ≤ e then { d with ctl := c.nack (epPort e) x St.DENIED }
      else
        let (st, d) := ({ d with ctl := c } : Dev).doWrite e p
        let d := d.onCtl (fun s =>
          if st ≠ St.OK then s.nack (epPort e) x st
          else if p.ackReq then s.answer e x (rspOf p Typ.READ_RSP St.OK [])
          else s)
        d.pump e

/-- A READ_REQ at its endpoint. -/
def Dev.takeRead (d : Dev) (e : Nat) (x : InPkt) : Dev :=
  let p := x.pkt
  let (cls, c) := d.ctl.screen e x
  if !cls.accepted then { d with ctl := c.discarded e x cls }
  else if p.poison then { d with ctl := c.tailDone e p false }
  else
    let c := c.tailDone e p true
    if 64 ≤ e then { d with ctl := c.nack (epPort e) x St.DENIED }
    else
      let ((st, bs, po), d) := ({ d with ctl := c } : Dev).doRead e p
      d.onCtl (fun s =>
        if st ≠ St.OK then s.nack (epPort e) x st
        else s.answer e x { rspOf p Typ.READ_RSP St.OK bs with poison := po })

/-- Take the head of an endpoint's receive queue if it is a WRITE of a kind. -/
def Dev.takeWriteIf (d : Dev) (e : Nat) (q : Pkt → Bool) : Dev :=
  match d.ctl.popRx e Typ.WRITE with
  | some (x, c) => if q x.pkt then ({ d with ctl := c } : Dev).takeWrite e x else d
  | none => d

/-- WRITE (R102). -/
def execWriteC (ep : Endpoint) (s : State) : Host.Outcome State Fault Refusal :=
  s.devNext (fun d => d.takeWriteIf (epIndex ep) (fun _ => true))

/-- READ_REQ (R102). -/
def execReadReq (ep : Endpoint) (s : State) : Host.Outcome State Fault Refusal :=
  s.devNext (fun d =>
    match d.ctl.popRx (epIndex ep) Typ.READ_REQ with
    | some (x, c) => ({ d with ctl := c } : Dev).takeRead (epIndex ep) x
    | none => d)

/-- A slice record of a KIND (Table TWN-2). -/
def isSliceRec (kind : Nat) (p : Pkt) : Bool := p.addr = sliceRecAddr && nfld (leAt p.payload 0 8) 0 4 = kind

/-- RELEASE_RECORD (R321). -/
def execReleaseRecord (n : Fin 64) (s : State) : Host.Outcome State Fault Refusal :=
  s.devNext (fun d => d.takeWriteIf n.val (isSliceRec 1))

/-- UPDATE_RECORD (R321). -/
def execUpdateRecord (n : Fin 64) (s : State) : Host.Outcome State Fault Refusal :=
  s.devNext (fun d => d.takeWriteIf n.val (isSliceRec 3))

/-- EXCL_RECORD (R325). -/
def execExclRecord (n : Fin 64) (s : State) : Host.Outcome State Fault Refusal :=
  s.devNext (fun d => d.takeWriteIf n.val (isSliceRec 2))

/-- MIRROR_WRITE (R327). -/
def execMirrorWrite (n : Fin 64) (s : State) : Host.Outcome State Fault Refusal :=
  s.devNext (fun d => d.takeWriteIf n.val (fun p => p.addr = mirrorAddr))

end Sys2Proof.Machine
end

