-- ==== Sys2Proof/Machine/Power.lean ====
section
/-!
DEFINITION. Resets and power states (R410-R413, R422, R438): what each reset keeps, the fall to AUX or
to SHUTDOWN, sleep and wake.
-/

namespace Sys2Proof.Machine

/-- Power states (Table MGT-11). -/
def Pwr.AUX : Nat := 0
def Pwr.BOOT : Nat := 1
def Pwr.RUN : Nat := 2
def Pwr.SLEEP : Nat := 3
def Pwr.SAFE : Nat := 4
def Pwr.SHUTDOWN : Nat := 5

/-- Stages (GLB_STATE.STAGE). -/
def Stg.RESET : Nat := 0
def Stg.VERIFY : Nat := 1
def Stg.SELF_TEST : Nat := 2
def Stg.DRAM_TRAIN : Nat := 3
def Stg.LINK_TRAIN : Nat := 4
def Stg.MER_ALIGN : Nat := 5
def Stg.TWIN_HANDSHAKE : Nat := 6
def Stg.READY : Nat := 7
def Stg.SLEEP : Nat := 8
def Stg.ORDERLY_STOP : Nat := 9
def Stg.SAFE : Nat := 10
def Stg.NO_IMAGE : Nat := 11

def Ctl.pwr (s : Ctl) : Nat := s.rd PWR_STATE.STATE
def Ctl.setPwr (s : Ctl) (x : Nat) : Ctl := s.wr PWR_STATE.STATE x
def Ctl.stage (s : Ctl) : Nat := s.rd GLB_STATE.STAGE
def Ctl.setStage (s : Ctl) (x : Nat) : Ctl := s.wr GLB_STATE.STAGE x

/-- The control dies are held in reset: AUX, SHUTDOWN, or BOOT before step 3 (R387, Table ELE-8). -/
def Ctl.diesHeld (s : Ctl) : Bool :=
  s.pwr = Pwr.AUX || s.pwr = Pwr.SHUTDOWN || (s.pwr = Pwr.BOOT && s.stage = Stg.RESET)

/-- TWIN_PRES_OUT_N asserted (R412). -/
def Ctl.presenceOut (s : Ctl) : Bool := s.pwr != Pwr.AUX && s.pwr != Pwr.SHUTDOWN

/-- FAULT_N asserted: the collector's, and while the control dies are held in reset (R410). -/
def Ctl.faultPin (s : Ctl) : Bool := s.bit FLT_STATUS.FAULT_N || s.diesHeld

/-- Copy fields of the old registers into fresh ones. -/
def Ctl.copyFields (old new : Ctl) (fs : List FRef) : Ctl := fs.foldl (fun s f => s.wr f (old.rd f)) new

/-- Fields that Cirrus keeps on VAUX (Table MAP-2). -/
def vauxFields : List FRef :=
  [GLB_BOOT.NEXT, GLB_BOOT.FALLBACK, CIR_STATUS.LAST_SHUTDOWN, CIR_STATUS.FW_RESTARTS]
    ++ (List.range 64).flatMap (fun n => [SLC_STATE.DIE n, SLC_STATE.QUARTER n])

/-- What no reset touches: the fuses, the flash, the TAP and the I3C target on VAUX, the pins, the
model's own time base and counters, and what has left the device. -/
def Ctl.bare (s : Ctl) : Ctl :=
  let m : Mer := { slots := s.mer.slots }
  let h : HostPort := { perst := s.host.perst, connected := s.host.connected }
  { fuse := s.fuse, flash := s.flash, jtag := s.jtag, i3c := s.i3c, sent := s.sent, freeN := s.freeN, mer := m, host := h }

/-- Device reset (Table MAP-2): every register but those kept, every memory and all other state. -/
def Ctl.deviceReset (s : Ctl) : Ctl :=
  let n := s.copyFields s.bare vauxFields
  let t : TwinSt := { spares := s.tw.spares }
  let b : Boot := { tempRec := s.boot.tempRec, voltRec := s.boot.voltRec }
  { n with tw := t, boot := b }

/-- A device reset that ends in a power state; DRAM contents are lost (log entry 6). -/
def Dev.resetTo (d : Dev) (p : Nat) : Dev := { ctl := d.ctl.deviceReset.setPwr p, ram := {} }

/-- RESET with TARGET 0 (R402): VIN_MAIN is in range, so the device starts again in BOOT. -/
def Dev.resetDevice (d : Dev) : Dev := (d.resetTo Pwr.BOOT).onCtl (fun s => s.wrB CIR_STATUS.MAIN_OK true)

/-- The device falls to AUX (R411, R438). -/
def Dev.toAux (d : Dev) : Dev := d.resetTo Pwr.AUX

/-- Cirrus shuts the device down (R410): all but Cirrus and what VAUX keeps is lost. -/
def Dev.shutdown (d : Dev) : Dev :=
  let s := d.ctl
  let n := s.deviceReset.setPwr Pwr.SHUTDOWN
  let n := (s.listed 0x4_0000 0x4_3000).foldl (fun n e => n.setWord e.1 e.2) n
  let n := (n.wrB CIR_STATUS.LAST_SHUTDOWN true).wrB CIR_STATUS.MAIN_OK (s.bit CIR_STATUS.MAIN_OK)
  let b : Boot := { n.boot with tempRec := true }
  { ctl := { n with cir := s.cir, boot := b }, ram := {} }

/-! ## Sleep (R413) -/

/-- Links that SLEEP puts into electrical idle. -/
def Ctl.sleepers (s : Ctl) : List Nat :=
  (List.range 48).filter (fun l => s.linkUp l && !(s.isTwinLink l && s.twinOn) && !s.bit (LNK_CTRL.STAY_AWAKE l))

/-- SLEEP: BUSY unless every slice is OFF. -/
def Ctl.sleep (s : Ctl) : Nat × Ctl :=
  if (List.range 64).any (fun n => s.sliceLife n != Life.OFF) then (St.BUSY, s)
  else if s.pwr ≠ Pwr.RUN then (St.BUSY, s)
  else
    let s := s.sleepers.foldl Ctl.enterIdle s
    let s := s.modMem (fun m => { m with selfRefresh := true })
    (St.OK, (s.setPwr Pwr.SLEEP).setStage Stg.SLEEP)

/-- A wake: self-refresh ends, the idle links wake by R77 or R78, and RUN follows when they, and those
already waking, are UP. -/
def Ctl.wakeDevice (s : Ctl) : Ctl :=
  if s.pwr ≠ Pwr.SLEEP || s.cir.waking.isSome then s
  else
    let ls := (List.range 48).filter (fun l => [LanSt.IDLE, LanSt.WAKE, LanSt.RETUNE].contains (s.linkState l))
    let s := s.modMem (fun m => { m with selfRefresh := false })
    let s := ls.foldl Ctl.startWake s
    { s with cir := { s.cir with waking := some ls } }

/-- The links of a wake have left idle, wake and retune. -/
def Ctl.wakeOver (s : Ctl) : Bool :=
  match s.cir.waking with
  | none => false
  | some ls => ls.all (fun l => !([LanSt.IDLE, LanSt.WAKE, LanSt.RETUNE].contains (s.linkState l)))

/-- RUN again. -/
def Ctl.wakeComplete (s : Ctl) : Ctl :=
  if s.pwr = Pwr.SLEEP ∧ s.wakeOver then
    let s := { s with cir := { s.cir with waking := none } }
    (s.setPwr Pwr.RUN).setStage Stg.READY
  else s

/-- WAKE_COMPLETE (R413). -/
def execWakeComplete (s : State) : Host.Outcome State Fault Refusal := s.ctlNext Ctl.wakeComplete

/-- LOS_DEASSERT (R79): a lane that sees its partner's signal wakes its link, and a sleeping device; in
the safe state links stay squelched. -/
def Ctl.losDeassert (s : Ctl) (l i : Nat) : Ctl :=
  let s := s.wrB (LANE_STATUS.LOS l i) false
  if s.linkState l ≠ LanSt.IDLE ∨ s.inSafe then s
  else
    let s := (s.modLink l (fun k => { k with partnerWoken := true })).startWake l
    s.wakeDevice

/-- LOS_DEASSERT (R79). -/
def execLosDeassert (l : Fin 48) (ln : Fin 8) (s : State) : Host.Outcome State Fault Refusal :=
  s.ctlNext (fun c => c.losDeassert l.val ln.val)

/-! ## Supplies and resets (R410, R411, R438, R442) -/

/-- VAUX_POWER_UP (R422, Table ELE-8 step 1): every register and all state but fuses and flash; a new
random half of the I3C identity is drawn (R443). -/
def Dev.vauxPowerUp (d : Dev) : Dev :=
  let s := d.ctl
  let h : HostPort := { connected := s.host.connected }
  let m : Mer := { slots := s.mer.slots }
  let i : I3c := { pid := s.freeN }
  { ctl := { fuse := s.fuse, flash := s.flash, sent := s.sent, freeN := s.freeN + 1, mer := m, host := h, i3c := i }, ram := {} }

/-- VAUX_POWER_UP (R422). -/
def execVauxPowerUp (s : State) : Host.Outcome State Fault Refusal := s.devNext Dev.vauxPowerUp

/-- VAUX_UNDERVOLTAGE (R438): every regulator off and Cirrus stopped. -/
def execVauxUndervoltage (s : State) : Host.Outcome State Fault Refusal :=
  s.devNext (fun d => d.toAux.onCtl (fun s => s.wrB CIR_STATUS.VAUX_OK false))

/-- VIN_MAIN_UNDERVOLTAGE (R438). -/
def execVinMainUndervoltage (s : State) : Host.Outcome State Fault Refusal :=
  s.devNext (fun d => if d.ctl.pwr = Pwr.AUX then d.onCtl (fun s => s.wrB CIR_STATUS.MAIN_OK false) else d.toAux)

/-- VIN_MAIN_OVERVOLTAGE (R438): as an undervoltage, and VOLT_FAULT at the next boot. -/
def execVinMainOvervoltage (s : State) : Host.Outcome State Fault Refusal :=
  s.devNext (fun d =>
    let d := if d.ctl.pwr = Pwr.AUX then d.onCtl (fun s => s.wrB CIR_STATUS.MAIN_OK false) else d.toAux
    d.onCtl (fun s => { s with boot := { s.boot with voltRec := true } }))

/-- PORST_N_ASSERT (R411, R442): a device reset into AUX. -/
def execPorstNAssert (s : State) : Host.Outcome State Fault Refusal := s.devNext Dev.toAux

/-- A die median at or above 100 °C holds VIN_MAIN's regulators off (R410). -/
def Ctl.regulatorsHeld (s : Ctl) : Bool :=
  (List.range 32).any (fun k => s.bit (CIR_SENSOR.VALID k) && decide (1600 ≤ sext 16 (s.rd (CIR_SENSOR.MEDIAN k))))

/-- VIN_MAIN_IN_RANGE (R411): VIN_MAIN of `mv` millivolts with PORST_N deasserted takes AUX to BOOT. -/
def Ctl.vinInRange (s : Ctl) (mv : Nat) : Ctl :=
  if s.pwr = Pwr.AUX ∧ 10800 ≤ mv ∧ mv ≤ 13200 ∧ !s.regulatorsHeld ∧ s.bit CIR_STATUS.VAUX_OK then
    (s.setPwr Pwr.BOOT).wrB CIR_STATUS.MAIN_OK true
  else s

/-- VIN_MAIN_IN_RANGE (R411). -/
def execVinMainInRange (mv : BitVec 16) (s : State) : Host.Outcome State Fault Refusal :=
  s.ctlNext (fun c => c.vinInRange mv.toNat)

/-! ## The host port (R393, R414-R416) -/

/-- A reset of the host port (Table MAP-2): doorbells, MSI-X table and PBA, and the commands of the
host mailboxes, which end without replies. -/
def Ctl.hostReset (s : Ctl) : Ctl :=
  let running := s.fw.queue.filter (fun c => c.route = 0 && c.taken)
  let s := s.zeroWords (MBX_DOORBELL.addr 0) 16
  let s := if running.isEmpty then s
    else (List.range 64).foldl (fun s d => s.setDomMer d { s.domMer d with checking := none }) s
  let f : Fw := { s.fw with queue := s.fw.queue.filter (fun c => c.route != 0),
                            replaces := s.fw.replaces.map (fun r => if (r.cmd.map MgmtCmd.route) = some 0 then { r with cmd := none } else r),
                            cut := s.fw.cut.filter (fun c => c.route != 0) }
  { s with fw := f, bar2 := s.bar2.filter (fun e => decide (e.1 < 0x8_0000)) }

/-- PERST_N (R393, R415): asserted, the port is in D3cold with its training to come. -/
def Ctl.perstN (s : Ctl) (on : Bool) : Ctl :=
  if on then
    let s := s.hostReset.wr PWR_STATE.HOST_D 3
    let again := s.bit PWR_WAKE_REASON.FAULT || s.bit PWR_WAKE_REASON.CIRRUS || s.bit PWR_WAKE_REASON.MGMT
    let h : HostPort := { s.host with perst := true, training := false }
    { s with host := h, cir := { s.cir with again := again } }
  else { s with host := { s.host with perst := false } }

/-- PERST_N (R393). -/
def execPerstN (asserted : Bool) (s : State) : Host.Outcome State Fault Refusal :=
  s.ctlNext (fun c => c.perstN asserted)

/-- FUNCTION_LEVEL_RESET (R393). -/
def execFunctionLevelReset (s : State) : Host.Outcome State Fault Refusal :=
  s.ctlNext (fun c => c.hostReset.wr PWR_STATE.HOST_D 0)

/-- HOST_LINK_TRAINING_START (R415, R416): the LTSSM leaves Detect; an asserted WAKE_N is released and
the resume coalesced with the reasons recorded. -/
def Ctl.trainingStart (s : Ctl) : Ctl :=
  if s.host.perst then s
  else
    let woke := s.bit PWR_WAKE_REASON.WAKE_N
    let s := { s with host := { s.host with training := true }, cir := { s.cir with again := false } }
    let s := s.wr PWR_STATE.HOST_D 0
    if woke then (s.wrB PWR_WAKE_REASON.WAKE_N false).wrB PWR_WAKE_REASON.COALESCED true else s

/-- HOST_LINK_TRAINING_START (R415). -/
def execHostLinkTrainingStart (s : State) : Host.Outcome State Fault Refusal := s.ctlNext Ctl.trainingStart

/-- WAKE_N_REASSERT (R415): 1 ms after the return to D3cold with reason bits still set. -/
def Ctl.wakeNReassert (s : Ctl) : Ctl :=
  let any := s.bit PWR_WAKE_REASON.FAULT || s.bit PWR_WAKE_REASON.CIRRUS || s.bit PWR_WAKE_REASON.MGMT
  let go := s.cir.again && any && s.rd PWR_STATE.HOST_D = 3 && s.host.connected && !s.host.training
  let s := { s with cir := { s.cir with again := false } }
  if go then s.wrB PWR_WAKE_REASON.WAKE_N true else s

/-- WAKE_N_REASSERT (R415). -/
def execWakeNReassert (s : State) : Host.Outcome State Fault Refusal := s.ctlNext Ctl.wakeNReassert

end Sys2Proof.Machine
end

