-- ==== Sys2Proof/Machine/Cirrus.lean ====
section
/-!
DEFINITION. Cirrus (R403-R410, R417, R418): sensors and their filter, threshold entries and fused
limits, the throttle level, and the fabric stop.
-/

namespace Sys2Proof.Machine

/-! ## Sensors (R403-R405) -/

/-- A board-written sensor (Table MGT-8). -/
def isBoardSensor (i : Nat) : Bool := i = 48 || decide (240 ≤ i)

/-- An index with no sensor. -/
def isReservedSensor (i : Nat) : Bool := decide (83 ≤ i) && decide (i ≤ 95)

def Ctl.sensorValid (s : Ctl) (i : Nat) : Bool := s.bit (CIR_SENSOR.VALID i)
def Ctl.sensorValue (s : Ctl) (i : Nat) : Int := sext 16 (s.rd (CIR_SENSOR.VALUE i))
def Ctl.sensorMedian (s : Ctl) (i : Nat) : Int := sext 16 (s.rd (CIR_SENSOR.MEDIAN i))

/-- The VALID sensor of the highest VALUE among some, the lowest index of equals. -/
def Ctl.hottest (s : Ctl) (l : List Nat) : Option Nat :=
  (l.filter s.sensorValid).foldl (fun b i => match b with
    | none => some i
    | some j => if s.sensorValue j < s.sensorValue i then some i else some j) none

/-- The worst lane's margin of a link (R84). -/
def Ctl.worstMargin (s : Ctl) (f : Nat → FRef) : Nat := listMin 0 (lanes8.map (fun i => s.rd (f i)))

/-- The sample of a sensor that is computed from the device's own registers (Table MGT-8): none where
its sources have no value yet. -/
def Ctl.ownSample (s : Ctl) (i : Nat) : Option Int :=
  if i = 53 then
    (if s.sensorValid 49 ∧ s.sensorValid 50 then some (s.sensorValue 49 * s.sensorValue 50 / 10000) else none)
  else if i = 81 then (s.hottest (List.range 32)).map s.sensorValue
  else if i = 82 then (s.hottest ((List.range 16).map (fun k => 32 + k))).map s.sensorValue
  else if i < 144 then some (s.worstMargin (LANE_STATUS.MARGIN_H (i - 96)))
  else some (s.worstMargin (LANE_STATUS.MARGIN_W (i - 144)))

def isOwnSensor (i : Nat) : Bool := i = 53 || i = 81 || i = 82 || (decide (96 ≤ i) && decide (i ≤ 191))

/-- Third smallest of five. -/
def median5 (l : List Int) : Int := (l.foldl (fun a x => insInt x a) []).getD 2 0

/-- Arithmetic shift right. -/
def ashr (x : Int) (k : Nat) : Int := x / (2 ^ k : Nat)

/-- One sample of a sensor through its filter (R405); true where VALUE is updated. -/
def Ctl.filter (s : Ctl) (i : Nat) (x : Int) : Bool × Ctl :=
  let h := (x :: tblGet (fun _ => []) s.cir.hist i).take 5
  let s := { s with cir := { s.cir with hist := tblPut (fun _ => []) s.cir.hist i h, last := tblPut (fun _ => 0) s.cir.last i s.slots } }
  let s := (s.wr (CIR_SENSOR.RAW i) (ofInt 16 x)).wrB (CIR_SENSOR.FAIL i) false
  if h.length < 5 then (false, s.wrB (CIR_SENSOR.VALID i) false)
  else
    let m := median5 h
    let old := tblGet (fun _ => 0) s.cir.y i
    let y := if s.sensorValid i then old + ashr (m * 256 - old) (s.rd (CIR_SENSOR.K i)) else m * 256
    let s := { s with cir := { s.cir with y := tblPut (fun _ => 0) s.cir.y i y } }
    let s := s.wrB (CIR_SENSOR.VALID i) true
    (true, (s.wr (CIR_SENSOR.MEDIAN i) (ofInt 16 m)).wr (CIR_SENSOR.VALUE i) (ofInt 16 (ashr y 8)))

/-! ## Requests of Cirrus -/

/-- Nothing but Cirrus is powered (Table MGT-11). -/
def Ctl.unpowered (s : Ctl) : Bool := s.pwr = Pwr.AUX || s.pwr = Pwr.SHUTDOWN

/-- Cirrus asks for an orderly stop (R361), for the event it raises. -/
def Ctl.askStop (s : Ctl) (e : Event) : Ctl :=
  if s.inSafe || s.unpowered then s else { s with flt := { s.flt with due := s.flt.due ++ [(4, e)] } }

/-- Cirrus asks for the safe state (R362). -/
def Ctl.askSafe (s : Ctl) (src : Nat) : Ctl :=
  if s.inSafe || s.unpowered || s.flt.safeReq.isSome then s else { s with flt := { s.flt with safeReq := some src } }

/-- An event of Cirrus; the collector runs only outside AUX and SHUTDOWN. -/
def Ctl.cirRaise (s : Ctl) (src d4 : Nat) : Ctl := if s.unpowered then s else s.raise src {} d4

/-! ## Threshold entries (R406, R407) -/

def Ctl.thr (s : Ctl) (i : Nat) : ThrSt := tblGet (fun _ => {}) s.cir.thr i
def Ctl.setThr (s : Ctl) (i c : Nat) : Ctl :=
  { s with cir := { s.cir with thr := tblPut (fun _ => {}) s.cir.thr i { count := c } } }

/-- What an entry does on becoming active. -/
def Ctl.thrAct (s : Ctl) (i d4 : Nat) : Ctl :=
  let src := 912 + i
  let s := s.cirRaise src d4
  if s.unpowered then s
  else
    match s.rd (CIR_THRESH.ACTION i) with
    | 3 => (s.wakeReason PWR_WAKE_REASON.CIRRUS).wakeDevice
    | 4 => s.askStop { src := src, d4 := d4, slot := s.now, cyc := s.cyc }
    | 5 => s.askSafe src
    | _ => s

/-- One evaluation of an entry at a value of its sensor. -/
def Ctl.thrEval (s : Ctl) (i : Nat) (v : Int) : Ctl :=
  let level := sext 16 (s.rd (CIR_THRESH.LEVEL i))
  let hyst : Int := s.rd (CIR_THRESH.HYST i)
  let below := s.bit (CIR_THRESH.DIR i)
  let beyond := if below then decide (v < level) else decide (level < v)
  let inside := if below then decide (level + hyst ≤ v) else decide (v ≤ level - hyst)
  if s.bit (CIR_THRESH.ACTIVE i) then
    if inside then (s.wrB (CIR_THRESH.ACTIVE i) false).setThr i 0 else s
  else if !beyond then s.setThr i 0
  else
    let c := (s.thr i).count + 1
    if c < max 1 (s.rd (CIR_THRESH.HOLD i)) then s.setThr i c
    else ((s.wrB (CIR_THRESH.ACTIVE i) true).setThr i 0).thrAct i (s.rd (CIR_THRESH.SENSOR i) + ofInt 16 v * 65536)

/-- The entries of a sensor, at an update of its VALUE. -/
def Ctl.thrAll (s : Ctl) (sensor : Nat) : Ctl :=
  (List.range 48).foldl (fun s i =>
    if s.bit (CIR_THRESH.ENABLE i) && s.rd (CIR_THRESH.SENSOR i) = sensor then s.thrEval i (s.sensorValue sensor) else s) s

/-- A threshold entry is written: it is evaluated from inactive, and FAULT_N sets PIN of its source. -/
def Ctl.thrRewritten (s : Ctl) (i : Nat) : Ctl :=
  let s := (s.wrB (CIR_THRESH.ACTIVE i) false).setThr i 0
  if s.rd (CIR_THRESH.ACTION i) = 2 then (s.wrB (FLT_ACTION.PIN (912 + i)) true).fltRefresh else s

/-! ## Fused limits (R409, R410) -/

/-- The fused throttle: from 100 °C on any die until every die is below 97 °C. -/
def Ctl.fusedThrottle (s : Ctl) : Ctl :=
  let dies := (List.range 32).filter s.sensorValid
  if s.cir.hot then
    if dies.all (fun k => decide (s.sensorMedian k < 1552)) then { s with cir := { s.cir with hot := false } } else s
  else if dies.any (fun k => decide (1600 ≤ s.sensorMedian k)) then
    ({ s with cir := { s.cir with hot := true } }).cirRaise Src.TEMP_THROTTLE 0
  else s

/-- A core rail outside 0.63-0.87 V for two samples, 10 µs: VOLT_FAULT and the safe state. -/
def Ctl.railCheck (s : Ctl) (g : Nat) : Ctl :=
  let m := s.sensorMedian (54 + g)
  let n := (s.cir.voltOut.filter (fun x => x = g)).length
  if 630 ≤ m ∧ m ≤ 870 then { s with cir := { s.cir with voltOut := s.cir.voltOut.filter (fun x => x != g) } }
  else
    let s := if n < 2 then { s with cir := { s.cir with voltOut := g :: s.cir.voltOut } } else s
    if n = 1 then (s.cirRaise Src.VOLT_FAULT 0).askSafe Src.VOLT_FAULT else s

/-- What follows an update of a sensor's VALUE and MEDIAN. -/
def Dev.sensorUpdated (d : Dev) (i : Nat) : Dev :=
  let d := d.onCtl (fun s =>
    let s := s.thrAll i
    let s := if i = 53 then s.wr PWR_STATE.POWER_W (s.rd (CIR_SENSOR.VALUE 53)) else s
    let s := if i = 81 then s.wr CIR_STATUS.HOTTEST_DIE ((s.hottest (List.range 32)).getD 0) else s
    let s := if i < 32 then s.fusedThrottle else s
    if 54 ≤ i ∧ i ≤ 61 then s.railCheck (i - 54) else s)
  if i < 32 ∧ 1840 ≤ d.ctl.sensorMedian i ∧ d.ctl.pwr ≠ Pwr.AUX ∧ d.ctl.pwr ≠ Pwr.SHUTDOWN then d.shutdown else d

/-- One sample of a sensor. -/
def Dev.sample (d : Dev) (i : Nat) (x : Int) : Dev :=
  let (upd, c) := d.ctl.filter i x
  let d := { d with ctl := c }
  if upd then d.sensorUpdated i else d

/-- A reading fails or goes stale (R404). -/
def Ctl.sensorFail (s : Ctl) (i : Nat) : Ctl := (s.wrB (CIR_SENSOR.FAIL i) true).cirRaise Src.SENSOR_FAIL 0

/-- SENSOR_SAMPLE (R403): Cirrus reads a sensor; `x` is what it reads, none where the reading fails. -/
def Dev.sensorSample (d : Dev) (i : Nat) (x : Option (BitVec 16)) : Dev :=
  if isBoardSensor i || isReservedSensor i then d
  else if isOwnSensor i then
    (match d.ctl.ownSample i with
     | some v => d.sample i v
     | none => d)
  else
    match x with
    | none => d.onCtl (fun s => s.sensorFail i)
    | some v => d.sample i (sext 16 v.toNat)

/-- SENSOR_SAMPLE (R403). -/
def execSensorSample (i : Fin 256) (x : Option (BitVec 16)) (s : State) : Host.Outcome State Fault Refusal :=
  s.devNext (fun d => d.sensorSample i.val x)

/-- SENSOR_FAIL (R404): a board-written sensor has had no sample for 1 s. -/
def execSensorFail (i : Fin 256) (s : State) : Host.Outcome State Fault Refusal :=
  s.ctlNext (fun c => if isBoardSensor i.val then c.sensorFail i.val else c)

/-- REF_OK_SET (R439). -/
def execRefOkSet (s : State) : Host.Outcome State Fault Refusal := s.ctlNext (fun c => c.wrB CIR_STATUS.REF_OK true)

/-- REF_LOSS (R439): REF_OK clears; while links are UP every lane reports PLL_LOL. -/
def Ctl.refLoss (s : Ctl) : Ctl :=
  let up := (List.range 48).any s.linkUp
  let s := s.wrB CIR_STATUS.REF_OK false
  if up then (List.range 48).foldl (fun s l => lanes8.foldl (fun s i => s.pllLol l i true) s) s else s

/-- REF_LOSS (R439). -/
def execRefLoss (s : State) : Host.Outcome State Fault Refusal := s.ctlNext Ctl.refLoss

/-! ## Throttle (R408) -/

/-- The level that the active THROTTLE entries ask for. -/
def Ctl.thrLevel (s : Ctl) : Nat :=
  listMax (((List.range 48).filter (fun i => s.bit (CIR_THRESH.ACTIVE i) && s.rd (CIR_THRESH.ACTION i) = 1)).map
    (fun i => s.rd (CIR_THRESH.TLEVEL i)))

/-- The throttle level in force changes at a slot boundary. -/
def Ctl.throttle (s : Ctl) : Ctl :=
  let f := if s.cir.hot then 4 else 0
  let t := s.thrLevel
  let w := s.rd PWR_THROTTLE.SW_LEVEL
  let level := max f (max t w)
  let s := (s.wr CIR_STATUS.THROTTLE level).wr PWR_STATE.THROTTLE level
  s.wr PWR_STATE.CAUSE (b2n (f != 0) + 2 * b2n (t != 0) + 4 * b2n (w != 0))

/-! ## Fabric stop (R417, R418) -/

/-- tDISC in microseconds. -/
def Ctl.tdisc (s : Ctl) : Nat := min 100 (max 1 (s.rd CIR_FSTOP_CFG.TDISC_MS)) * 1000

/-- The count has reached tDISC. -/
def Ctl.discFault (s : Ctl) : Ctl :=
  if s.bit CIR_FSTOP_STATUS.DISC ∧ s.tdisc ≤ s.rd CIR_FSTOP_STATUS.COUNT_US ∧ !s.bit CIR_FSTOP_STATUS.DISC_FAULT then
    let s := (s.wrB CIR_FSTOP_STATUS.DISC_FAULT true).cirRaise Src.FSTOP_DISC_FAULT (s.rd CIR_FSTOP_STATUS.COUNT_US)
    s.askStop { src := Src.FSTOP_DISC_FAULT, slot := s.now, cyc := s.cyc }
  else s

/-- Both channels are asserted. -/
def Ctl.fstopStop (s : Ctl) : Ctl :=
  if s.bit CIR_FSTOP_STATUS.STOPPED then s
  else
    let s := (s.wrB CIR_FSTOP_STATUS.STOPPED true).cirRaise Src.FSTOP_STOP 0
    s.askStop { src := Src.FSTOP_STOP, slot := s.now, cyc := s.cyc }

/-- A discrepancy ends. -/
def Ctl.discEnd (s : Ctl) : Ctl :=
  let n := s.rd CIR_FSTOP_STATUS.COUNT_US
  if !s.bit CIR_FSTOP_STATUS.DISC then s
  else
    let s := ((s.wrB CIR_FSTOP_STATUS.DISC false).wr CIR_FSTOP_STATUS.COUNT_US 0).wr CIR_FSTOP_STATUS.LAST_US n
    if n < s.tdisc then s.cirRaise Src.FSTOP_DISC n else s

/-- FSTOP_SAMPLE (R417): one sample of both channels, true where asserted. A channel asserted ever
since a reset holds the slice enables and stops nothing (R418). -/
def Ctl.fstopSample (s : Ctl) (a b : Bool) : Ctl :=
  let s := (s.wrB CIR_FSTOP_STATUS.A a).wrB CIR_FSTOP_STATUS.B b
  if s.cir.hold ∧ (a ∨ b) then s.wrB GLB_STATE.FSTOP_HOLD true
  else
    let s := ({ s with cir := { s.cir with hold := false } }).wrB GLB_STATE.FSTOP_HOLD false
    if a ≠ b then
      ((s.wrB CIR_FSTOP_STATUS.DISC true).sat CIR_FSTOP_STATUS.COUNT_US 1).discFault
    else
      let s := s.discEnd
      if a then s.fstopStop else s

/-- FSTOP_SAMPLE (R417). -/
def execFstopSample (a : Bool) (b : Bool) (s : State) : Host.Outcome State Fault Refusal :=
  s.ctlNext (fun c => c.fstopSample a b)

/-- FSTOP_DISC_FAULT (R417): the count has reached tDISC, as rewritten since the last sample. -/
def execFstopDiscFault (s : State) : Host.Outcome State Fault Refusal := s.ctlNext Ctl.discFault

end Sys2Proof.Machine
end

