-- ==== Sys2Proof/Machine/Mailbox.lean ====
section
/-!
DEFINITION. Mailboxes (R377-R386): receiving management commands by the three routes, the checks that
come before an opcode's own, the identifier cache, and replies.
-/

namespace Sys2Proof.Machine

/-! ## Command fields (Table MGT-1) -/

def MgmtCmd.word (c : MgmtCmd) (i : Nat) : Nat := leAt c.bytes (8 * i) 8
def MgmtCmd.major (c : MgmtCmd) : Nat := nfld (c.word 0) 0 8
def MgmtCmd.opcode (c : MgmtCmd) : Nat := nfld (c.word 0) 16 16
def MgmtCmd.plen (c : MgmtCmd) : Nat := nfld (c.word 0) 32 16
def MgmtCmd.flags (c : MgmtCmd) : Nat := nfld (c.word 0) 48 16
def MgmtCmd.reqId (c : MgmtCmd) : Nat := nfld (c.word 1) 0 32
def MgmtCmd.domain (c : MgmtCmd) : Nat := nfld (c.word 1) 32 6
def MgmtCmd.target (c : MgmtCmd) : Nat := nfld (c.word 2) 0 32
/-- The parameter bytes. -/
def MgmtCmd.params (c : MgmtCmd) : List Byte := (c.bytes.drop 32).take c.plen
/-- A little-endian parameter of `n` bytes at offset `o`. -/
def MgmtCmd.par (c : MgmtCmd) (o n : Nat) : Nat := leAt c.params o n

/-- Mailbox of the I3C route, and of a fabric key (R379, R380). -/
def i3cBox : Nat := 16
def fabricBox (p : Pkt) : Nat := 32 + p.srcDev * 256 + p.srcPort

def Ctl.mbox (s : Ctl) (b : Nat) : Mbox := tblGet (fun _ => {}) s.fw.boxes b
def Ctl.setMbox (s : Ctl) (b : Nat) (x : Mbox) : Ctl :=
  { s with fw := { s.fw with boxes := tblPut (fun _ => {}) s.fw.boxes b x } }
def Ctl.modMbox (s : Ctl) (b : Nat) (f : Mbox → Mbox) : Ctl := s.setMbox b (f (s.mbox b))

/-! ## Opcodes (Tables MGT-3, MGT-4) -/

/-- Class, feature bit and first minor version of an opcode. -/
def opcodeInfo (op : Nat) : Option (Nat × Nat × Nat) :=
  match op with
  | 0x01 | 0x02 | 0x03 => some (0, 0, 0)
  | 0x04 => some (6, 9, 3)
  | 0x10 | 0x11 => some (1, 1, 0)
  | 0x20 | 0x21 | 0x22 | 0x23 => some (2, 2, 0)
  | 0x30 | 0x31 | 0x32 => some (3, 3, 0)
  | 0x40 | 0x41 => some (4, 4, 1)
  | 0x50 | 0x51 => some (4, 5, 1)
  | 0x60 => some (7, 8, 0)
  | 0x70 | 0x71 | 0x72 => some (5, 6, 0)
  | 0x80 | 0x81 | 0x82 | 0x83 => some (6, 7, 2)
  | _ => none

/-- The feature bits of a minor version (Table MGT-3). -/
def minorFeats (m : Nat) : Nat :=
  0x14F + (if 1 ≤ m then 0x30 else 0) + (if 2 ≤ m then 0x80 else 0) + (if 3 ≤ m then 0x200 else 0)

/-- The classes that MBX_PERM permits a route (R381). -/
def Ctl.perm (s : Ctl) (route : Nat) : Nat :=
  match route with
  | 0 => s.rd MBX_PERM.HOST
  | 1 => s.rd MBX_PERM.FABRIC
  | _ => s.rd MBX_PERM.I3C

def Ctl.classOk (s : Ctl) (route cls : Nat) : Bool := cls = 0 || nbit (s.perm route) cls

/-! ## Replies (Table MGT-2) -/

/-- What a reply says besides the echoed fields. -/
structure Reply where
  status : Nat := 0
  cached : Nat := 0
  detail : Nat := 0
  detail2 : Nat := 0
  data : List Byte := []
deriving DecidableEq, Repr

def replyBytes (minor : Nat) (c : MgmtCmd) (r : Reply) : List Byte :=
  toBytes 8 (1 + minor <<< 8 + c.opcode <<< 16 + (r.data.length % 65536) <<< 32 + r.status <<< 48 + r.cached <<< 56)
    ++ toBytes 8 (c.reqId + (r.detail % 2 ^ 32) <<< 32) ++ toBytes 8 (r.detail2 % 2 ^ 32) ++ toBytes 8 0 ++ r.data

/-- A reply reaches its mailbox: the BAR2 reply area and doorbell (R378), a MGMT_RSP (R379), or the I3C
reply with its in-band interrupt (R380). -/
def Ctl.sendReply (s : Ctl) (c : MgmtCmd) (r : Reply) : Ctl :=
  let bs := replyBytes (s.mbox c.box).minor c r
  match c.route with
  | 0 =>
    let m := c.box
    let s := s.setBytes2 (m * 0x8000 + 0x4000) bs
    let s := (s.wrB (MBX_DOORBELL.BUSY m) false).wrB (MBX_DOORBELL.DONE m) true
    let s := s.wr (MBX_DOORBELL.STATUS m) r.status
    if s.bit (MBX_DOORBELL.IRQ_EN m) then s.msix (s.rd (MBX_DOORBELL.VECTOR m)) else s
  | 1 => s.answer 64 c.pkt (rspOf c.pkt.pkt Typ.MGMT_RSP r.status (fitBytes (16 * cdiv bs.length 16) bs))
  | _ =>
    let s := { s with fw := { s.fw with i3cReply := bs } }
    let s := s.emit (.reply 2 c.box bs)
    if nbit s.i3c.events 0 then s.emit (.ibi 1) else s

/-- Keep an identifier with its final status and first data bytes among the last 256 (R384). -/
def Ctl.cacheId (s : Ctl) (c : MgmtCmd) (r : Reply) : Ctl :=
  s.modMbox c.box (fun m =>
    let l := m.cache ++ [(c.reqId, r.status, r.data.take 16)]
    { m with cache := l.drop (l.length - 256) })

/-- The first command of a mailbox that equals one leaves the queue. -/
def Ctl.dropCmd (s : Ctl) (c : MgmtCmd) : Ctl :=
  { s with fw := { s.fw with queue := dropFirst (fun x => x = c) s.fw.queue } }

/-- A command that passed check 3 ends with a reply. -/
def Ctl.finishCmd (s : Ctl) (c : MgmtCmd) (r : Reply) : Ctl := ((s.cacheId c r).dropCmd c).sendReply c r

/-! ## Checks 1 to 6 (R383) -/

def routeLimit (route : Nat) : Nat := if route = 2 then 1056 else 8192

/-- Check 1. A packet carries its command padded to whole granules of 16 bytes. -/
def MgmtCmd.formOk (c : MgmtCmd) : Bool :=
  let n := c.bytes.length
  decide (32 ≤ n ∧ n ≤ routeLimit c.route) &&
    n == (if c.route = 1 then 16 * cdiv (32 + c.plen) 16 else 32 + c.plen) &&
    nfld (c.word 1) 38 26 == 0 && nfld (c.word 2) 32 32 == 0 && c.word 3 == 0

/-- What a check decides of a command: it may execute, it is answered without being cached, or it is
answered and cached. -/
inductive Checked where
  | pass
  | refuse (r : Reply)
  | fail (r : Reply)
deriving DecidableEq, Repr

/-- Opcodes that Cirrus answers while the control dies are held (R387). -/
def cirrusOps : List Nat := [0x01, 0x02, 0x03, 0x04]

/-- Opcodes that the boot ROM answers in NO_IMAGE (R398). -/
def romOps : List Nat := [0x01, 0x02, 0x70, 0x71, 0x72]

/-- Checks 1 to 6, in order. -/
def Ctl.checkCmd (s : Ctl) (c : MgmtCmd) : Checked :=
  let m := s.mbox c.box
  let open_ := c.opcode = 0x01 || c.opcode = 0x02
  if !c.formOk then .refuse { status := St.BAD_PARAM }
  else if !open_ && (c.major != 1 || m.other) then .refuse { status := St.BAD_VERSION }
  else
    match m.cache.find? (fun e => e.1 = c.reqId) with
    | some e => .refuse { status := St.DUPLICATE, cached := e.2.1, data := e.2.2 }
    | none =>
      if s.diesHeld && !cirrusOps.contains c.opcode then .fail { status := St.BUSY }
      else
        match opcodeInfo c.opcode with
        | none => .fail { status := St.BAD_OPCODE }
        | some (cls, feat, since) =>
          if m.minor < since then .fail { status := St.BAD_OPCODE }
          else if !nbit m.feats feat then .fail { status := St.UNSUPPORTED }
          else if !s.classOk c.route cls then .fail { status := St.DENIED }
          else .pass

/-! ## The order of execution (R377, R402) -/

/-- The command may be served now: Cirrus alone serves route 2 while the control dies are held, the
boot ROM its opcodes on routes 0 and 2, firmware everything; a mailbox whose MEMBER_REPLACE has not
taken effect waits. -/
def Ctl.servable (s : Ctl) (c : MgmtCmd) : Bool :=
  let free := !s.fw.replaces.any (fun r => (r.cmd.map MgmtCmd.box) = some c.box)
  if s.diesHeld then c.route = 2
  else if s.bit CIR_STATUS.FW_RESTARTING then false
  else if s.fw.rom then c.route != 1 && romOps.contains c.opcode
  else s.fw.up && free

/-- The command that is served next. -/
def Ctl.nextCmd (s : Ctl) : Option MgmtCmd := s.fw.queue.find? s.servable

/-- A BANK_CHECK that starts freezes the bank it names (R47). -/
def Ctl.markCheck (s : Ctl) (c : MgmtCmd) : Ctl :=
  if c.opcode = 0x31 then s.setDomMer c.domain { s.domMer c.domain with checking := some (c.par 0 1) } else s

/-- Answer commands that fail a check, until one passes or none is left. -/
def Ctl.advanceN : Nat → Ctl → Ctl
  | 0, s => s
  | n + 1, s =>
    match s.nextCmd with
    | none => s
    | some c =>
      if c.taken then s
      else
        match s.checkCmd c with
        | .pass => ({ s with fw := { s.fw with queue := updFirst (fun x => x = c) (fun x => { x with taken := true }) s.fw.queue } }).markCheck c
        | .refuse r => Ctl.advanceN n ((s.dropCmd c).sendReply c r)
        | .fail r => Ctl.advanceN n (s.finishCmd c r)

def Ctl.advanceCmds (s : Ctl) : Ctl := Ctl.advanceN (s.fw.queue.length + 1) s

/-- The command now executing, where its opcode is a row's. -/
def Ctl.running (s : Ctl) (op : Nat) : Option MgmtCmd :=
  match s.nextCmd with
  | some c => if c.taken && c.opcode = op then some c else none
  | none => none

/-- A command joins the queue. -/
def Ctl.submit (s : Ctl) (c : MgmtCmd) : Ctl :=
  ({ s with fw := { s.fw with queue := s.fw.queue ++ [c] } }).advanceCmds

/-! ## The host route (R378) -/

/-- MBX_DOORBELL.GO: BUSY drops it; else the command in the request area is submitted. -/
def Ctl.doorbellGo (s : Ctl) (rt m : Nat) : Ctl :=
  if s.bit (MBX_DOORBELL.BUSY m) then s.logRefused rt (MBX_DOORBELL.addr m) 8 St.BUSY
  else
    let s := (s.wrB (MBX_DOORBELL.BUSY m) true).wrB (MBX_DOORBELL.DONE m) false
    s.submit { route := 0, box := m, bytes := s.bytes2 (m * 0x8000) (s.rd (MBX_DOORBELL.LEN m)) }

/-! ## The fabric route (R379) -/

/-- Commands of a mailbox that wait or execute. -/
def Ctl.boxLoad (s : Ctl) (b : Nat) : Nat :=
  (s.fw.queue.filter (fun c => c.box = b)).length + (s.fw.replaces.filter (fun r => (r.cmd.map MgmtCmd.box) = some b)).length

/-- A fabric mailbox that has received nothing for 65,536 slots and executes nothing is freed. -/
def Ctl.expireBox (s : Ctl) (b : Nat) : Ctl :=
  if s.fw.fabric.contains b ∧ s.boxLoad b = 0 ∧ s.elapsed (s.mbox b).last 65536 then
    let s := s.setMbox b {}
    let s := { s with fw := { s.fw with fabric := s.fw.fabric.filter (fun x => x != b) } }
    s.wr MBX_FABRIC.IN_USE s.fw.fabric.length
  else s

/-- MAILBOX_EXPIRY (R379). -/
def execMailboxExpiry (key : MboxKey) (s : State) : Host.Outcome State Fault Refusal :=
  s.ctlNext (fun c => c.expireBox (32 + key.dev.toNat * 256 + key.port.toNat))

/-- A fabric command is refused by a NACK and counted. -/
def Ctl.fabricRefuse (s : Ctl) (x : InPkt) (code : Nat) : Ctl := (s.sat MBX_FABRIC.REFUSED 1).nack 128 x code

/-- A MGMT_CMD packet whose tail is good reaches its mailbox. -/
def Ctl.fabricCmd (s : Ctl) (x : InPkt) : Ctl :=
  let b := fabricBox x.pkt
  let s := s.fw.fabric.foldl Ctl.expireBox s
  let known := s.fw.fabric.contains b
  if !known ∧ 64 ≤ s.fw.fabric.length then s.fabricRefuse x St.NO_SLOT
  else
    let s := if known then s
      else
        let s := { s with fw := { s.fw with fabric := s.fw.fabric ++ [b] } }
        s.wr MBX_FABRIC.IN_USE s.fw.fabric.length
    let s := s.modMbox b (fun m => { m with last := s.slots })
    if 5 ≤ s.boxLoad b then s.fabricRefuse x St.BUSY
    else s.submit { route := 1, box := b, pkt := x, bytes := x.pkt.payload }

/-- OPCODE of a MGMT_CMD packet. -/
def pktOpcode (p : Pkt) : Nat := nfld (leAt p.payload 0 8) 16 16

/-- A MGMT_CMD packet at the control dies: screened, then taken where its tail is good. -/
def Ctl.takeMgmt (s : Ctl) (x : InPkt) (f : Ctl → Ctl) : Ctl :=
  let (cls, s) := s.screen 64 x
  if !cls.accepted then s.discarded 64 x cls
  else
    let (good, s) := s.tailCheck x
    let s := s.tailDone 64 x.pkt good
    if good then f s else s

/-- MGMT_CMD (R379). -/
def execMgmtCmd (s : State) : Host.Outcome State Fault Refusal :=
  s.ctlNext (fun c =>
    match c.popRx 64 Typ.MGMT_CMD with
    | some (x, r) => if pktOpcode x.pkt = 0x60 then c else r.takeMgmt x (fun s => s.fabricCmd x)
    | none => c)

/-- A TWIN_RECORD is taken by the twin logic in hardware (R313), from the twin's device number over a
twin link only (R381). -/
def Ctl.twinRecord (s : Ctl) (x : InPkt) : Ctl :=
  let c : MgmtCmd := { route := 1, box := fabricBox x.pkt, pkt := x, bytes := x.pkt.payload }
  let from_ := s.twinLinks.contains x.inp && (s.twinDev = some x.pkt.srcDev ||
    (s.pair = Pair.SOLO && s.rd (LNK_PARTNER.DEV x.inp) = x.pkt.srcDev))
  if !c.formOk || c.plen != 32 then s.sendReply c { status := St.BAD_PARAM }
  else if !from_ || !s.classOk 1 7 then s.sendReply c { status := St.DENIED }
  else (s.takeDevRec c.params).sendReply c {}

/-- TWIN_RECORD (R313). -/
def execTwinRecord (s : State) : Host.Outcome State Fault Refusal :=
  s.ctlNext (fun c =>
    match c.popRx 64 Typ.MGMT_CMD with
    | some (x, r) => if pktOpcode x.pkt = 0x60 then r.takeMgmt x (fun s => s.twinRecord x) else c
    | none => c)

/-! ## The I3C route (R380) -/

/-- I3C_PRIVATE_WRITE (R380): one command, once an address is assigned. -/
def execI3cPrivateWrite (data : List Byte) (s : State) : Host.Outcome State Fault Refusal :=
  s.ctlNext (fun c => if c.i3c.addr.isSome then c.submit { route := 2, box := i3cBox, bytes := data } else c)

end Sys2Proof.Machine
end

