-- ==== Sys2Proof/Machine/Regs.lean ====
section
/-!
DEFINITION. Register writes (spec/00_scope.md R7, R423-R425 and the registers of every chapter): what
a write makes of each field by its access type, the locks of Table MAP-4, the values that read as
others, and the action of each register that has one.
-/

namespace Sys2Proof.Machine

/-- One aligned register write of 4 or 8 bytes: its route, its BAR0 address, its bytes in their places
in the 64-bit word, and the bits of the word it writes. -/
structure RegWr where
  rt : Nat := 0
  addr : Nat := 0
  size : Nat := 8
  v : Nat := 0
  mask : Nat := 0
deriving DecidableEq, Repr

/-- The write of bytes at an address. -/
def RegWr.of (rt a : Nat) (bs : List Byte) : RegWr :=
  let sh := 8 * (a % 8)
  { rt := rt, addr := a, size := bs.length, v := ofBytes bs <<< sh, mask := (2 ^ (8 * bs.length) - 1) <<< sh }

/-- A write of a whole register. -/
def RegWr.whole (rt a v : Nat) : RegWr := { rt := rt, addr := a, size := 8, v := v, mask := 2 ^ 64 - 1 }

/-- The bits written as 1. -/
def RegWr.ones (w : RegWr) : Nat := w.v &&& w.mask
def RegWr.on (w : RegWr) (i : Nat) : Bool := nbit w.ones i
/-- Some bit of a field is written. -/
def RegWr.covers (w : RegWr) (lo n : Nat) : Bool := nfld w.mask lo n != 0

/-! ## Fields (Table SCP-4) -/

/-- What a write makes of one field. -/
def RegWr.field (w : RegWr) (f : FieldDesc) (old : Nat) : Nat :=
  let m := nfld w.mask f.lo f.w
  let x := nfld w.v f.lo f.w &&& m
  match f.acc with
  | .rw | .rwl => x ||| (old &&& (2 ^ f.w - 1 - m))
  | .w1c => old &&& (2 ^ f.w - 1 - x)
  | .w1s => old ||| x
  | .ro | .wo => old

/-- The word after a write, and whether it would have changed a locked field. -/
def RegWr.merge (w : RegWr) (locked : Bool) (old : W64) (fs : List FieldDesc) : W64 × Bool :=
  fs.foldl (fun acc f =>
    let o := getFld old f.lo f.w
    let n := w.field f o
    if locked && f.acc = Acc.rwl then (acc.1, acc.2 || n != o) else (setFld acc.1 f.lo f.w n, acc.2)) (old, false)

/-! ## Locks (Table MAP-4) -/

/-- The RWL fields of a register are locked. -/
def Ctl.regLocked (s : Ctl) : RegId → Nat → Bool
  | .MER_CTRL, _ => s.mer.goDone
  | .SWX_CTRL, _ => s.sw.go
  | .SWX_VC_WEIGHT, v => s.sw.go || v = 5
  | .TWN_CTRL, _ => s.pair != Pair.ABSENT
  | .LNK_CTRL, l | .LNK_RATE, l | .LNK_REPLAY_CFG, l => !s.linkOff l
  | .SLC_DOMAIN, n | .SLC_QUOTA, n | .MEM_STAGE, n | .COL_SLICE, n => s.sliceLife n != 0
  | .MEM_DOM_SHARD, d | .MEM_DOM_PROG, d | .DOM_LINKS, d | .DOM_RESV, d | .DOM_ARITH, d | .TWN_MODE, d
  | .COL_TICKET, d => s.created d
  | .PST_LAYOUT, d | .PST_SHARD, d | .PST_SEED, d => !s.storeOff d
  | _, _ => false

/-! ## Values that read as others -/

def clampTo (lo hi v : Nat) : Nat := max lo (min hi v)

/-- A field of a word passed through a function. -/
def mapFld (lo w : Nat) (f : Nat → Nat) (x : W64) : W64 := setFld x lo w (f (getFld x lo w))

/-- A written word as the register then reads. -/
def readsAs : RegId → W64 → W64
  | .TWN_CTRL, x => mapFld 32 16 (max 1) (mapFld 24 8 (max 2) x)
  | .CIR_FSTOP_CFG, x => mapFld 0 7 (clampTo 1 100) x
  | .CIR_THRESH, x => mapFld 16 8 (max 1) (mapFld 10 3 (fun a => if 6 ≤ a then 0 else a) x)
  | .SWX_CTRL, x => mapFld 32 16 (max 16) x
  | .SWX_VC_WEIGHT, x => mapFld 0 9 (min 256) x
  | .LNK_REPLAY_CFG, x => mapFld 32 13 (max 8) (mapFld 0 4 (fun a => if 1 ≤ a ∧ a ≤ 8 then a else 8) x)
  | .SLC_DBG_PAGE, x => mapFld 0 3 (fun a => if 6 ≤ a then 0 else a) x
  | .MEM_SCRUB, x => mapFld 8 4 (max 1) (mapFld 0 8 (max 1) x)
  | .SLC_QUOTA, x => mapFld 0 11 (fun a => if a = 0 ∨ 1024 < a then 1024 else a) x
  | .DOM_RESV, x => mapFld 16 9 (min 480) (mapFld 0 9 (min 480) x)
  | .PWR_VSET, x => mapFld 0 10 (clampTo 650 850) x
  | .COL_SLICE, x => mapFld 26 6 (min 32) x
  | .MER_SLOT_CFG, x => mapFld 32 16 (clampTo 250 8000) x
  | _, x => x

/-! ## Refusals of a whole write (Table MAP-3 and the registers' own rules) -/

/-- Table MAP-3 refuses a write of the register from a route. -/
def routeRefuses (rt : Nat) : RegId → Bool
  | .FLT_FW_REPORT => true
  | .MBX_DOORBELL => rt != 0
  | .MBX_PERM | .CIR_STATUS | .CIR_FSTOP_CFG | .CIR_FSTOP_STATUS | .CIR_CTRL | .CIR_SENSOR | .CIR_THRESH
  | .PWR_STATE | .PWR_WAKE_REASON | .PWR_LIMITS | .PWR_THROTTLE | .PWR_VSET => rt == 1
  | _ => false

/-- The status with which a register refuses a write whole; `new` is the word it would hold. -/
def Ctl.regRefusal (s : Ctl) (w : RegWr) (id : RegId) (i : Nat) (old new : W64) : Nat :=
  match id with
  | .LANE_PRBS_CFG | .LANE_PRBS_USER => if s.linkOff i then St.OK else St.DENIED
  | .LANE_INJECT =>
    if !s.linkOff i && ((w.covers 0 2 && getFld new 0 2 = 3) || getFld old 8 8 != getFld new 8 8) then St.DENIED else St.OK
  | .LNK_REPLAY_CFG => if !s.linkOff i && getFld old 32 13 != getFld new 32 13 then St.DENIED else St.OK
  | .FLT_ACTION =>
    if getFld old 16 1 = 1 then St.DENIED
    else if w.covers 12 4 && decide (6 ≤ getFld new 12 4) then St.BAD_PARAM else St.OK
  | _ => St.OK

/-! ## Actions -/

/-- COL_TICKET.HOME: HOME_SET with this device's number (R175). -/
def Ctl.homeOf (s : Ctl) (d : Nat) : Ctl :=
  s.wrB (COL_TICKET.HOME d) (s.bit (COL_TICKET.HOME_SET d) && s.rd (COL_TICKET.HOME_DEV d) == s.rd SWX_CTRL.DEV_NUM)

/-- SWX_CTRL: a write of the low half sets DEV_SET; a GO needs it to have been set before the write
(R149; log entry 62). -/
def Ctl.swxWritten (s : Ctl) (w : RegWr) : Ctl :=
  let known := s.bit SWX_CTRL.DEV_SET
  let s := if w.covers 0 32 && !s.sw.go then s.wrB SWX_CTRL.DEV_SET true else s
  let s := (List.range 64).foldl Ctl.homeOf s
  if !w.on 16 then s
  else if !known then s.logRefused w.rt w.addr w.size St.DENIED
  else { s with sw := { s.sw with go := true } }

/-- SWX_ZENITH.CLEAR. -/
def Ctl.zenithClear (s : Ctl) : Ctl := (s.wr SWX_ZENITH.BUSY 0).wr SWX_ZENITH.MAX_WAIT 0

/-- FLT_CLEAR (R348, R363). -/
def Ctl.fltClear (s : Ctl) (w : RegWr) : Ctl :=
  let s := if w.on 16 then s.clearSource (nfld w.ones 0 10) else s
  let s := if w.on 17 then s.clearAll else s
  let s := if w.on 18 then s.clearFirst else s
  if w.on 19 then s.clearDropped else s

/-- SLC_CTRL: both bits together are refused (R299). -/
def Ctl.sliceCtl (s : Ctl) (n : Nat) (w : RegWr) : Ctl :=
  if w.on 0 && w.on 1 then s.wr (SLC_STATE.LAST_STATUS n) St.BAD_PARAM
  else if w.on 0 then (s.sliceEnable n).2
  else if w.on 1 then (s.sliceDisable n).2
  else s

/-- LNK_LIFE. -/
def Ctl.linkCtl (s : Ctl) (l : Nat) (w : RegWr) : Ctl :=
  if w.on 0 && w.on 1 then s.wr (LNK_LIFE.LAST_STATUS l) St.BAD_PARAM
  else if w.on 0 then (s.linkEnable l).2
  else if w.on 1 then (s.linkDisable l (w.on 2)).2
  else s

/-- SLC_STOP_AT: ARM written 1 arms the stop, written 0 disarms one that has not come; RESUME ends it
(R263, R266). -/
def Ctl.stopWritten (s : Ctl) (n : Nat) (w : RegWr) : Ctl :=
  let s :=
    if !w.covers 34 1 then s
    else if w.on 34 then s.stopArm n
    else if s.stopped n then s
    else (List.range 4).foldl (fun s u => s.modStream n u (fun x => { x with skip := none, stopRun := false })) s
  if w.on 37 then s.resume n else s

/-- PST_CTRL: GO, PAUSE, RESOLVE with RESOLVE_ACT, ROLLBACK (R187, R208-R210). -/
def Dev.pstCtl (d : Dev) (dom : Nat) (w : RegWr) : Dev :=
  let d := if w.on 0 then d.pstGo w.rt dom else d
  d.onCtl (fun c =>
    let c := if w.on 1 then c.pstPause w.rt dom else c
    let c := if w.on 2 then c.pstResolve w.rt dom (c.bit (PST_CTRL.RESOLVE_ACT dom)) else c
    if w.on 4 then c.pstRollback w.rt dom else c)

/-- WAKE_N is deasserted when software has cleared every reason (R415). -/
def Ctl.wakeCleared (s : Ctl) : Ctl :=
  if s.bit PWR_WAKE_REASON.FAULT || s.bit PWR_WAKE_REASON.CIRRUS || s.bit PWR_WAKE_REASON.MGMT then s
  else s.wrB PWR_WAKE_REASON.WAKE_N false

/-- LANE_PRBS_CFG (R81, R82). -/
def Ctl.prbsWritten (s : Ctl) (l i : Nat) (w : RegWr) : Ctl :=
  let s := s.patternState l i
  if w.on 8 then s.prbsClear l i else s

/-- The raw sample of a board sensor: from route 2 it is one sample, from another route it is refused
(R404). -/
def Dev.rawWritten (d : Dev) (i : Nat) (w : RegWr) : Dev :=
  if !boardSensor i || !w.covers 48 16 then d
  else if w.rt = 2 then d.sample i (sext 16 (nfld w.v 48 16))
  else d.onCtl (fun c => c.logRefused w.rt w.addr w.size St.DENIED)

/-- What a register does after a write has been stored. -/
def Dev.regAct (d : Dev) (id : RegId) (i j : Nat) (w : RegWr) : Dev :=
  let on (f : Ctl → Ctl) : Dev := d.onCtl f
  match id with
  | .MER_CTRL => if w.on 1 then on Ctl.alignGo else d
  | .FLT_CLEAR => on (fun c => c.fltClear w)
  | .FLT_CTRL => if w.on 8 then on (fun c => { c with flt := { c.flt with parityTest := true } }) else d
  | .FLT_CHK_COUNT => if w.on 48 then on Ctl.chkClear else d
  | .FLT_FORCE => on (fun c => c.fltForce i w.ones)
  | .FLT_ACTION | .FLT_PIN_EN | .FLT_SRC => on Ctl.fltRefresh
  | .TWN_CTRL => if w.on 17 then on Ctl.twnGo else d
  | .TWN_MODE => if w.on 3 then on (fun c => c.takeoverWrite i) else d
  | .CIR_THRESH => on (fun c => c.thrRewritten i)
  | .CIR_SENSOR => d.rawWritten i w
  | .DOM_ARITH => on (fun c => c.domSig i)
  | .PWR_WAKE_REASON => on Ctl.wakeCleared
  | .PWR_VSET => on (fun c => if w.covers 0 10 && clampTo 650 850 (nfld w.v 0 10) != nfld w.v 0 10 then c.cirRaise Src.VOLT_CLAMP 0 else c)
  | .MBX_DOORBELL => if w.on 16 then on (fun c => c.doorbellGo w.rt i) else d
  | .LNK_LIFE => on (fun c => c.linkCtl i w)
  | .LANE_PRBS_CFG => on (fun c => c.prbsWritten i j w)
  | .LANE_INJECT => if w.on 2 then on (fun c => c.injectGo i j) else d
  | .LANE_MARGIN => if w.on 24 then on (fun c => c.marginGo i j) else d
  | .SWX_CTRL => on (fun c => c.swxWritten w)
  | .SWX_ZENITH => if w.on 48 then on Ctl.zenithClear else d
  | .COL_TICKET => on (fun c => c.homeOf i)
  | .SLC_CTRL => on (fun c => c.sliceCtl i w)
  | .SLC_STOP_AT => on (fun c => c.stopWritten i w)
  | .SLC_NONFINITE => if w.on 63 then on (fun c => c.nonfiniteClear i j) else d
  | .MEM_RETIRE => if w.covers 0 25 then on (fun c => c.retireBySoftware (nfld w.ones 0 25)) else d
  | .PST_CTRL => d.pstCtl i w
  | _ => d

/-! ## The write -/

/-- A write of a register that its route may make. -/
def Dev.regStore (d : Dev) (id : RegId) (i j : Nat) (w : RegWr) : Dev :=
  let a := w.addr / 8 * 8
  let c := d.ctl
  let old := c.word a
  let (merged, bad) := w.merge (c.regLocked id i) old (regFields id)
  let refuse (st : Nat) (c : Ctl) : Ctl := c.logRefused w.rt w.addr w.size st
  match id with
  | .MER_PHASE_NEXT => { d with ctl := c.phaseNextWrite w.rt i (getFld merged 0 2) }
  | .MER_SWAP_AT => { d with ctl := c.swapAtWrite w.rt i (getFld merged 0 56) }
  | .FLT_RING_TAIL =>
    let r := c.ringTail (getFld merged 0 9)
    { d with ctl := if r.1 then refuse St.BAD_PARAM r.2 else r.2 }
  | .LANE_MARGIN =>
    if w.on 24 && c.bit (LANE_MARGIN.BUSY i j) then d
    else ({ d with ctl := c.setWord a merged } : Dev).regAct id i j w
  | _ =>
    let new := readsAs id merged
    let st := c.regRefusal w id i old new
    if st ≠ St.OK then { d with ctl := refuse st c }
    else
      let c := c.setWord a new
      ({ d with ctl := if bad then refuse St.BUSY c else c } : Dev).regAct id i j w

/-- One aligned write of a register (R424: some routes may not write it). -/
def Dev.regWrite (d : Dev) (id : RegId) (i j : Nat) (w : RegWr) : Dev :=
  if routeRefuses w.rt id then d.onCtl (fun c => c.logRefused w.rt w.addr w.size St.DENIED)
  else d.regStore id i j w

/-- The write of a whole register by its name. -/
def Dev.putReg (d : Dev) (id : RegId) (i j : Nat) (rt a v : Nat) : Dev := d.regWrite id i j (RegWr.whole rt a v)

/-- A bit of a written value is 1, as the command says. -/
def withBit (v : W64) (i : Nat) : Nat := v.toNat ||| 2 ^ i

/-! ## The commands that are the write of one register -/

/-- ALIGN_GO (R35): MER_CTRL written with ALIGN_GO. -/
def execAlignGo (rt : Route) (v : W64) (s : State) : Out :=
  s.devNext (fun d => d.putReg .MER_CTRL 0 0 rt.val MER_CTRL.addr (withBit v 1))

/-- PHASE_NEXT_WRITE (R51). -/
def execPhaseNextWrite (rt : Route) (dm : Fin 64) (v : W64) (s : State) : Out :=
  s.devNext (fun d => d.putReg .MER_PHASE_NEXT dm.val 0 rt.val (MER_PHASE_NEXT.addr dm.val) v.toNat)

/-- SWAP_ARM (R51, R52): a write of MER_SWAP_AT with its slot. -/
def execSwapArm (rt : Route) (dm : Fin 64) (slot : BitVec 56) (s : State) : Out :=
  s.devNext (fun d => d.putReg .MER_SWAP_AT dm.val 0 rt.val (MER_SWAP_AT.addr dm.val) slot.toNat)

/-- SWAP_DISARM (R54): a write of 0. -/
def execSwapDisarm (rt : Route) (dm : Fin 64) (s : State) : Out :=
  s.devNext (fun d => d.putReg .MER_SWAP_AT dm.val 0 rt.val (MER_SWAP_AT.addr dm.val) 0)

/-- PATTERN_SELECT (R81): a write of LANE_PRBS_CFG. -/
def execPatternSelect (rt : Route) (l : Fin 48) (ln : Fin 8) (v : W64) (s : State) : Out :=
  s.devNext (fun d => d.putReg .LANE_PRBS_CFG l.val ln.val rt.val (LANE_PRBS_CFG.addr l.val ln.val) v.toNat)

/-- PRBS_CLEAR (R82). -/
def execPrbsClear (rt : Route) (l : Fin 48) (ln : Fin 8) (v : W64) (s : State) : Out :=
  s.devNext (fun d => d.putReg .LANE_PRBS_CFG l.val ln.val rt.val (LANE_PRBS_CFG.addr l.val ln.val) (withBit v 8))

/-- INJECT_GO (R83). -/
def execInjectGo (rt : Route) (l : Fin 48) (ln : Fin 8) (v : W64) (s : State) : Out :=
  s.devNext (fun d => d.putReg .LANE_INJECT l.val ln.val rt.val (LANE_INJECT.addr l.val ln.val) (withBit v 2))

/-- MARGIN_GO (R85). -/
def execMarginGo (rt : Route) (l : Fin 48) (ln : Fin 8) (v : W64) (s : State) : Out :=
  s.devNext (fun d => d.putReg .LANE_MARGIN l.val ln.val rt.val (LANE_MARGIN.addr l.val ln.val) (withBit v 24))

/-- SWX_GO (R149). -/
def execSwxGo (rt : Route) (v : W64) (s : State) : Out :=
  s.devNext (fun d => d.putReg .SWX_CTRL 0 0 rt.val SWX_CTRL.addr (withBit v 16))

/-- ZENITH_CLEAR (R149). -/
def execZenithClear (rt : Route) (v : W64) (s : State) : Out :=
  s.devNext (fun d => d.putReg .SWX_ZENITH 0 0 rt.val SWX_ZENITH.addr (withBit v 48))

/-- PST_GO (R187). -/
def execPstGo (rt : Route) (dm : Fin 64) (v : W64) (s : State) : Out :=
  s.devNext (fun d => d.putReg .PST_CTRL dm.val 0 rt.val (PST_CTRL.addr dm.val) (withBit v 0))

/-- PAUSE (R208). -/
def execPause (rt : Route) (dm : Fin 64) (v : W64) (s : State) : Out :=
  s.devNext (fun d => d.putReg .PST_CTRL dm.val 0 rt.val (PST_CTRL.addr dm.val) (withBit v 1))

/-- RESOLVE (R208, R209). -/
def execResolve (rt : Route) (dm : Fin 64) (v : W64) (s : State) : Out :=
  s.devNext (fun d => d.putReg .PST_CTRL dm.val 0 rt.val (PST_CTRL.addr dm.val) (withBit v 2))

/-- ROLLBACK (R210). -/
def execRollback (rt : Route) (dm : Fin 64) (v : W64) (s : State) : Out :=
  s.devNext (fun d => d.putReg .PST_CTRL dm.val 0 rt.val (PST_CTRL.addr dm.val) (withBit v 4))

/-- STOP_ARM (R263). -/
def execStopArm (rt : Route) (n : Fin 64) (v : W64) (s : State) : Out :=
  s.devNext (fun d => d.putReg .SLC_STOP_AT n.val 0 rt.val (SLC_STOP_AT.addr n.val) (withBit v 34))

/-- RESUME (R266). -/
def execResume (rt : Route) (n : Fin 64) (v : W64) (s : State) : Out :=
  s.devNext (fun d => d.putReg .SLC_STOP_AT n.val 0 rt.val (SLC_STOP_AT.addr n.val) (withBit v 37))

/-- NONFINITE_CLEAR (R267). -/
def execNonfiniteClear (rt : Route) (n : Fin 64) (e : Fin 2) (v : W64) (s : State) : Out :=
  s.devNext (fun d => d.putReg .SLC_NONFINITE n.val e.val rt.val (SLC_NONFINITE.addr n.val e.val) (withBit v 63))

/-- MEM_RETIRE (R280). -/
def execMemRetire (rt : Route) (v : W64) (s : State) : Out :=
  s.devNext (fun d => d.putReg .MEM_RETIRE 0 0 rt.val MEM_RETIRE.addr v.toNat)

/-- SLC_CTRL_ENABLE (R299). -/
def execSlcCtrlEnable (rt : Route) (n : Fin 64) (s : State) : Out :=
  s.devNext (fun d => d.putReg .SLC_CTRL n.val 0 rt.val (SLC_CTRL.addr n.val) 1)

/-- SLC_CTRL_DISABLE (R299). -/
def execSlcCtrlDisable (rt : Route) (n : Fin 64) (s : State) : Out :=
  s.devNext (fun d => d.putReg .SLC_CTRL n.val 0 rt.val (SLC_CTRL.addr n.val) 2)

/-- LNK_LIFE_ENABLE (R299). -/
def execLnkLifeEnable (rt : Route) (l : Fin 48) (s : State) : Out :=
  s.devNext (fun d => d.putReg .LNK_LIFE l.val 0 rt.val (LNK_LIFE.addr l.val) 1)

/-- LNK_LIFE_DISABLE (R299, R305). -/
def execLnkLifeDisable (rt : Route) (l : Fin 48) (force : Bool) (s : State) : Out :=
  s.devNext (fun d => d.putReg .LNK_LIFE l.val 0 rt.val (LNK_LIFE.addr l.val) (if force then 6 else 2))

/-- TWN_GO (R315). -/
def execTwnGo (rt : Route) (v : W64) (s : State) : Out :=
  s.devNext (fun d => d.putReg .TWN_CTRL 0 0 rt.val TWN_CTRL.addr (withBit v 17))

/-- TAKEOVER_REQUEST (R328). -/
def execTakeoverRequest (rt : Route) (dm : Fin 64) (v : W64) (s : State) : Out :=
  s.devNext (fun d => d.putReg .TWN_MODE dm.val 0 rt.val (TWN_MODE.addr dm.val) (withBit v 3))

/-- FLT_FORCE (R358). -/
def execFltForce (rt : Route) (i : Fin 16) (v : W64) (s : State) : Out :=
  s.devNext (fun d => d.putReg .FLT_FORCE i.val 0 rt.val (FLT_FORCE.addr i.val) v.toNat)

/-- FLT_ACTION_WRITE (R354, R364). -/
def execFltActionWrite (rt : Route) (src : Fin 1024) (v : W64) (s : State) : Out :=
  s.devNext (fun d => d.putReg .FLT_ACTION src.val 0 rt.val (FLT_ACTION.addr src.val) v.toNat)

/-- CLEAR_SOURCE (R363). -/
def execClearSource (rt : Route) (v : W64) (s : State) : Out :=
  s.devNext (fun d => d.putReg .FLT_CLEAR 0 0 rt.val FLT_CLEAR.addr (withBit v 16))

/-- CLEAR_ALL (R363). -/
def execClearAll (rt : Route) (v : W64) (s : State) : Out :=
  s.devNext (fun d => d.putReg .FLT_CLEAR 0 0 rt.val FLT_CLEAR.addr (withBit v 17))

/-- CLEAR_FIRST (R348). -/
def execClearFirst (rt : Route) (v : W64) (s : State) : Out :=
  s.devNext (fun d => d.putReg .FLT_CLEAR 0 0 rt.val FLT_CLEAR.addr (withBit v 18))

/-- CLEAR_DROPPED (R352). -/
def execClearDropped (rt : Route) (v : W64) (s : State) : Out :=
  s.devNext (fun d => d.putReg .FLT_CLEAR 0 0 rt.val FLT_CLEAR.addr (withBit v 19))

/-- RING_TAIL_WRITE (R353). -/
def execRingTailWrite (rt : Route) (v : W64) (s : State) : Out :=
  s.devNext (fun d => d.putReg .FLT_RING_TAIL 0 0 rt.val FLT_RING_TAIL.addr v.toNat)

/-- PARITY_TEST (R360). -/
def execParityTest (rt : Route) (v : W64) (s : State) : Out :=
  s.devNext (fun d => d.putReg .FLT_CTRL 0 0 rt.val FLT_CTRL.addr (withBit v 8))

/-- CHK_COUNT_CLEAR (R337). -/
def execChkCountClear (rt : Route) (v : W64) (s : State) : Out :=
  s.devNext (fun d => d.putReg .FLT_CHK_COUNT 0 0 rt.val FLT_CHK_COUNT.addr (withBit v 48))

/-- MBX_DOORBELL_GO (R378). -/
def execMbxDoorbellGo (rt : Route) (m : Fin 16) (v : W64) (s : State) : Out :=
  s.devNext (fun d => d.putReg .MBX_DOORBELL m.val 0 rt.val (MBX_DOORBELL.addr m.val) (withBit v 16))

/-- THRESHOLD_ENTRY_WRITE (R406). -/
def execThresholdEntryWrite (rt : Route) (i : Fin 48) (v : W64) (s : State) : Out :=
  s.devNext (fun d => d.putReg .CIR_THRESH i.val 0 rt.val (CIR_THRESH.addr i.val) v.toNat)

/-- BOOT_CONFIRM (R399): firmware confirms the running image, in route 0's place (R423). -/
def execBootConfirm (v : W64) (s : State) : Out :=
  s.devNext (fun d => d.putReg .GLB_BOOT 0 0 0 GLB_BOOT.addr (withBit v 1))

/-- FW_KICK (R402): the 100 ms watchdog starts again; its expiry is FW_WATCHDOG's arrival. -/
def execFwKick (rt : Route) (v : W64) (s : State) : Out :=
  s.devNext (fun d => d.putReg .CIR_CTRL 0 0 rt.val CIR_CTRL.addr (withBit v 0))

/-- SENSOR_RAW_WRITE (R404): a write of CIR_SENSOR.RAW from route 2, its other fields rewritten. -/
def execSensorRawWrite (i : Fin 256) (raw : BitVec 16) (s : State) : Out :=
  s.devNext (fun d => d.putReg .CIR_SENSOR i.val 0 2 (CIR_SENSOR.addr i.val)
    ((setFld (d.ctl.word (CIR_SENSOR.addr i.val)) 48 16 raw.toNat).toNat))

/-- PWR_VSET_WRITE (R409). -/
def execPwrVsetWrite (rt : Route) (g : Fin 8) (v : W64) (s : State) : Out :=
  s.devNext (fun d => d.putReg .PWR_VSET g.val 0 rt.val (PWR_VSET.addr g.val) v.toNat)

/-- WAKE_REASON_CLEAR (R415). -/
def execWakeReasonClear (rt : Route) (v : W64) (s : State) : Out :=
  s.devNext (fun d => d.putReg .PWR_WAKE_REASON 0 0 rt.val PWR_WAKE_REASON.addr v.toNat)

end Sys2Proof.Machine
end

