-- ==== Sys2Proof/Machine/Windows.lean ====
section
/-!
DEFINITION. The bulk windows, the apertures and BAR2 (R426-R431, R47, R128, R130, R183, R186, R199,
R203, R259, R265), and every access to BAR0 and BAR2 by Table MGT-6.
-/

namespace Sys2Proof.Machine

/-! ## Windows (Table MAP-5) -/

/-- A bulk window, or an unused range, with its unit's number. -/
inductive Win where
  | sched (n : Nat)
  | routing (d : Nat)
  | mgmtRoute
  | domAper
  | desc (n : Nat)
  | groups (d : Nat)
  | stageAper
  | ctlArea (d : Nat)
  | tensors (d : Nat)
  | image (n : Nat)
  | debug (n : Nat)
  | unused (base : Nat)
deriving DecidableEq, Repr

/-- The window that holds a bulk address, and the offset in its burst unit. -/
def winAt (a : Nat) : Win × Nat :=
  let unit (b z : Nat) (f : Nat → Win) : Win × Nat := (f ((a - b) / z), (a - b) % z)
  if a < 0x0500_0000 then unit 0x0100_0000 0x10_0000 Win.sched
  else if a < 0x0580_0000 then unit 0x0500_0000 0x2_0000 Win.routing
  else if a < 0x0580_8000 then (.mgmtRoute, a - 0x0580_0000)
  else if a < 0x05C0_0000 then (.unused 0x0580_8000, a - 0x0580_8000)
  else if a < 0x0600_0000 then (.domAper, a - 0x05C0_0000)
  else if a < 0x0680_0000 then unit 0x0600_0000 0x2_0000 Win.desc
  else if a < 0x0682_0000 then unit 0x0680_0000 0x800 Win.groups
  else if a < 0x06C0_0000 then (.unused 0x0682_0000, a - 0x0682_0000)
  else if a < 0x0700_0000 then (.stageAper, a - 0x06C0_0000)
  else if a < 0x0800_0000 then unit 0x0700_0000 0x4_0000 Win.ctlArea
  else if a < 0x0A00_0000 then unit 0x0800_0000 0x8_0000 Win.tensors
  else if a < 0x0C00_0000 then unit 0x0A00_0000 0x8_0000 Win.image
  else unit 0x0C00_0000 0x10_0000 Win.debug

/-- A write that a window refuses: dropped, completed normally, logged as a NOTE. -/
def Dev.refuse (d : Dev) (rt a n st : Nat) : Dev := d.onCtl (fun c => c.logRefused rt a n st)

/-- A write of bytes to bank `k` of a domain, where the bank accepts it. -/
def Dev.bankPut (d : Dev) (rt : Nat) (dom : Option Nat) (k a : Nat) (bs : List Byte) : Dev :=
  let st := d.ctl.bankGate dom k
  if st ≠ St.OK then d.refuse rt a bs.length st
  else d.onCtl (fun c => c.bankStore (dom.getD 0) k a bs)

/-- A routing-table word: its parity is good once it is written. -/
def Dev.routePut (d : Dev) (rt dom k a : Nat) (bs : List Byte) : Dev :=
  let ok := d.ctl.bankGate (some dom) k = St.OK
  let d := d.bankPut rt (some dom) k a bs
  if ok then d.onCtl (fun c => { c with sw := { c.sw with badParity := c.sw.badParity.filter (fun x => x != a / 8 * 8) } }) else d

/-- An entry of the management route table: one aligned 64-bit write replaces it; of two 32-bit writes,
the high half's takes effect, with the low half last written (R130). -/
def Ctl.mgmtRoutePut (s : Ctl) (a : Nat) (bs : List Byte) : Ctl :=
  let i := (a - 0x0580_0000) / 8
  let w := a / 8 * 8
  let put (v : Nat) (s : Ctl) : Ctl :=
    { s.wrWord w (v % 2 ^ 64 &&& 0x7F3F) with routeLow := tblPut (fun _ => none) s.routeLow i none }
  if bs.length = 8 then put (ofBytes bs) s
  else if a % 8 = 0 then { s with routeLow := tblPut (fun _ => none) s.routeLow i (some (ofBytes bs)) }
  else put ((tblGet (fun _ => none) s.routeLow i).getD (s.rdWord w % 2 ^ 32) + ofBytes bs * 2 ^ 32) s

/-- A live descriptor: scheduled ones are read-only, and one OPEN is not written; the write of word 7
opens a dynamic one (R155, R183). -/
def Dev.livePut (d : Dev) (rt n i a : Nat) (bs : List Byte) : Dev :=
  let c := d.ctl
  if i < c.schedLimit n then d.refuse rt a bs.length St.DENIED
  else if c.opOpen (opKey n i) then d.refuse rt a bs.length St.BUSY
  else
    let c := c.setBytes a bs
    if a % 64 + bs.length = 64 then
      let (st, c) := c.openDyn n i (fun w => c.rdWord (liveDescAddr n i w))
      let d : Dev := { d with ctl := c }
      if st = St.OK then d.pump n else d.refuse rt a bs.length st
    else { d with ctl := c }

/-- Templates and live descriptors of a slice. -/
def Dev.descPut (d : Dev) (rt n o a : Nat) (bs : List Byte) : Dev :=
  if o < 0x1_0000 then d.bankPut rt (d.ctl.sliceDom n) (o / 0x8000) a bs
  else if o < 0x1_8000 then d.livePut rt n ((o - 0x1_0000) / 64) a bs
  else d

/-- An OPEN dynamic operation of the device names group `g` of the domain (R174). -/
def Ctl.groupBusy (s : Ctl) (d g : Nat) : Bool :=
  s.ops.any (fun e => !e.2.sched && s.opOpen e.1 && s.domOf (e.1 / 512) == d && (s.opDesc e.1).group == g)

/-- A group entry: VALID and OVERLAP. -/
def Dev.groupPut (d : Dev) (rt dom o a : Nat) (bs : List Byte) : Dev :=
  if d.ctl.groupBusy dom (o / 8) then d.refuse rt a bs.length St.BUSY
  else if a % 8 = 0 then d.onCtl (fun c => c.wrWord a (ofBytes bs % 4))
  else d

/-- Bits of a hyperparameter word that are not reserved (Table PST-5). -/
def hsetBits (w : Nat) : Nat := if w = 4 then 0xFFFF_FFFF_0000_00FF else if w = 7 then 0xFFFF_FFFF else 2 ^ 64 - 1

/-- A word of a pending hyperparameter set: word 7 sets READY, every other clears it (R199). -/
def Ctl.hsetPut (s : Ctl) (d h w : Nat) (x : RegWr) : Ctl :=
  let a := hsetAddr d h w
  let old := s.rdWord a
  let v := (x.v &&& x.mask ||| (old &&& (2 ^ 64 - 1 - x.mask))) &&& hsetBits w
  let s := s.wrWord a v
  s.wrB ⟨hsetAddr d h 7, 32, 1⟩ (w == 7)

/-- The control area of a domain (R430). -/
def Dev.ctlPut (d : Dev) (rt dom o a : Nat) (bs : List Byte) : Dev :=
  if 0x100 ≤ o ∧ o < 0x160 then
    let k := if o < 0x120 then 0 else if o < 0x140 then 1 else if o < 0x150 then 0 else 1
    d.bankPut rt (some dom) k a bs
  else if 0x4000 ≤ o ∧ o < 0x8000 then
    d.onCtl (fun c => c.hsetPut dom ((o - 0x4000) / 64) ((o - 0x4000) % 64 / 8) (RegWr.of rt a bs))
  else match regAt (a / 8 * 8) with
    | some (id, i, j) => d.regWrite id i j (RegWr.of rt a bs)
    | none => d

/-- The tensor table of a domain. -/
def Dev.tensorPut (d : Dev) (rt dom a : Nat) (bs : List Byte) : Dev :=
  if d.ctl.storeOff dom then d.onCtl (fun c => c.setBytes a bs) else d.refuse rt a bs.length St.BUSY

/-- Program images of a slice (R259, R262). -/
def Dev.imagePut (d : Dev) (rt n o a : Nat) (bs : List Byte) : Dev :=
  let k := o / 0x4_0000
  if 0x2_C000 ≤ o % 0x4_0000 then d
  else if d.ctl.bankGate (d.ctl.sliceDom n) k = St.OK ∧ d.ctl.imageInUse n k then d.refuse rt a bs.length St.BUSY
  else d.bankPut rt (d.ctl.sliceDom n) k a bs

/-! ## Apertures (R427, R428) -/

/-- The domain window address of aperture offset 0 of a route. -/
def Ctl.aperBase (s : Ctl) (rt : Nat) : Nat :=
  s.rd (MEM_APER_DOM.ADDR_HI rt) * 2 ^ 32 + s.rd (MEM_APER_DOM.ADDR_LO rt) * 2 ^ 22

/-- The aperture of a route reaches no memory. -/
def Ctl.aperShut (s : Ctl) (rt a : Nat) : Bool :=
  !s.bit (MEM_APER_DOM.ENABLE rt) || !s.created (s.rd (MEM_APER_DOM.DOMAIN rt)) || decide (colPage ≤ a) || s.inSafe

def Dev.aperPut (d : Dev) (rt o a : Nat) (bs : List Byte) : Dev :=
  let w := d.ctl.aperBase rt + o
  let dom := d.ctl.rd (MEM_APER_DOM.DOMAIN rt)
  if d.ctl.aperShut rt w then d.refuse rt a bs.length St.DENIED
  else
    let (st, e) := d.winWrite dom w bs
    let e := e.boundCheck dom w bs.length st
    if st = St.OK then e else e.refuse rt a bs.length st

def Dev.aperGet (d : Dev) (rt o a n : Nat) : List Byte × Dev :=
  let w := d.ctl.aperBase rt + o
  let dom := d.ctl.rd (MEM_APER_DOM.DOMAIN rt)
  let zero := List.replicate n (0 : Byte)
  if d.ctl.aperShut rt w then (zero, d.refuse rt a n St.DENIED)
  else
    let (st, bs, _) := d.winRead dom w n
    if st = St.OK then (bs, d) else (zero, (d.boundCheck dom w n st).refuse rt a n st)

/-- The area of Table MEM-5 that holds a staging byte. -/
def Ctl.stageArea (s : Ctl) (n o : Nat) : Nat :=
  if o < s.progArea n then 0 else if o < dynBase s n then 1 else if o < 32 * 2 ^ 20 then 2 else if o < 34 * 2 ^ 20 then 3 else 4

/-- Report an error of a staging word (R284). -/
def Ctl.stageReport (s : Ctl) (src n o : Nat) : Ctl :=
  s.raiseSlice src n none (s.stageArea n o + (o / 32 * 32) * 2 ^ 32)

/-- The slice's engine state and staging may be read: HALTED or OFF. -/
def Ctl.readableSlice (s : Ctl) (n : Nat) : Bool := s.bit (SLC_STOP_AT.HALTED n) || s.sliceLife n == 0

/-- Some of the bytes lie outside the program area, where the layout of what the device keeps is not
stated (log entry 79). -/
def Ctl.stageOpen (s : Ctl) (n o k : Nat) : Bool := (List.range k).any (fun i => s.stageArea n (o + i) != 0)

/-- Bytes of staging as a reader sees them: those of the program area, and free values elsewhere. -/
def Ctl.stageSeen (s : Ctl) (r : Ram) (n o k : Nat) : List Byte :=
  (List.range k).map (fun i =>
    if s.stageArea n (o + i) = 0 then r.stageByte n (o + i) else (Config.freeWord s.freeN i).setWidth 8)

def Dev.stageGet (d : Dev) (rt o a n : Nat) : List Byte × Dev :=
  let c := d.ctl
  let sl := c.rd (MEM_APER_STAGE.SLICE rt)
  let b := c.rd (MEM_APER_STAGE.STAGE_OFF rt) * 2 ^ 22 + o
  let zero := List.replicate n (0 : Byte)
  if !c.bit (MEM_APER_STAGE.ENABLE rt) || decide (stagingBytes < b + n) then (zero, d)
  else if !c.readableSlice sl then (zero, d.refuse rt a n St.DENIED)
  else
    let d := if c.stageOpen sl b n then d.onCtl (fun c => c.fresh.2) else d
    (c.stageSeen d.ram sl b n, if c.stageBad sl b n then d.onCtl (fun c => c.stageReport (Src.SLC_UNCORRECTED sl) sl b) else d)

/-! ## The debug window (Table SLC-12) -/

/-- A byte of an operand tile: its rows in order, as staging holds them; where scales and the space
behind shorter codes show is not stated, a free value. -/
def Tile.byte (x : Tile) (k free : Nat) : Byte :=
  let code (i : Nat) : Nat := x.codes.getD i 0
  match x.fmt with
  | 3 => if k < 16384 then BitVec.ofNat 8 (code k) else (Config.freeWord free k).setWidth 8
  | 4 => if k < 8192 then BitVec.ofNat 8 (code (2 * k) % 16 + code (2 * k + 1) % 16 * 16) else (Config.freeWord free k).setWidth 8
  | _ => (toBytes 2 (code (k / 2))).getD (k % 2) 0

/-- A byte of the page selected by SLC_DBG_PAGE. -/
def Ctl.dbgPage (s : Ctl) (n o : Nat) : Byte :=
  let p := s.rd (SLC_DBG_PAGE.PAGE n)
  let e := s.engOf n
  let byte4 (v i : Nat) : Byte := (toBytes 4 v).getD i 0
  if p < 4 then
    let t := 256 * (16 * p + o / 0x8000) + o % 0x400 / 4
    byte4 ((tblGet (fun _ => []) e.vregs (o % 0x8000 / 0x400)).getD t 0) (o % 4)
  else if o < 0x4_0000 then (s.tile n (p - 4) (o / 0x8000)).byte (o % 0x8000) s.freeN
  else
    let o := o - 0x4_0000
    byte4 ((tblGet (fun _ => []) e.accs (4 * (p - 4) + o / 0x1_0000)).getD (o % 0x1_0000 / 4) 0) (o % 4)

/-- A byte of the debug window. -/
def Ctl.dbgByte (s : Ctl) (n o : Nat) : Byte :=
  let of8 (v : Nat) : Byte := (toBytes 8 v).getD (o % 8) 0
  if o < 0x100 then of8 (s.reg n 2 (o / 8)).toNat
  else if o < 0x280 then
    let t := (o - 0x100) / 0x80
    of8 (s.reg n (if t = 2 then 3 else t) (o % 0x80 / 8)).toNat
  else if 0x400 ≤ o ∧ o < 0x600 then of8 (s.sem n ((o - 0x400) / 8))
  else if 0x2000 ≤ o ∧ o < 0x4000 then
    let bit (t p : Nat) : Nat := b2n ((tblGet (fun _ => []) (s.engOf n).preds p).getD t false)
    let nib (t : Nat) : Nat := bit t 0 + 2 * bit t 1 + 4 * bit t 2 + 8 * bit t 3
    BitVec.ofNat 8 (nib (2 * (o - 0x2000)) + 16 * nib (2 * (o - 0x2000) + 1))
  else if 0x4_0000 ≤ o ∧ o < 0x8_0000 then s.dmemByte n (o - 0x4_0000)
  else if 0x8_0000 ≤ o then s.dbgPage n (o - 0x8_0000)
  else 0

def Dev.dbgGet (d : Dev) (rt n o a len : Nat) : List Byte × Dev :=
  if d.ctl.readableSlice n then
    ((List.range len).map (fun i => d.ctl.dbgByte n (o + i)),
      if 0x8_0000 ≤ o ∧ 4 ≤ d.ctl.rd (SLC_DBG_PAGE.PAGE n) then d.onCtl (fun c => c.fresh.2) else d)
  else (List.replicate len 0, d.refuse rt a len St.DENIED)

/-! ## One access within a window -/

/-- A write of one aligned register or entry of a bulk window (R392). -/
def Dev.winPut (d : Dev) (rt a : Nat) (bs : List Byte) : Dev :=
  match winAt a with
  | (.sched n, o) => d.bankPut rt (d.ctl.sliceDom n) (o / 0x8_0000) a bs
  | (.routing dom, o) => if o % 0x1_0000 < 0x8180 then d.routePut rt dom (o / 0x1_0000) a bs else d
  | (.mgmtRoute, _) => d.onCtl (fun c => c.mgmtRoutePut a bs)
  | (.domAper, o) => d.aperPut rt o a bs
  | (.desc n, o) => d.descPut rt n o a bs
  | (.groups dom, o) => d.groupPut rt dom o a bs
  | (.stageAper, _) => d.refuse rt a bs.length St.DENIED
  | (.ctlArea dom, o) => d.ctlPut rt dom o a bs
  | (.tensors dom, _) => d.tensorPut rt dom a bs
  | (.image n, o) => d.imagePut rt n o a bs
  | (.debug _, _) => d.refuse rt a bs.length St.DENIED
  | (.unused _, _) => d

/-- A read within one 64-bit word of a bulk window. -/
def Dev.winGet (d : Dev) (rt a n : Nat) : List Byte × Dev :=
  match winAt a with
  | (.domAper, o) => d.aperGet rt o a n
  | (.stageAper, o) => d.stageGet rt o a n
  | (.debug sl, o) => d.dbgGet rt sl o a n
  | _ => (((d.ctl.wordBytes (a / 8 * 8) 1).drop (a % 8)).take n, d)

/-! ## BAR2 (Table MAP-21) -/

/-- The burst unit of a BAR2 address: an area of a mailbox, the MSI-X table, the PBA, or an unused
range. -/
def unit2 (a : Nat) : Nat :=
  if a < 0x8_0000 then a / 0x4000
  else if a < 0x8_0400 then 100 else if a < 0x8_1000 then 101 else if a < 0x8_1008 then 102 else 103

/-- The bits of an MSI-X table byte that can be written: of vector control, the mask bit. -/
def msixBits (a : Nat) (b : Byte) : Byte := if a % 16 = 12 then b &&& 1 else if 12 < a % 16 then 0 else b

def Ctl.msixPut (s : Ctl) (a : Nat) (bs : List Byte) : Ctl :=
  let s := s.setBytes2 a ((List.range bs.length).map (fun i => msixBits (a + i) (bs.getD i 0)))
  let v := (a - 0x8_0000) / 16
  let pba := s.byte2 (0x8_1000 + v / 8)
  -- an unmasked vector with its pending bit set sends its message
  if !nbit (s.byte2 (0x8_0000 + 16 * v + 12)).toNat 0 && nbit pba.toNat (v % 8) then
    (s.setByte2 (0x8_1000 + v / 8) (pba ^^^ (1 <<< (v % 8) : Byte))).msix v
  else s

def Ctl.put2 (s : Ctl) (rt a : Nat) (bs : List Byte) : Ctl :=
  let u := unit2 a
  if rt ≠ 0 ∧ (u < 101 ∨ u = 102) then s.logRefused rt a bs.length St.DENIED
  else if u < 32 then
    if u % 2 = 1 then s.logRefused rt a bs.length St.DENIED
    else if s.bit (MBX_DOORBELL.BUSY (u / 2)) then s.logRefused rt a bs.length St.BUSY
    else s.setBytes2 a bs
  else if u = 100 then s.msixPut a bs
  else s

def Ctl.get2 (s : Ctl) (rt a n : Nat) : List Byte × Ctl :=
  let u := unit2 a
  if rt ≠ 0 ∧ (u = 100 ∨ u = 102) then (List.replicate n 0, s.logRefused rt a n St.DENIED)
  else if u < 32 ∨ u = 100 ∨ u = 102 then (s.bytes2 a n, s)
  else (List.replicate n 0, s)

/-! ## Every access (Table MGT-6) -/

/-- The requester of a read: a route, and on the fabric the peer (R34). -/
abbrev Peer := Nat × Nat

/-- A 32-bit read of MER_NOW latches the high half, or returns the latched one (R34). -/
def Ctl.nowRead (s : Ctl) (p : Peer) (high : Bool) : Nat × Ctl :=
  let drop := s.mer.latch.filter (fun e => e.1 != p)
  if high then
    match s.mer.latch.find? (fun e => e.1 == p) with
    | some e => (e.2, { s with mer := { s.mer with latch := drop } })
    | none => (s.now / 2 ^ 32, s)
  else (s.now % 2 ^ 32, { s with mer := { s.mer with latch := drop ++ [(p, s.now / 2 ^ 32)] } })

/-- A read within one 64-bit word of control space; `full` for one of 4 or 8 bytes, which may latch. -/
def Ctl.ctlGet (s : Ctl) (p : Peer) (a n : Nat) (full : Bool) : List Byte × Ctl :=
  if full && n = 4 && a / 8 * 8 = MER_NOW.addr then
    let (v, s) := s.nowRead p (a % 8 = 4)
    (toBytes 4 v, s)
  else
    match regAt (a / 8 * 8) with
    | some _ => (((s.wordBytes (a / 8 * 8) 1).drop (a % 8)).take n, s)
    | none => (List.replicate n 0, s)

/-- A write of 4 or 8 aligned bytes. -/
def Dev.piecePut (d : Dev) (rt : Nat) (bar : Bar) (a : Nat) (bs : List Byte) : Dev :=
  match bar with
  | .bar2 => d.onCtl (fun c => c.put2 rt a bs)
  | .bar0 =>
    if 0x0100_0000 ≤ a then d.winPut rt a bs
    else match regAt (a / 8 * 8) with
      | some (id, i, j) => d.regWrite id i j (RegWr.of rt a bs)
      | none => d.refuse rt a bs.length St.NOT_FOUND

/-- A read within one 64-bit word. -/
def Dev.pieceGet (d : Dev) (p : Peer) (bar : Bar) (a n : Nat) (full : Bool) : List Byte × Dev :=
  match bar with
  | .bar2 => let (bs, c) := d.ctl.get2 p.1 a n; (bs, { d with ctl := c })
  | .bar0 =>
    if 0x0100_0000 ≤ a then d.winGet p.1 a n
    else let (bs, c) := d.ctl.ctlGet p a n full; (bs, { d with ctl := c })

/-- What Table MGT-6 makes of an access: one aligned access of 4 or 8 bytes, a narrow one, a burst, an
Unsupported Request, or one wholly in an unused range. -/
inductive AccKind where
  | single | narrow | burst | unsupported | unused
deriving DecidableEq, Repr

def accKind (bar : Bar) (a n : Nat) (contiguous : Bool) : AccKind :=
  let top := match bar with | .bar0 => 0x1000_0000 | .bar2 => 0x10_0000
  let aligned := contiguous && decide (0 < n) && decide (a % n = 0)
  if n = 0 ∨ top < a + n then .unsupported
  else if aligned && (n = 1 || n = 2) then .narrow
  else if bar = .bar0 ∧ a < 0x0100_0000 then (if aligned && (n = 4 || n = 8) then .single else .unsupported)
  else
    let one := match bar with
      | .bar0 => (winAt a).1 == (winAt (a + n - 1)).1
      | .bar2 => unit2 a == unit2 (a + n - 1)
    let gone := bar = .bar0 && (match (winAt a).1 with | .unused _ => true | _ => false)
    if !contiguous || a % 4 ≠ 0 || n % 4 ≠ 0 || !one then .unsupported
    else if gone then .unused
    else if aligned && (n = 4 || n = 8) then .single else .burst

/-- The aligned pieces of a burst: offset and length, ascending (R392). -/
def pieces : Nat → Nat → Nat → List (Nat × Nat)
  | 0, _, _ => []
  | f + 1, a, n =>
    if n = 0 then []
    else
      let k := if a % 8 = 0 ∧ 8 ≤ n then 8 else 4
      (a, k) :: pieces f (a + k) (n - k)

/-- A NOTE of sources 7 to 9 on an access (Table FLT-9). -/
def Ctl.logAccess (s : Ctl) (src rt a n : Nat) : Ctl := s.raise src {} a (n % 16 + rt * 65536)

/-- Unsupported Request. -/
def Ctl.accUnsupported (s : Ctl) (rt a n : Nat) : Ctl :=
  (s.logAccess Src.REG_UNALIGNED rt a n).emit (.unsupported rt a)

/-- A write; false is an Unsupported Request. -/
def Dev.busWrite (d : Dev) (rt : Nat) (bar : Bar) (a : Nat) (bs : List Byte) (contiguous : Bool := true) : Bool × Dev :=
  match accKind bar a bs.length contiguous with
  | .single => (true, d.piecePut rt bar a bs)
  | .narrow => (true, d.onCtl (fun c => c.logAccess Src.REG_NARROW rt a bs.length))
  | .burst => (true, (pieces bs.length a bs.length).foldl (fun d p => d.piecePut rt bar p.1 ((bs.drop (p.1 - a)).take p.2)) d)
  | .unused => (true, d.refuse rt a bs.length St.NOT_FOUND)
  | .unsupported => (false, d.onCtl (fun c => c.accUnsupported rt a bs.length))

/-- A read; none is an Unsupported Request. -/
def Dev.busRead (d : Dev) (p : Peer) (bar : Bar) (a n : Nat) (contiguous : Bool := true) : Option (List Byte) × Dev :=
  match accKind bar a n contiguous with
  | .single => let (bs, d) := d.pieceGet p bar a n true; (some bs, d)
  | .narrow => let (bs, d) := d.pieceGet p bar a n false; (some bs, d)
  | .burst =>
    let r := (pieces n a n).foldl (fun (acc : List Byte × Dev) q =>
      let (bs, d) := acc.2.pieceGet p bar q.1 q.2 true
      (acc.1 ++ bs, d)) ([], d)
    (some r.1, r.2)
  | .unused => (some (List.replicate n 0), d)
  | .unsupported => (none, d.onCtl (fun c => c.accUnsupported p.1 a n))

/-- A read whose data goes back to its requester. -/
def Dev.readBack (d : Dev) (p : Peer) (bar : Bar) (a n : Nat) : Dev :=
  match d.busRead p bar a n with
  | (some bs, d) => d.onCtl (fun c => c.emit (.readData p.1 (ofBytes bs)))
  | (none, d) => d

/-! ## The commands -/

/-- REGISTER_WRITE (R7, R391). -/
def execRegisterWrite (a : Access) (s : State) : Out :=
  s.devNext (fun d => (d.busWrite a.route.val a.bar a.addr a.data a.contiguous).2)

/-- MER_NOW_READ (R34): the whole count, or one half of it. -/
def execMerNowRead (rt : Route) (peer : MboxKey) (half : Option Bool) (s : State) : Out :=
  let p : Peer := (rt.val, if rt.val = 1 then peer.dev.toNat * 256 + peer.port.toNat else 0)
  s.devNext (fun d =>
    match half with
    | none => d.readBack p .bar0 MER_NOW.addr 8
    | some h => d.readBack p .bar0 (MER_NOW.addr + 4 * b2n h) 4)

/-- SCHEDULE_WINDOW_WRITE (R47). -/
def execScheduleWindowWrite (rt : Route) (n : Fin 64) (off : BitVec 20) (data : List Byte) (s : State) : Out :=
  s.devNext (fun d => (d.busWrite rt.val .bar0 (0x0100_0000 + n.val * 0x10_0000 + off.toNat) data).2)

/-- ROUTING_TABLE_WRITE (R128). -/
def execRoutingTableWrite (rt : Route) (dm : Fin 64) (off : BitVec 17) (data : List Byte) (s : State) : Out :=
  s.devNext (fun d => (d.busWrite rt.val .bar0 (0x0500_0000 + dm.val * 0x2_0000 + off.toNat) data).2)

/-- MGMT_ROUTE_WRITE (R130). -/
def execMgmtRouteWrite (rt : Route) (off : BitVec 15) (data : List Byte) (s : State) : Out :=
  s.devNext (fun d => (d.busWrite rt.val .bar0 (0x0580_0000 + off.toNat) data).2)

/-- DESCRIPTOR_WINDOW_WRITE (R155, R183). -/
def execDescriptorWindowWrite (rt : Route) (n : Fin 64) (off : BitVec 17) (data : List Byte) (s : State) : Out :=
  s.devNext (fun d => (d.busWrite rt.val .bar0 (0x0600_0000 + n.val * 0x2_0000 + off.toNat) data).2)

/-- GROUP_ENTRY_WRITE (R174). -/
def execGroupEntryWrite (rt : Route) (dm : Fin 64) (off : BitVec 11) (data : List Byte) (s : State) : Out :=
  s.devNext (fun d => (d.busWrite rt.val .bar0 (0x0680_0000 + dm.val * 0x800 + off.toNat) data).2)

/-- TENSOR_TABLE_WRITE (R186). -/
def execTensorTableWrite (rt : Route) (dm : Fin 64) (off : BitVec 19) (data : List Byte) (s : State) : Out :=
  s.devNext (fun d => (d.busWrite rt.val .bar0 (0x0800_0000 + dm.val * 0x8_0000 + off.toNat) data).2)

/-- HSET_WORD_WRITE (R199). -/
def execHsetWordWrite (rt : Route) (dm : Fin 64) (h : Fin 256) (w : Fin 8) (v : W64) (s : State) : Out :=
  s.ctlNext (fun c => c.hsetPut dm.val h.val w.val (RegWr.whole rt.val (hsetAddr dm.val h.val w.val) v.toNat))

/-- OUTPUT_FORMAT_WRITE (R203): word `w` from 0x100 of the control area. -/
def execOutputFormatWrite (rt : Route) (dm : Fin 64) (w : Fin 12) (v : W64) (s : State) : Out :=
  s.devNext (fun d => (d.busWrite rt.val .bar0 (0x0700_0000 + dm.val * 0x4_0000 + 0x100 + 8 * w.val) (toBytes 8 v.toNat)).2)

/-- PROGRAM_IMAGE_WRITE (R259). -/
def execProgramImageWrite (rt : Route) (n : Fin 64) (off : BitVec 19) (data : List Byte) (s : State) : Out :=
  s.devNext (fun d => (d.busWrite rt.val .bar0 (0x0A00_0000 + n.val * 0x8_0000 + off.toNat) data).2)

/-- An access of a window by its offset: a write, or a read of `size` bytes. -/
def State.windowAccess (s : State) (rt a : Nat) (write : Option (List Byte)) (size : Nat) : Out :=
  s.devNext (fun d =>
    match write with
    | some bs => (d.busWrite rt .bar0 a bs).2
    | none => d.readBack (rt, 0) .bar0 a size)

/-- DEBUG_WINDOW_ACCESS (R265). -/
def execDebugWindowAccess (rt : Route) (n : Fin 64) (off : BitVec 20) (write : Option (List Byte)) (size : Nat) (s : State) : Out :=
  s.windowAccess rt.val (0x0C00_0000 + n.val * 0x10_0000 + off.toNat) write size

/-- DOMAIN_APERTURE_ACCESS (R427). -/
def execDomainApertureAccess (rt : Route) (off : BitVec 22) (write : Option (List Byte)) (size : Nat) (s : State) : Out :=
  s.windowAccess rt.val (0x05C0_0000 + off.toNat) write size

/-- STAGING_APERTURE_ACCESS (R428). -/
def execStagingApertureAccess (rt : Route) (off : BitVec 22) (write : Option (List Byte)) (size : Nat) (s : State) : Out :=
  s.windowAccess rt.val (0x06C0_0000 + off.toNat) write size

/-! ## The staging scrubber (R284) -/

/-- The chunk whose place in a working area holds a staging byte is not completed. -/
def Ctl.stickChunk (s : Ctl) (n o : Nat) : Ctl :=
  (s.openOps n).foldl (fun s k =>
    let de := s.opDesc k
    let a := de.area
    if a.1 ≤ o ∧ o < a.2 then
      let place := (o - a.1) / max 1 ((a.2 - a.1) / max 1 de.window)
      (s.opOf k).chunks.foldl (fun s e =>
        if e.1 % max 1 de.window = place ∧ !e.2.complete then s.modChunk k e.1 (fun x => { x with stuck := true }) else s) s
    else s) s

/-- An uncorrectable word in the receive area: the packet there is discarded as if its check had
failed. -/
def Ctl.spoilRx (s : Ctl) (n : Nat) : Ctl :=
  match s.rxQ n with
  | [] => s
  | x :: t => s.setRxQ n ({ x with pkt := { x.pkt with poison := true } } :: t)

/-- An uncorrectable word in the reply cache: its entry is dropped. -/
def Ctl.dropReply (s : Ctl) (n o : Nat) : Ctl :=
  let i := (o - 34 * 2 ^ 20) / 8192
  { s with net := { s.net with cache := tblPut (fun _ => []) s.net.cache n ((s.cacheOf n).eraseIdx i) } }

/-- STAGING_SCRUB: a word of staging is read, with its check's verdict. -/
def Ctl.stagingScrub (s : Ctl) (n o : Nat) (v : MemErr) : Ctl :=
  if stagingBytes ≤ o then s
  else match v with
    | .good => s
    | .ce => s.stageReport (Src.SLC_CORRECTED n) n o
    | .ue =>
      let s := s.stageReport (Src.SLC_UNCORRECTED n) n o
      match s.stageArea n o with
      | 3 => s.spoilRx n
      | 4 => s.dropReply n o
      | 0 => s.modMem (fun m => { m with stagePoison := tblPut (fun _ => false) m.stagePoison (n * (stagingBytes / 32) + o / 32) true })
      | _ => s.stickChunk n o

def execStagingScrub (n : Fin 64) (addr : BitVec 26) (err : MemErr) (s : State) : Out :=
  s.ctlNext (fun c => c.stagingScrub n.val addr.toNat err)

end Sys2Proof.Machine
end

