-- ==== Sys2Proof/Machine/Mgmt.lean ====
section
/-!
DEFINITION. The management opcodes (Table MGT-4, R385-R390, R401, R402): firmware executes the command
at the head of its queue. Parameters lie in the order of Table MGT-4 as log entry 9 lays them out.
-/

namespace Sys2Proof.Machine

/-! ## Executing a command -/

/-- The command now executing ends with a reply, and the next ones are checked. -/
def Dev.mgmt (d : Dev) (op : Nat) (f : MgmtCmd → Dev → Reply × Dev) : Dev :=
  match d.ctl.running op with
  | none => d
  | some c =>
    let (r, d) := f c d
    d.onCtl (fun s => (s.finishCmd c r).advanceCmds)

/-- A reply that is only a status. -/
def sayStatus (st : Nat) : Reply := { status := st }

/-- An opcode that changes no memory and replies with a status. -/
def State.mgmtSt (s : State) (op : Nat) (f : MgmtCmd → Ctl → Nat × Ctl) : Out :=
  s.devNext (fun d => d.mgmt op (fun c d =>
    let (st, k) := f c d.ctl
    (sayStatus st, { d with ctl := k })))

/-! ## INFO -/

/-- The full feature bitmap (Table MGT-3). -/
def fullFeats : Nat := 0x3FF

/-- HELLO (R385). -/
def helloReply (c : MgmtCmd) (s : Ctl) : Reply × Ctl :=
  let minor := min 3 (c.par 1 1)
  let feats := c.par 8 8 &&& minorFeats minor
  if c.plen < 16 then (sayStatus St.BAD_PARAM, s)
  else if c.par 0 1 ≠ 1 then
    ({ status := St.BAD_VERSION, data := toBytes 8 0x0301 ++ toBytes 8 fullFeats }, s.modMbox c.box (fun m => { m with other := true }))
  else
    ({ data := toBytes 8 (1 + minor * 256) ++ toBytes 8 feats },
      s.modMbox c.box (fun m => { m with other := false, minor := minor, feats := feats }))

def execHello (s : State) : Out :=
  s.devNext (fun d => d.mgmt 0x01 (fun c d =>
    let (r, k) := helloReply c d.ctl
    (r, { d with ctl := k })))

/-- Status of a die (Table MGT-5): 0 active, 1 spare, 2 failed, 3 fenced, 4 retired at factory. -/
def Ctl.dieCode (s : Ctl) (k : Nat) : Nat :=
  if s.fuse.retired.contains k then 4
  else if s.boot.bad.contains k then 2
  else if s.flt.fenced.contains k || s.flt.fencing.contains k then 3
  else if s.tw.spares.any (fun x => x.1 = k) then 2
  else if (k = 16 ∨ k = 17) ∧ !(List.range 64).any (fun n => sliceDie s n = k) then 1
  else 0

/-- GET_INFO data (Table MGT-5). -/
def Ctl.info (s : Ctl) : List Byte :=
  let cirrus := s.diesHeld
  let word (a : Nat) : List Byte := toBytes 8 (s.rdWord a)
  let opt (bs : List Byte) : List Byte := if cirrus then List.replicate bs.length 0 else bs
  word GLB_ID.addr ++ word GLB_STEPPING.addr ++
    opt (word GLB_DET_SIG.addr ++ word GLB_FEATURES0.addr ++ word GLB_FEATURES1.addr ++ word GLB_FEATURES2.addr ++ word GLB_FEATURES3.addr) ++
    word GLB_STATE.addr ++ word PWR_STATE.addr ++ opt (toBytes 2 (s.rd SWX_CTRL.DEV_NUM)) ++ toBytes 2 0x0301 ++ toBytes 4 0 ++
    toBytes 8 fullFeats ++
    opt ((List.range 32).map (fun k => BitVec.ofNat 8 (s.dieCode k)) ++
      (List.range 64).map (fun n => BitVec.ofNat 8 (sliceDie s n * 4 + s.rd (SLC_STATE.QUARTER n))) ++ word TWN_STATUS.addr)

def execGetInfo (s : State) : Out := s.devNext (fun d => d.mgmt 0x02 (fun _ d => ({ data := d.ctl.info }, d)))

/-- SENSOR_READ: FIRST and COUNT entries of CIR_SENSOR, within the route's reply limit. -/
def sensorReply (c : MgmtCmd) (s : Ctl) : Reply :=
  let first := c.par 0 1
  let count := c.par 2 2
  if c.plen ≠ 4 ∨ count = 0 ∨ 256 < first + count ∨ routeLimit c.route < 32 + 8 * count then sayStatus St.BAD_PARAM
  else { data := s.wordBytes (CIR_SENSOR.addr first) count }

def execSensorRead (s : State) : Out := s.devNext (fun d => d.mgmt 0x03 (fun c d => (sensorReply c d.ctl, d)))

/-- SENSOR_WRITE: one sample of a board-written sensor, from route 2 only (R404). -/
def execSensorWrite (s : State) : Out :=
  s.devNext (fun d => d.mgmt 0x04 (fun c d =>
    if c.route ≠ 2 then (sayStatus St.DENIED, d)
    else if c.plen ≠ 4 ∨ !boardSensor (c.par 0 1) then (sayStatus St.BAD_PARAM, d)
    else (sayStatus St.OK, d.sample (c.par 0 1) (sext 16 (c.par 2 2)))))

/-! ## REGS (R388) -/

/-- The access that a REG_READ or REG_WRITE makes: BAR, address and length; none where its parameters
name none. -/
def MgmtCmd.access (c : MgmtCmd) (write : Bool) : Option (Bar × Nat × Nat) :=
  let a := c.par 0 8
  let bar : Bar := if nbit a 63 then .bar2 else .bar0
  let addr := a % 2 ^ 63
  let size := c.par 8 4
  let count := c.par 12 4
  let n := size * count
  let ctl : Bool := bar = .bar0 && decide (addr < 0x0100_0000)
  if c.plen ≠ 16 + (if write then n else 0) ∨ !([1, 2, 4, 8].contains size) ∨ count = 0 then none
  else if (ctl || decide (size < 4)) && count != 1 then none
  else if (if c.route = 2 then 1024 else 8160) < n then none
  else if (match bar with | .bar0 => 0x1000_0000 | .bar2 => 0x10_0000) < addr + n then none
  else some (bar, addr, n)

/-- The requester of a command's reads (R34). -/
def MgmtCmd.peer (c : MgmtCmd) : Peer := (c.route, if c.route = 1 then c.box - 32 else 0)

/-- An Unsupported Request is answered BAD_PARAM; it is logged, and no completion leaves. -/
def Ctl.unsaid (s : Ctl) : Ctl := { s with sent := s.sent.drop 1 }

def execRegRead (s : State) : Out :=
  s.devNext (fun d => d.mgmt 0x10 (fun c d =>
    match c.access false with
    | none => (sayStatus St.BAD_PARAM, d)
    | some (bar, a, n) =>
      match d.busRead c.peer bar a n with
      | (some bs, d) => ({ data := bs }, d)
      | (none, d) => (sayStatus St.BAD_PARAM, d.onCtl Ctl.unsaid)))

def execRegWrite (s : State) : Out :=
  s.devNext (fun d => d.mgmt 0x11 (fun c d =>
    match c.access true with
    | none => (sayStatus St.BAD_PARAM, d)
    | some (bar, a, n) =>
      match d.busWrite c.route bar a ((c.params.drop 16).take n) with
      | (true, d) => (sayStatus St.OK, d)
      | (false, d) => (sayStatus St.BAD_PARAM, d.onCtl Ctl.unsaid)))

/-! ## LIFECYCLE (Table PRT-4, R300, R305) -/

def execSliceEnable (s : State) : Out :=
  s.mgmtSt 0x20 (fun c k => if 64 ≤ c.target then (St.BAD_PARAM, k) else k.sliceEnable c.target)

def execSliceDisable (s : State) : Out :=
  s.mgmtSt 0x21 (fun c k => if 64 ≤ c.target then (St.BAD_PARAM, k) else k.sliceDisable c.target)

def execLinkEnable (s : State) : Out :=
  s.mgmtSt 0x22 (fun c k => if 48 ≤ c.target then (St.BAD_PARAM, k) else k.linkEnable c.target)

def execLinkDisable (s : State) : Out :=
  s.mgmtSt 0x23 (fun c k => if 48 ≤ c.target then (St.BAD_PARAM, k) else k.linkDisable c.target (nbit c.flags 0))

/-! ## BANKS (R47, R48, R128, R183, R186, R203, R259) -/

/-- Bytes of one entry of an object of BANK_LOAD, and how many a bank holds. -/
def objectShape : Nat → Option (Nat × Nat)
  | 0 => some (32, 16384)
  | 1 => some (8, 4096)
  | 2 => some (8, 48)
  | 3 => some (64, 512)
  | 4 => some (8, 32768)
  | 5 => some (8, 6)
  | _ => none

/-- Window address of entry `i` of an object in bank `k`. -/
def objectAddr (obj d n k i : Nat) : Nat :=
  match obj with
  | 0 => entryAddr n k i
  | 1 => 0x0500_0000 + d * 0x2_0000 + k * 0x1_0000 + i * 8
  | 2 => 0x0500_0000 + d * 0x2_0000 + k * 0x1_0000 + 0x8000 + i * 8
  | 3 => tmplAddr n k i
  | 4 => imageAddr n k + i * 8
  | _ => if i < 4 then outFmtAddr d k i else linkMapAddr d k (i - 4)

/-- The object belongs to a slice. -/
def sliceObject (obj : Nat) : Bool := obj = 0 || obj = 3 || obj = 4

/-- BANK_LOAD: its status, and the bank with the entries written. Its first dropped write is logged, as
the window's would be, and ends it (R47, R387; log entry 103). -/
def Ctl.bankLoad (s : Ctl) (c : MgmtCmd) : Nat × Ctl :=
  let d := c.domain
  let k := c.par 0 1
  let obj := c.par 1 1
  let n := c.par 2 1
  let first := c.par 4 4
  let body := c.params.drop 8
  match objectShape obj with
  | none => (St.BAD_PARAM, s)
  | some (size, cap) =>
    if c.plen < 8 ∨ 1 < k ∨ 63 < n ∨ body.length % size ≠ 0 ∨ cap < first + body.length / size then (St.BAD_PARAM, s)
    else if !s.created d || (sliceObject obj && s.sliceDom n != some d) then (St.DENIED, s)
    else if s.bankGate (some d) k ≠ St.OK ∨ (obj = 4 ∧ s.imageInUse n k) then
      (St.BUSY, if body.isEmpty then s else s.logRefused c.route (objectAddr obj d n k first) 8 St.BUSY)
    else
      (St.OK, (List.range (body.length / size)).foldl (fun s i =>
        let a := objectAddr obj d n k (first + i)
        if obj = 4 ∧ 0x2_C000 ≤ a - imageAddr n k then s
        else
          let s := s.bankStore d k a ((body.drop (i * size)).take size)
          { s with sw := { s.sw with badParity := s.sw.badParity.filter (fun x => x != a) } }) s)

def execBankLoad (s : State) : Out := s.mgmtSt 0x30 (fun c k => k.bankLoad c)

/-- BANK_CHECK: the header's fields beyond their widths are refused before check 1. -/
def Ctl.bankCheckCmd (s : Ctl) (c : MgmtCmd) : Reply × Ctl :=
  let d := c.domain
  let k := c.par 0 1
  let h : BankHdr := { kind := c.par 1 1, period := c.par 4 4, repeat_ := c.par 8 4, linkUse := c.par 16 8 }
  let wide : Bool := decide (3 < h.kind) || decide (2 ^ 24 ≤ h.period) || decide (2 ^ 48 ≤ h.linkUse)
  let s := s.setDomMer d { s.domMer d with checking := none }
  if c.plen ≠ 24 ∨ 1 < k then (sayStatus St.BAD_PARAM, s)
  else
    let (r, s) := s.bankCheck d k h wide
    ({ status := r.status, detail := r.order % 256 + r.slice * 256, detail2 := r.idx }, s)

def execBankCheck (s : State) : Out :=
  s.devNext (fun d => d.mgmt 0x31 (fun c d =>
    let (r, k) := d.ctl.bankCheckCmd c
    (r, { d with ctl := k })))

/-- TENSOR_LOAD: 32-byte entries from tensor TARGET on; its first dropped write is logged and ends it
(R186; log entry 103). -/
def Ctl.tensorLoad (s : Ctl) (c : MgmtCmd) : Nat × Ctl :=
  if c.params.isEmpty ∨ c.params.length % 32 ≠ 0 ∨ 16384 < c.target + c.params.length / 32 then (St.BAD_PARAM, s)
  else if !s.storeOff c.domain then
    (St.BUSY, s.logRefused c.route (tensorAddr c.domain c.target) 8 St.BUSY)
  else (St.OK, s.setBytes (tensorAddr c.domain c.target) c.params)

def execTensorLoad (s : State) : Out := s.mgmtSt 0x32 (fun c k => k.tensorLoad c)

/-! ## COLLECTIVES (R155, R175) -/

def execDescOpen (s : State) : Out :=
  s.devNext (fun d => d.mgmt 0x40 (fun c d =>
    let n := nfld c.target 0 6
    let i := nfld c.target 6 9
    if c.plen ≠ 64 ∨ 2 ^ 15 ≤ c.target then (sayStatus St.BAD_PARAM, d)
    else if !d.ctl.created c.domain || d.ctl.sliceDom n != some c.domain then (sayStatus St.DENIED, d)
    else
      let (st, k) := d.ctl.openDyn n i (fun w => c.par (8 * w) 8)
      (sayStatus st, ({ d with ctl := k } : Dev).pump n)))

def execTicketTake (s : State) : Out :=
  s.devNext (fun d => d.mgmt 0x41 (fun c d =>
    if !d.ctl.bit (COL_TICKET.HOME c.domain) then (sayStatus St.NOT_FOUND, d)
    else
      let (t, k) := d.ctl.nextTicket c.domain
      ({ data := toBytes 8 t }, { d with ctl := k })))

/-! ## MEMBERS (R178, R389) -/

/-- The open operations of a domain on the device. -/
def Ctl.domainOps (s : Ctl) (d : Nat) : List Nat :=
  (s.ops.map Prod.fst).filter (fun k => s.opOpen k && s.domOf (k / 512) = d)

/-- The operator excludes contributor `x` from an open operation. -/
def Dev.operExclude (d : Dev) (x k : Nat) : Dev :=
  let de := d.ctl.opDesc k
  if x < de.cbase ∨ de.cbase + 32 ≤ x then d
  else
    let j := x - de.cbase
    let d := d.onCtl (fun s => s.modOp k (fun o => if o.oper.contains j then o else { o with oper := o.oper ++ [j] }))
    d.pump (k / 512)

/-- MEMBER_EXCLUDE: OP_TAG or 0x7FFF, and the contributor index. -/
def execMemberExclude (s : State) : Out :=
  s.devNext (fun d => d.mgmt 0x50 (fun c d =>
    let tag := c.par 0 2
    let x := c.par 2 2
    if c.plen ≠ 4 ∨ 0x7FFF < tag ∨ 4095 < x then (sayStatus St.BAD_PARAM, d)
    else
      let ks := (d.ctl.domainOps c.domain).filter (fun k => tag = 0x7FFF || k = tag)
      let d := d.onCtl (fun s =>
        if s.opExcl.contains (c.domain, x) then s else { s with opExcl := s.opExcl ++ [(c.domain, x)] })
      (sayStatus St.OK, ks.foldl (fun d k => d.operExclude x k) d)))

/-- A MEMBER_REPLACE takes effect, and its command is answered. -/
def Ctl.replaceEffect (s : Ctl) (r : Replace) : Ctl :=
  let own := s.rd SWX_CTRL.DEV_NUM
  let gone (a : AliveEnt) : Bool := a.dev = own && a.port = r.link
  let s := { s with opExcl := s.opExcl.filter (fun e => e != (r.d, r.index)) }
  let s := (s.slicesOf r.d).foldl (fun s n => s.dropAlive n gone) s
  let s := s.dropAlive 64 gone
  let s := s.zeroWords (COL_LATE_HIST.addr r.link 0) 4
  match r.cmd with
  | none => s
  | some c => s.finishCmd c (sayStatus St.OK)

/-- Every MEMBER_REPLACE of a domain takes effect. -/
def Ctl.replacesNow (s : Ctl) (d : Nat) : Ctl :=
  let due := s.fw.replaces.filter (fun r => r.d = d)
  if due.isEmpty then s
  else
    let s := { s with fw := { s.fw with replaces := s.fw.replaces.filter (fun r => r.d != d) } }
    (due.foldl Ctl.replaceEffect s).advanceCmds

/-- MEMBER_REPLACE: the contributor index and LINK. At once where the store is OFF, FAILED or PAUSED,
else at the next step boundary. -/
def Ctl.memberReplace (s : Ctl) : Ctl :=
  match s.running 0x51 with
  | none => s
  | some c =>
    let r : Replace := { d := c.domain, index := c.par 0 2, link := c.par 2 1, cmd := some c }
    if c.plen ≠ 3 ∨ 47 < r.link ∨ 4095 < r.index then (s.finishCmd c (sayStatus St.BAD_PARAM)).advanceCmds
    else
      let s := s.dropCmd c
      let s := { s with fw := { s.fw with replaces := s.fw.replaces ++ [r] } }
      if [0, 4, 5].contains (s.storeState c.domain) then s.replacesNow c.domain else s.advanceCmds

def execMemberReplace (s : State) : Out := s.ctlNext Ctl.memberReplace

/-- MEMBER_REPLACE_EFFECT (R389): the boundary's part on its own. -/
def execMemberReplaceEffect (dm : Fin 64) (s : State) : Out := s.ctlNext (fun c => c.replacesNow dm.val)

/-! ## FIRMWARE (R396, R397, R401, R402) -/

/-- A byte of the flash: erased, it reads 0xFF. -/
def Ctl.flashByte (s : Ctl) (a : Nat) : Byte := tblGet (fun _ => 0xFF) s.flash a
def Ctl.flashBytes (s : Ctl) (a n : Nat) : List Byte := (List.range n).map (fun i => s.flashByte (a + i))

/-- Programming clears bits that an erase has set. -/
def Ctl.flashProgram (s : Ctl) (a : Nat) (bs : List Byte) : Ctl :=
  (List.range bs.length).foldl (fun s i =>
    { s with flash := tblPut (fun _ => 0xFF) s.flash (a + i) (s.flashByte (a + i) &&& bs.getD i 0) }) s

def Ctl.flashErase (s : Ctl) (a n : Nat) : Ctl :=
  { s with flash := s.flash.filter (fun e => decide (e.1 < a) || decide (a + n ≤ e.1)) }

/-- Start of an image slot, and of the configuration store (R396). -/
def imageBase (slot : Nat) : Nat := slot * 0x100_0000
def configBase : Nat := 0x200_0000

/-- Where FW_STAGE writes: start and size of its target. -/
def Ctl.stageTarget (s : Ctl) (t : Nat) : Nat × Nat :=
  if t = 0 then (imageBase (1 - s.rd GLB_BOOT.RUNNING), 0x100_0000) else (configBase, 0x4_0000)

/-- FW_STAGE: offset, zero, data. -/
def Ctl.fwStage (s : Ctl) (c : MgmtCmd) : Nat × Ctl :=
  let o := c.par 0 4
  let data := c.params.drop 8
  let (b, z) := s.stageTarget c.target
  if 1 < c.target ∨ c.plen ≤ 8 ∨ z < o + data.length then (St.BAD_PARAM, s)
  else
    let s := if o = 0 then s.flashErase b z else s
    (St.OK, s.flashProgram (b + o) data)

def execFwStage (s : State) : Out := s.mgmtSt 0x70 (fun c k => k.fwStage c)

/-- A field of an image's header (Table MGT-7). -/
def Ctl.hdr (s : Ctl) (slot o n : Nat) : Nat := ofBytes (s.flashBytes (imageBase slot + o) n)

/-- The image of a slot with its header. -/
def Ctl.imageBytes (s : Ctl) (slot : Nat) : List Byte := s.flashBytes (imageBase slot) (512 + s.hdr slot 0x10 4)

/-- Everything R397 asks of an image but its SVN. -/
def Ctl.imageGood (s : Ctl) (slot : Nat) : Bool :=
  let zero (o n : Nat) : Bool := s.hdr slot o n = 0
  s.hdr slot 0 4 = 0x31565355 && s.hdr slot 4 2 = 1 && s.hdr slot 0x18 2 = 0x4832 &&
    zero 6 2 && zero 0x1B 5 && zero 0xB1 15 && zero 0x120 224 && decide (s.hdr slot 0x10 4 ≤ 16776704) &&
    decide (s.hdr slot 0x1A 1 ≤ s.rd GLB_STEPPING.STEPPING) && Config.imageSigned s.fuse.revoked (s.imageBytes slot)

/-- An image is valid (R397). -/
def Ctl.imageValid (s : Ctl) (slot : Nat) : Bool := s.imageGood slot && decide (s.fuse.svnMin ≤ s.hdr slot 0x0C 4)

/-- The boot script's header and CRC hold (R400). -/
def Ctl.scriptGood (s : Ctl) : Bool :=
  let n := ofBytes (s.flashBytes (configBase + 4) 4)
  ofBytes (s.flashBytes configBase 4) = 0x54435355 && decide (16 + 16 * n ≤ 0x4_0000) &&
    ofBytes (s.flashBytes (configBase + 8) 8) = crc64 (s.flashBytes (configBase + 16) (16 * n))

/-- FW_COMMIT: the staged image or the configuration store is checked; FUSE_SVN raises SVN_MIN to the
running image's. -/
def Ctl.fwCommit (s : Ctl) (c : MgmtCmd) : Nat × Ctl :=
  let slot := 1 - s.rd GLB_BOOT.RUNNING
  let fuse := nbit c.flags 0
  let raised (s : Ctl) : Ctl :=
    if fuse then { s with fuse := { s.fuse with svnMin := max s.fuse.svnMin (s.hdr (s.rd GLB_BOOT.RUNNING) 0x0C 4) } } else s
  if 1 < c.target then (St.BAD_PARAM, s)
  else if fuse ∧ !s.bit GLB_BOOT.CONFIRM then (St.DENIED, s)
  else if c.target = 1 then (if s.scriptGood then (St.OK, raised s) else (St.BAD_PARAM, s))
  else if !s.imageGood slot then (St.BAD_PARAM, s)
  else if s.hdr slot 0x0C 4 < s.fuse.svnMin then (St.DENIED, s)
  else (St.OK, raised (s.wr GLB_BOOT.NEXT (2 + slot)))

def execFwCommit (s : State) : Out := s.mgmtSt 0x71 (fun c k => k.fwCommit c)

/-- A management restart (R390, R402, R447): commands executing are cut off, and steps 4 to 8 of the
start-up sequence return to step 3. -/
def Ctl.fwRestart (s : Ctl) : Ctl :=
  let cut := s.fw.queue.filter (fun c => c.taken) ++ s.fw.replaces.filterMap Replace.cmd
  let f : Fw := { s.fw with queue := s.fw.queue.filter (fun c => !c.taken), replaces := [], cut := s.fw.cut ++ cut }
  let s := { s with fw := f }
  let s := (List.range 64).foldl (fun s d => s.setDomMer d { s.domMer d with checking := none }) s
  let s := (s.wrB CIR_STATUS.FW_RESTARTING true).sat CIR_STATUS.FW_RESTARTS 1
  if Stg.SELF_TEST ≤ s.stage ∧ s.stage ≤ Stg.TWIN_HANDSHAKE then s.setStage Stg.VERIFY else s

/-- RESET: TARGET 0 the device, after its reply; TARGET 1 the control dies, with the reply after the
restart. -/
def Dev.resetCmd (d : Dev) : Dev :=
  match d.ctl.running 0x72 with
  | none => d
  | some c =>
    if c.target = 0 then (d.onCtl (fun s => s.finishCmd c (sayStatus St.OK))).resetDevice
    else if c.target = 1 then d.onCtl Ctl.fwRestart
    else d.onCtl (fun s => (s.finishCmd c (sayStatus St.BAD_PARAM)).advanceCmds)

def execResetC (s : State) : Out := s.devNext Dev.resetCmd

/-- FW_WATCHDOG (R402): a kick was missed while firmware ran. -/
def execFwWatchdog (s : State) : Out :=
  s.ctlNext (fun c =>
    if c.fw.up && !c.bit CIR_STATUS.FW_RESTARTING then (c.cirRaise Src.FW_WATCHDOG 0).fwRestart else c)

/-- The restart is complete: cut commands are answered, a RESET with OK and any other with INTERNAL. -/
def Ctl.restartDone (s : Ctl) : Ctl :=
  if !s.bit CIR_STATUS.FW_RESTARTING then s
  else
    let cut := s.fw.cut
    let s := { (s.wrB CIR_STATUS.FW_RESTARTING false) with fw := { s.fw with cut := [], up := !s.fw.rom } }
    (cut.foldl (fun s c => s.finishCmd c (sayStatus (if c.opcode = 0x72 then St.OK else St.INTERNAL))) s).advanceCmds

/-- RESTART_COMPLETE (R390, R402). -/
def execRestartComplete (s : State) : Out := s.ctlNext Ctl.restartDone

/-! ## POWER (R406, R413, R415) -/

def execSleep (s : State) : Out := s.mgmtSt 0x80 (fun _ k => k.sleep)

def execWake (s : State) : Out := s.mgmtSt 0x81 (fun _ k => (St.OK, k.wakeDevice))

/-- WAKE_HOST: a wake reason on routes 1 and 2. -/
def execWakeHost (s : State) : Out :=
  s.mgmtSt 0x82 (fun c k => (St.OK, if c.route = 0 then k else k.wakeReason PWR_WAKE_REASON.MGMT))

/-- THRESH_WRITE: FIRST, COUNT, and COUNT entries; from any route. -/
def execThreshWrite (s : State) : Out :=
  s.devNext (fun d => d.mgmt 0x83 (fun c d =>
    let first := c.par 0 1
    let count := c.par 1 1
    if count = 0 ∨ 48 < first + count ∨ c.plen ≠ 8 + 8 * count then (sayStatus St.BAD_PARAM, d)
    else
      (sayStatus St.OK, (List.range count).foldl (fun d i =>
        d.regStore .CIR_THRESH (first + i) 0 (RegWr.whole c.route (CIR_THRESH.addr (first + i)) (c.par (8 + 8 * i) 8))) d)))

end Sys2Proof.Machine
end

