-- ==== Sys2Proof/Machine/Board.lean ====
section
/-!
DEFINITION. The boot ROM and the start-up sequence (R397-R400, R446, R447, R450), and the board's I3C
and JTAG ports (R443, R445).
-/

namespace Sys2Proof.Machine

/-! ## Releasing the control dies (R450) -/

/-- TEMP_SHUTDOWN, recorded by Cirrus before the shutdown, waits for the record writer (R410). -/
def Ctl.enterTempRecord (s : Ctl) : Ctl :=
  if !s.boot.tempRec then s
  else
    let src := Src.TEMP_SHUTDOWN
    let e : Event := { src := src, slot := s.now, cyc := s.cyc, sev := s.rd (FLT_ACTION.SEV src), level := s.levelOf src {}, react := s.reactOf src {} }
    let s := s.wrB (FLT_SRC.PENDING src) true
    let b : Boot := { s.boot with tempRec := false }
    ({ s with boot := b, flt := { s.flt with pend := addPend e s.flt.pend } }).fltRefresh

/-- An overvoltage before this boot raises VOLT_FAULT (R438). -/
def Ctl.enterVoltRecord (s : Ctl) : Ctl :=
  if !s.boot.voltRec then s
  else
    let b : Boot := { s.boot with voltRec := false }
    ({ s with boot := b }).raise Src.VOLT_FAULT

/-- Coolant sensor 48 is VALID and below entry 1's LEVEL. -/
def Ctl.coolantOk (s : Ctl) : Bool :=
  s.sensorValid 48 && decide (s.sensorValue 48 < sext 16 (s.rd (CIR_THRESH.LEVEL 1)))

/-- The control dies leave reset: BOOT_SEL is sampled and the boot ROM may choose. -/
def Ctl.releaseDies (s : Ctl) (sel : Bool) : Ctl :=
  if s.pwr = Pwr.BOOT ∧ s.stage = Stg.RESET ∧ s.bit CIR_STATUS.REF_OK ∧ s.coolantOk then
    let b : Boot := { s.boot with sel := sel, choose := true }
    ((({ s with boot := b }).setStage Stg.VERIFY).enterTempRecord).enterVoltRecord
  else s

/-- CONTROL_DIE_RELEASE (R450). -/
def execControlDieRelease (bootSel : Bool) (s : State) : Out := s.ctlNext (fun c => c.releaseDies bootSel)

/-! ## The boot ROM (R398, R399) -/

/-- Neither image can run: the boot ROM answers alone. -/
def Ctl.noImage (s : Ctl) : Ctl :=
  ({ s.setStage Stg.NO_IMAGE with fw := { s.fw with up := false, rom := true } }).advanceCmds

/-- The library version that an image's header gives, in the signatures of the device and of every
domain (R368). -/
def Ctl.libVersion (s : Ctl) (major minor : Nat) : Ctl :=
  let n := (s.wr GLB_DET_SIG.LIB_MAJOR major).wr GLB_DET_SIG.LIB_MINOR minor
  if n.rdWord GLB_DET_SIG.addr = s.rdWord GLB_DET_SIG.addr then n else (List.range 64).foldl Ctl.domSig n

/-- The image of a slot is loaded and started. -/
def Ctl.bootImage (s : Ctl) (slot : Nat) : Ctl :=
  let s := (s.wr GLB_BOOT.RUNNING slot).wr GLB_BOOT.VERSION (s.hdr slot 8 4)
  let s := s.libVersion (s.hdr slot 0x14 1) (s.hdr slot 0x15 1)
  ({ s with fw := { s.fw with up := true, rom := false } }).advanceCmds

/-- The image that the boot ROM boots without NEXT; of two of one VERSION the spec names none. -/
def Ctl.bootChoice (s : Ctl) : Option Nat :=
  let a := s.hdr 0 8 4
  let b := s.hdr 1 8 4
  match s.imageValid 0, s.imageValid 1 with
  | false, false => none
  | true, false => some 0
  | false, true => some 1
  | true, true =>
    if a = b then some ((Config.freeWord s.freeN 0).toNat % 2)
    else if (a < b) = s.boot.sel then some 0 else some 1

/-- The boot ROM examines both images. -/
def Ctl.bootRom (s : Ctl) : Ctl :=
  if !s.boot.choose || s.diesHeld then s
  else
    let b : Boot := { s.boot with choose := false }
    let s := { s with boot := b }
    let next := s.rd GLB_BOOT.NEXT
    if 2 ≤ next ∧ s.imageValid (next - 2) then (s.wr GLB_BOOT.NEXT 0).bootImage (next - 2)
    else
      match s.bootChoice with
      | none => s.noImage
      | some slot => (s.fresh.2).bootImage slot

/-- BOOT_ROM (R398). -/
def execBootRom (s : State) : Out := s.ctlNext Ctl.bootRom

/-- The control dies are reset: what firmware was executing is cut off. -/
def Ctl.cutCommands (s : Ctl) : Ctl :=
  let cut := s.fw.queue.filter (fun c => c.taken) ++ s.fw.replaces.filterMap Replace.cmd
  let s := { s with fw := { s.fw with replaces := [], up := false } }
  let s := (List.range 64).foldl (fun s d => s.setDomMer d { s.domMer d with checking := none }) s
  cut.foldl (fun s c => s.finishCmd c (sayStatus St.INTERNAL)) s

/-- The image has not been confirmed in 10 s: Cirrus boots the other valid image once. -/
def Ctl.bootFallback (s : Ctl) : Ctl :=
  if !s.fw.up || s.pwr != Pwr.BOOT || s.bit GLB_BOOT.CONFIRM then s
  else
    let other := 1 - s.rd GLB_BOOT.RUNNING
    let s := s.cutCommands
    if s.boot.fell || !s.imageValid other then s.noImage
    else
      let b : Boot := { s.boot with fell := true }
      let s := (({ s with boot := b }).wrB GLB_BOOT.FALLBACK true).raise Src.BOOT_FALLBACK
      ((s.setStage Stg.VERIFY).wrB GLB_STATE.FAIL false).bootImage other

/-- BOOT_FALLBACK (R399). -/
def execBootFallback (s : State) : Out := s.ctlNext Ctl.bootFallback

/-! ## The start-up sequence (Table ELE-8, R446) -/

/-- The step fails, and the device is held in BOOT at its stage. -/
def Ctl.startFail (s : Ctl) : Ctl := s.wrB GLB_STATE.FAIL true

/-- One entry of the boot script: firmware acts through route 0 (R423), and only it writes
FLT_FW_REPORT (R359). -/
def Dev.scriptEntry (d : Dev) (i : Nat) : Dev :=
  let a := ofBytes (d.ctl.flashBytes (configBase + 16 + 16 * i) 8)
  let bs := d.ctl.flashBytes (configBase + 24 + 16 * i) 8
  if a = FLT_FW_REPORT.addr then
    d.onCtl (fun s => s.raiseMarked { src := 960 + nfld (ofBytes bs) 0 6, d4 := nfld (ofBytes bs) 32 32, fw := true })
  else if a < 0x1000_0000 then (d.busWrite 0 .bar0 a bs).2
  else d.onCtl (fun s => s.accUnsupported 0 a 8)

/-- The boot script is applied, or refused: the SOURCE that firmware then reports is its own. -/
def Dev.bootScript (d : Dev) : Dev :=
  if d.ctl.scriptGood then (List.range (ofBytes (d.ctl.flashBytes (configBase + 4) 4))).foldl Dev.scriptEntry d
  else d.onCtl (fun s =>
    let (k, s) := s.fresh
    (s.raiseMarked { src := 960 + (Config.freeWord k 0).toNat % 64, d4 := (Config.freeWord k 1).toNat % 2 ^ 32, fw := true }).startFail)

/-- Step 4 ends: failing dies are fenced, a failing control die stops the sequence, the script is
applied. -/
def Dev.selfTestDone (d : Dev) (ok : Bool) (bad : List Nat) : Dev :=
  let dies := bad.filter (fun k => decide (k < 32))
  let d := d.onCtl (fun s =>
    let b : Boot := { s.boot with bad := s.boot.bad ++ dies.filter (fun k => !s.boot.bad.contains k) }
    (dies.filter (fun k => decide (k < 30))).foldl Ctl.fenceDie { s with boot := b })
  if !ok || dies.any (fun k => decide (30 ≤ k)) then d.onCtl Ctl.startFail
  else
    let d := d.bootScript
    if d.ctl.bit GLB_STATE.FAIL then d else d.onCtl (fun s => s.setStage Stg.DRAM_TRAIN)

/-- Step 5 ends: a stack that cannot train is FAILED. Firmware then enables every link with a role. -/
def Ctl.dramTrained (s : Ctl) (bad : List Nat) : Ctl :=
  let s := (bad.filter (fun k => decide (k < 16))).foldl (fun s k => s.stackFail k (k * 256)) s
  let ls := (List.range 48).filter (fun l => s.rd (LNK_CTRL.ROLE l) != 0)
  (ls.foldl (fun s l => (s.linkEnable l).2) s).setStage Stg.LINK_TRAIN

/-- Step 6 ends: firmware writes SWX_CTRL.GO, which is dropped while DEV_SET is clear. -/
def Ctl.linksTrained (s : Ctl) : Ctl :=
  if s.sw.go || s.bit SWX_CTRL.DEV_SET then
    (({ s with sw := { s.sw with go := true } }).setStage Stg.MER_ALIGN).alignGo
  else (s.logRefused 0 SWX_CTRL.addr 8 St.DENIED).startFail

/-- No candidate parent may be taken, or two roots are heard (R35, R40). -/
def Ctl.alignBlocked (s : Ctl) : Bool :=
  s.bit MER_SYNC_STATUS.ROOT_CONFLICT ||
    (!s.aligned && !s.bit MER_CTRL.ROOT && !s.parentCand.isEmpty && (bestParent s.parentCand).isNone)

/-- Step 7 ends at ALIGNED; firmware then writes TWN_CTRL.GO where a twin link is named. -/
def Ctl.alignEnds (s : Ctl) : Ctl :=
  if s.alignBlocked then s.startFail
  else if !s.aligned then s
  else
    let s := s.setStage Stg.TWIN_HANDSHAKE
    if s.rd TWN_CTRL.LINK0 = 0x3F ∧ s.rd TWN_CTRL.LINK1 = 0x3F then s else s.twnGo

/-- The step of the present stage ends, as its condition or its bound has it; `ok` is firmware's verdict
on the control dies and `bad` the dies (step 4) or stacks (step 5) that have failed. -/
def Dev.startUpStep (d : Dev) (ok : Bool) (bad : List Nat) : Dev :=
  let s := d.ctl
  if s.pwr ≠ Pwr.BOOT ∨ !s.fw.up ∨ s.bit CIR_STATUS.FW_RESTARTING ∨ s.bit GLB_STATE.FAIL then d
  else match s.stage with
    | 1 => d.onCtl (fun s => s.setStage Stg.SELF_TEST)
    | 2 => if s.bit GLB_BOOT.CONFIRM then d.selfTestDone ok bad else d
    | 3 => d.onCtl (fun s => s.dramTrained bad)
    | 4 => d.onCtl Ctl.linksTrained
    | 5 => d.onCtl Ctl.alignEnds
    | 6 => d.onCtl (fun s => (s.setStage Stg.READY).setPwr Pwr.RUN)
    | _ => d

/-- START_UP_STEP (R446). -/
def execStartUpStep (ok : Bool) (bad : List Nat) (s : State) : Out := s.devNext (fun d => d.startUpStep ok bad)

/-! ## The I3C target (R443) -/

/-- The Provisional ID: manufacturer, a 1, and the random half; with BCR and DCR. -/
def Ctl.i3cPid (s : Ctl) : Nat := 0x1E5C * 2 ^ 33 + 2 ^ 32 + (Config.i3cRandom s.i3c.pid).toNat
def i3cBcr : Byte := 0x06
def i3cDcr : Byte := 0x00

/-- A value as the bus carries it, the most significant byte first (log entry 61). -/
def busBytes (n v : Nat) : List Byte := (toBytes n v).reverse

/-- A target with a dynamic address answers a directed CCC. -/
def Ctl.i3cSay (s : Ctl) (bs : List Byte) : Ctl := if s.i3c.addr.isSome then s.emit (.i3c bs) else s

/-- A change of the target's own state, where it has an address. -/
def Ctl.i3cSet (s : Ctl) (f : I3c → I3c) : Ctl := if s.i3c.addr.isSome then { s with i3c := f s.i3c } else s

/-- ENTDAA: a target without an address gives its identity and takes the address. -/
def Ctl.entdaa (s : Ctl) (da : Nat) : Ctl :=
  if s.i3c.addr.isSome then s
  else
    let i : I3c := { s.i3c with addr := some da }
    ({ s with i3c := i }).emit (.i3c (busBytes 6 s.i3cPid ++ [i3cBcr, i3cDcr]))

/-- ENTDAA (R443). -/
def execEntdaa (da : BitVec 7) (s : State) : Out := s.ctlNext (fun c => c.entdaa da.toNat)

/-- RSTDAA (R443). -/
def execRstdaa (s : State) : Out := s.ctlNext (fun c => c.i3cSet (fun i => { i with addr := none }))

/-- SETNEWDA (R443). -/
def execSetnewda (da : BitVec 7) (s : State) : Out := s.ctlNext (fun c => c.i3cSet (fun i => { i with addr := some da.toNat }))

/-- GETPID (R443). -/
def execGetpid (s : State) : Out := s.ctlNext (fun c => c.i3cSay (busBytes 6 c.i3cPid))

/-- GETBCR (R443). -/
def execGetbcr (s : State) : Out := s.ctlNext (fun c => c.i3cSay [i3cBcr])

/-- GETDCR (R443). -/
def execGetdcr (s : State) : Out := s.ctlNext (fun c => c.i3cSay [i3cDcr])

/-- GETMRL (R443). -/
def execGetmrl (s : State) : Out := s.ctlNext (fun c => c.i3cSay (busBytes 2 1056))

/-- GETMWL (R443). -/
def execGetmwl (s : State) : Out := s.ctlNext (fun c => c.i3cSay (busBytes 2 1056))

/-- ENEC (R443): bit 0 enables in-band interrupts. -/
def execEnec (events : Byte) (s : State) : Out :=
  s.ctlNext (fun c => c.i3cSet (fun i => { i with events := i.events ||| (events.toNat &&& 1) }))

/-- DISEC (R443). -/
def execDisec (events : Byte) (s : State) : Out :=
  s.ctlNext (fun c => c.i3cSet (fun i => { i with events := if nbit events.toNat 0 then 0 else i.events }))

/-- GETSTATUS (R443): the spec states no value of the two status bytes. -/
def execGetstatus (s : State) : Out :=
  s.ctlNext (fun c =>
    if c.i3c.addr.isSome then
      let (k, c) := c.fresh
      c.emit (.i3c (busBytes 2 (Config.freeWord k 0).toNat))
    else c)

/-! ## The JTAG port (R445) -/

/-- Instruction codes. -/
def Tap.EXTEST : Nat := 0x00
def Tap.IDCODE : Nat := 0x01
def Tap.SAMPLE : Nat := 0x02
def Tap.CLAMP : Nat := 0x04
def Tap.HIGHZ : Nat := 0x05
def Tap.BYPASS : Nat := 0xFF

/-- The instruction in force: boundary scan takes effect in AUX only, and every other code is BYPASS. -/
def Ctl.tapInForce (s : Ctl) : Nat :=
  let ir := s.jtag.ir
  if ir = Tap.IDCODE ∨ ir = Tap.SAMPLE then ir
  else if (ir = Tap.EXTEST ∨ ir = Tap.CLAMP ∨ ir = Tap.HIGHZ) ∧ s.pwr = Pwr.AUX then ir
  else Tap.BYPASS

def Ctl.setIr (s : Ctl) (ir : Nat) : Ctl := { s with jtag := { s.jtag with ir := ir } }

/-- What the boundary cells capture, from TDI to TDO: six inputs, then input, output and output enable
of 27 pins. `free` gives the cells whose pin the model does not hold. -/
def Ctl.captured (s : Ctl) (free : Nat → Bool) : List Bool :=
  let six := [free 0, !s.host.perst, !s.bit CIR_FSTOP_STATUS.A, !s.bit CIR_FSTOP_STATUS.B, !s.bit TWN_STATUS.PRESENT, free 5]
  let drain (i : Nat) (low : Bool) : List Bool := [!low && free i, !low, low]
  six ++ drain 6 s.faultPin ++ drain 9 (s.bit PWR_WAKE_REASON.WAKE_N) ++ drain 12 s.presenceOut ++
    (List.range 72).map (fun i => free (15 + i))

/-- Capture, shift out, and load the update latches with the 87 bits shifted in. -/
def Ctl.scan (s : Ctl) (cells : List Bool) : Ctl :=
  let (k, s) := s.fresh
  let free (i : Nat) : Bool := nbit (Config.freeWord k (i / 64)).toNat (i % 64)
  let out := s.captured free
  let j : Jtag := { s.jtag with cells := (cells ++ List.replicate 87 false).take 87 }
  ({ s with jtag := j }).emit (.jtag (maskOf ((List.range 87).filter (fun i => out.getD i false))))

/-- The bypass register captures 0. -/
def Ctl.bypassOut (s : Ctl) : Ctl := s.emit (.jtag 0)

/-- EXTEST (R445): outside AUX it is BYPASS. -/
def execExtest (cells : List Bool) (s : State) : Out :=
  s.ctlNext (fun c =>
    let c := c.setIr Tap.EXTEST
    if c.pwr = Pwr.AUX then c.scan cells else c.bypassOut)

/-- IDCODE (R445). -/
def execIdcode (s : State) : Out :=
  s.ctlNext (fun c => (c.setIr Tap.IDCODE).emit (.jtag (if c.fuse.stepA1 then 0x148320E7 else 0x248320E7)))

/-- SAMPLE/PRELOAD (R445). -/
def execSamplePreload (cells : List Bool) (s : State) : Out := s.ctlNext (fun c => (c.setIr Tap.SAMPLE).scan cells)

/-- CLAMP (R445): the outputs follow the latches, in AUX; the bypass register is selected. -/
def execClamp (s : State) : Out := s.ctlNext (fun c => (c.setIr Tap.CLAMP).bypassOut)

/-- HIGHZ (R445). -/
def execHighz (s : State) : Out := s.ctlNext (fun c => (c.setIr Tap.HIGHZ).bypassOut)

/-- BYPASS (R445): 0xFF, and every code that no other instruction has. -/
def execBypass (ir : BitVec 8) (s : State) : Out :=
  s.ctlNext (fun c =>
    if [Tap.EXTEST, Tap.IDCODE, Tap.SAMPLE, Tap.CLAMP, Tap.HIGHZ].contains ir.toNat then c
    else (c.setIr ir.toNat).bypassOut)

/-- Whether an output pin of the scan chain (cell index of its output) is driven, and to what, by boundary
scan; none where the pin follows its own function. -/
def Ctl.scanDrive (s : Ctl) (cell : Nat) : Option (Option Bool) :=
  let k := s.tapInForce
  if k = Tap.EXTEST ∨ k = Tap.CLAMP then
    some (if s.jtag.cells.getD (cell + 1) false then some (s.jtag.cells.getD cell false) else none)
  else if k = Tap.HIGHZ then some none
  else none

end Sys2Proof.Machine
end

