-- ==== Sys2Proof/Machine/Slot.lean ====
section
/-!
DEFINITION. The slot boundary (R26): the collector's reactions (R354, R355), the orderly stop (R361),
the safe state (R362), step evaluation, swaps, lifecycle, and the first entries of the new slot; and
what the block does when no command waits.
-/

namespace Sys2Proof.Machine

/-! ## Events of the slot that ends (R346) -/

/-- An event reaches the collector before the slot ends: 32 core cycles after its stamp. -/
def Ctl.arrives (s : Ctl) (e : Event) : Bool :=
  !s.mer.counting || e.slot != s.now || decide (e.cyc + 32 < s.slotCycles)

/-- The collector takes the events that reach it in this slot; a test word of bad parity is found by the
scan (R360), at a place of the scan's own. -/
def Ctl.collectSlot (s : Ctl) : Ctl :=
  let s := if s.flt.parityTest then
      let (k, s) := s.fresh
      ({ s with flt := { s.flt with parityTest := false } }).collectorParity ((Config.freeWord k 0).toNat % 65536)
    else s
  Ctl.collectWhile s.arrives s.flt.inflight.length s

/-! ## The safe state (R362) -/

/-- Entry of the safe state in slot `at_`: the collector and GLB_STATE show it, SAFE_ENTERED names the
cause. Reactions of the slot's earlier events are still due. -/
def Ctl.enterSafe (s : Ctl) (src cut at_ : Nat) : Ctl :=
  if s.flt.safeAt.isSome then { s with flt := { s.flt with safeReq := none } }
  else
    let through := s.flt.orderlyAt.isSome
    let f : Flt := { s.flt with safeAt := some at_, safeReq := none, safeStep := 0, orderlyAt := none, cutOff := cut }
    let s := { s with flt := f, cir := { s.cir with waking := none } }
    let s := ((s.wrB FLT_STATUS.SAFE true).wrB FLT_STATUS.ORDERLY false).fltRefresh
    let s := (s.setStage Stg.SAFE).setPwr Pwr.SAFE
    s.raise Src.SAFE_ENTERED {} (src % 1024 + (b2n through) <<< 16) (cut % 2 ^ 32)

/-- Every engine stream of a slice stops where it is. -/
def Ctl.haltEngines (s : Ctl) (n : Nat) : Ctl :=
  let s := s.stopStreams n
  let s := (List.range 4).foldl (fun s t => s.modStream n t (fun x => { x with flight := [] })) s
  s.setUpd n { s.updOf n with running := none, active := false }

/-- A link that is no twin link goes silent: IDLE_ENTER and squelch, and its output is flushed. -/
def Ctl.silence (s : Ctl) (l : Nat) : Ctl :=
  if s.linkLife l = Life.OFF then s
  else
    let s := if s.linkState l = LanSt.UP then s.enterIdle l else s.modLink l (fun k => { k with squelched := true })
    (s.modLink l (fun k => { k with retrainAt := none })).flushOutput l

/-- Open transactions complete with TIMEOUT, but for those that the twin links carry. -/
def Ctl.endOpenTxns (s : Ctl) : Ctl :=
  let twin (t : Txn) : Bool := t.ep = 64 && (match t.hop with | some l => s.twinLinks.contains l | none => false)
  (s.net.txns.filter (fun t => !twin t)).foldl (fun s t => s.finishTxn t St.TIMEOUT) s

/-- What the boundary into slot E + 1, E + 2 and E + 13 adds. -/
def Ctl.safeStep (s : Ctl) : Ctl :=
  match s.flt.safeAt with
  | none => s
  | some e =>
    let reached (k n : Nat) : Bool := s.flt.safeStep = n && decide (e + k ≤ s.slots)
    let done (n : Nat) (s : Ctl) : Ctl := { s with flt := { s.flt with safeStep := n } }
    if reached 1 0 then done 1 ((List.range 64).foldl Ctl.haltEngines s)
    else if reached 2 1 then
      let ls := (List.range 48).filter (fun l => !s.isTwinLink l)
      done 2 (ls.foldl Ctl.silence s).endOpenTxns
    else if reached 13 2 then done 3 (s.modMem (fun m => { m with selfRefresh := true }))
    else s

/-- A request for the safe state is met, in slot `at_`. -/
def Ctl.meetSafe (s : Ctl) (at_ : Nat) : Ctl :=
  match s.flt.safeReq with
  | some src => s.enterSafe src 0 at_
  | none => s

/-- SAFE_ENTRY (R362): the core cycle after a request for the safe state. -/
def execSafeEntry (s : State) : Out := s.ctlNext (fun c => c.meetSafe c.slots)

/-! ## Orderly stop (R361) -/

/-- The streams of a slice stop as in DRAINING, but for the user's program of a chunk update that has
started. -/
def Ctl.orderlyStreams (s : Ctl) (n : Nat) : Ctl :=
  let u := s.updOf n
  let x := s.stream n 2
  let keep := (match u.running with | some r => r.user | none => false) && (match x.run with | some c => c.upd | none => false)
  let q := s.rd (SLC_ENG_PC.STATE n 2)
  let s := s.stopStreams n
  let s := if keep then (s.setStream n 2 { x with queue := [] }).setEngState n 2 q else s
  s.setUpd n { u with active := false }

/-- Slices whose update program still runs. -/
def Ctl.updatesRunning (s : Ctl) : List Nat := (List.range 64).filter (fun n => (s.updOf n).running.isSome)

/-- The orderly stop starts at this boundary; a second one has no effect. -/
def Ctl.startOrderly (s : Ctl) (src : Nat) : Ctl :=
  if s.flt.orderlyAt.isSome || s.flt.safeAt.isSome then s
  else
    let f : Flt := { s.flt with orderlyAt := some (s.slots + 1), orderlySrc := src }
    let s := (({ s with flt := f }).wrB FLT_STATUS.ORDERLY true).fltRefresh
    let s := s.setStage Stg.ORDERLY_STOP
    let s := (List.range 64).foldl Ctl.orderlyStreams s
    let s := ((s.ops.map Prod.fst).filter s.opOpen).foldl (fun s k => s.abandonOp k St.TIMEOUT) s
    ((List.range 64).filter (fun d => s.storeState d = 2 || s.storeState d = 3)).foldl (fun s d => s.stepFail d Fail.ABANDONED) s

/-- The orderly stop ends: updates still running stop and are counted, and the safe state begins. -/
def Ctl.orderlyEnds (s : Ctl) : Ctl :=
  let cut := s.updatesRunning
  let s := cut.foldl (fun s n => s.setUpd n { s.updOf n with running := none }) s
  s.enterSafe s.flt.orderlySrc cut.length (s.slots + 1)

/-- The boundary that ends the present slot is one after B, with no update running or 3,125 slots on. -/
def Ctl.orderlyDue (s : Ctl) : Bool :=
  match s.flt.orderlyAt with
  | none => false
  | some b => decide (b < s.slots + 1) && (s.updatesRunning.isEmpty || decide (b + 3125 ≤ s.slots + 1))

/-! ## Updates that are cut off (R361) -/

/-- Elements of two lists, each from one or the other as a free value has it. -/
def mixed (k from_ : Nat) (a b : List Nat) : List Nat :=
  (List.range a.length).map (fun i =>
    if nbit (Config.freeWord k ((from_ + i) / 64)).toNat ((from_ + i) % 64) then b.getD i 0 else a.getD i 0)

/-- A record whose update is cut off: the copies that the update writes hold a mix of the elements of
`old` and `new`; the chunk state stands. -/
def Dev.cutRecord (old new : Dev) (d : Nat) (c : ChunkId) (k : Nat) (dv : Dev) : Dev :=
  let cur := (dv.ctl.chunkSt d c.k).cur
  let ce := dv.ctl.ce d
  let dv := dv.putWeights d c.k (!cur) (mixed k 0 (old.weights d c.k (!cur)).1 (new.weights d c.k (!cur)).1)
  (List.range (dv.ctl.rd (PST_LAYOUT.STATE_WORDS d))).foldl (fun dv j =>
    dv.putState d c.k j (!cur) (mixed k ((j + 1) * ce) (old.stateWord d c.k j (!cur)).1 (new.stateWord d c.k j (!cur)).1)) dv

/-- A built-in program stopped on a slice leaves its records part-written. -/
def Dev.cutUpdate (dv : Dev) (n : Nat) (r : RunUpd) : Dev :=
  if r.user || (dv.ctl.updOf n).running.isSome then dv
  else
    let (ok, new) := if (dv.ctl.tensor r.d r.job.t).prog = progOrtho then dv.runOrtho r.d r.job.t r.chunks else dv.runChunk r.d r.job
    if !ok then dv
    else r.chunks.foldl (fun dv' c =>
      let (k, s) := dv'.ctl.fresh
      Dev.cutRecord dv new r.d c k { dv' with ctl := s }) dv

/-- The updates that ran before a part of the boundary and were stopped by it. -/
def Dev.cutSince (before dv : Dev) : Dev :=
  before.ctl.updatesRunning.foldl (fun dv n =>
    match (before.ctl.updOf n).running with
    | some r => dv.cutUpdate n r
    | none => dv) dv

/-- ORDERLY_STOP_END (R361). -/
def execOrderlyStopEnd (s : State) : Out :=
  s.devNext (fun d => if d.ctl.orderlyDue then d.cutSince (d.onCtl Ctl.orderlyEnds) else d)

/-! ## Reactions (R354, R355) -/

/-- One reaction, of an event that names its subject. -/
def Ctl.reactTo (s : Ctl) (r : Nat) (e : Event) : Ctl :=
  match r with
  | 1 => match e.subj.slice with | some n => s.stopSlice n | none => s
  | 2 => match e.subj.domain with | some d => (s.slicesOf d).foldl Ctl.stopSlice s | none => s
  | 3 =>
    match s.dieOf e.subj with
    | none => s
    | some k => s.fenceDie k
  | 4 => s.startOrderly e.src
  | _ => s

/-- Step 1 of R26: the reactions due, with a safe state that they ask for, and the end of an orderly
stop. -/
def Ctl.reactions (s : Ctl) : Ctl :=
  let ends := s.orderlyDue
  let due := s.flt.due
  let s := due.foldl (fun s x => s.reactTo x.1 x.2) { s with flt := { s.flt with due := [] } }
  if s.flt.safeReq.isSome then s.meetSafe (s.slots + 1)
  else if ends then s.orderlyEnds else s

/-! ## Steps and replacements (R207, R330, R389) -/

/-- A slice's remap: at the first step boundary of its domain after OFF, or at once without a domain. -/
def Ctl.remapDue (s : Ctl) (marks : List Nat) (n : Nat) : Bool :=
  s.sliceLife n = Life.OFF &&
    (!s.bit (SLC_DOMAIN.ASSIGNED n) || !s.created (s.domOf n) || marks.contains (s.domOf n))

/-- The evaluation of every domain's step, and what waits for a step boundary. -/
def Ctl.stepsAt (s : Ctl) (marks : List Nat) : Ctl :=
  let s := ((List.range 64).filter s.created).foldl Ctl.stepBoundary s
  let s := marks.foldl Ctl.replacesNow s
  (s.tw.remap.filter (s.remapDue marks)).foldl Ctl.remap s

/-! ## Swaps and period boundaries (R57, R328) -/

/-- Step 2 of R26. -/
def Ctl.swapsAt (s : Ctl) : Ctl :=
  let S := s.now + 1
  let due := (List.range 64).filter s.swapDue
  let edges := (List.range 64).filter (fun d => s.created d && s.mer.counting && (s.periodEdge d || due.contains d))
  let s := edges.foldl Ctl.yieldPrimary s
  let s := (edges.filter s.tw.takeover.contains).foldl Ctl.takeoverNow s
  due.foldl (fun s d => s.phaseSwap d S) s

/-! ## The new slot -/

/-- What belongs to one slot only is empty again; draining ends or is cut off (R133, R134); links that
may idle do so (R53); the throttle level changes (R408). -/
def Ctl.newSlot (s : Ctl) : Ctl :=
  let s := { s with flt := { s.flt with onceSlot := [], msixSent := [] }, sw := { s.sw with txUsed := [] } }
  let ds := (List.range 64).filter (fun d => s.bit (SWX_EPOCH.DRAINING d))
  let s := ds.foldl (fun s d => if s.drainDue d then s.drainFinish d else (s.drainStuck d).drainRefresh d) s
  let s := ((List.range 48).filter s.idleReady).foldl Ctl.enterIdle s
  let s := ((List.range 64).filter s.armed).foldl Ctl.swapWake s
  s.throttle.safeStep

/-- What the slices may do in the new slot: members known missing, chunks to update, copies to send. -/
def Dev.slicesAt (d : Dev) : Dev :=
  let ks := (d.ctl.ops.map Prod.fst).filter d.ctl.opOpen
  let d := ks.foldl Dev.downMissing d
  let d := (List.range 64).foldl (fun d n => d.onCtl (fun s => s.startUpdate n)) d
  (List.range 64).foldl Dev.pump d

/-- Steps 1 and 2 of R26. -/
def Dev.slotEnds (d : Dev) (marks : List Nat) : Dev :=
  let d2 := d.cutSince (d.onCtl Ctl.reactions)
  d2.onCtl (fun s => (s.stepsAt marks).swapsAt)

/-- Step 3 of R26. -/
def Dev.lifecycleAt (d : Dev) : Dev :=
  let d' := (List.range 64).foldl Dev.sliceStep d
  (d.cutSince d').onCtl (fun s => (List.range 48).foldl Ctl.linkStep s)

/-- Events of the boundary itself, all after the first `k`, carry the stamp of its instant, which is the
first cycle of the new slot (R346; log entry 104). -/
def Ctl.stampFrom (s : Ctl) (k : Nat) : Ctl :=
  let stamp (e : Event) : Event := { e with slot := s.now, cyc := s.cyc }
  { s with flt := { s.flt with inflight := s.flt.inflight.take k ++ (s.flt.inflight.drop k).map stamp } }

/-- The boundary between two slots (R26). -/
def Dev.slotBoundary (d : Dev) : Dev :=
  let marks := (List.range 64).filter (fun k => (d.ctl.domMer k).mark)
  let d := d.onCtl (fun s => s.collectSlot.meetSafe s.slots)
  let k := d.ctl.flt.inflight.length
  let d := (d.slotEnds marks).lifecycleAt
  let e := d.onCtl (fun s => (s.countSlot.stampFrom k).newSlot)
  let d := (d.cutSince e).serveHeld
  ((d.twinSlot marks).seqAll).slicesAt

/-- SLOT_BOUNDARY (R26). -/
def execSlotBoundary (s : State) : Out := s.devNext Dev.slotBoundary

/-! ## Idling -/

/-- With no command waiting, a core cycle of the slot passes (log entry 3). -/
def Ctl.tick (s : Ctl) : Ctl := { s with cyc := min (s.cyc + 1) (s.slotCycles - 1) }

end Sys2Proof.Machine
end

