-- ==== Sys2Proof/Machine/Dispatch.lean ====
section
/-!
DEFINITION. The dispatch: one arm per command, each a direct call of its meaning.
-/

namespace Sys2Proof.Machine

def exec (i : Instr) (s : State) : Host.Outcome State Fault Refusal :=
  match i with
  | .registerWrite a => Sys2Proof.Machine.execRegisterWrite a s
  | .slotBoundary => Sys2Proof.Machine.execSlotBoundary s
  | .alignGo rt v => Sys2Proof.Machine.execAlignGo rt v s
  | .syncReq l t2 t3 => Sys2Proof.Machine.execSyncReq l t2 t3 s
  | .syncRsp l t4 => Sys2Proof.Machine.execSyncRsp l t4 s
  | .announce l => Sys2Proof.Machine.execAnnounce l s
  | .syncIntervalExpiry => Sys2Proof.Machine.execSyncIntervalExpiry s
  | .scheduleWindowWrite rt n off data => Sys2Proof.Machine.execScheduleWindowWrite rt n off data s
  | .bankLoad => Sys2Proof.Machine.execBankLoad s
  | .bankCheck => Sys2Proof.Machine.execBankCheck s
  | .phaseNextWrite rt d v => Sys2Proof.Machine.execPhaseNextWrite rt d v s
  | .swapArm rt d slot => Sys2Proof.Machine.execSwapArm rt d slot s
  | .swapDisarm rt d => Sys2Proof.Machine.execSwapDisarm rt d s
  | .swapWakeStart d => Sys2Proof.Machine.execSwapWakeStart d s
  | .phaseSwap d => Sys2Proof.Machine.execPhaseSwap d s
  | .linkIdleEntry l => Sys2Proof.Machine.execLinkIdleEntry l s
  | .trainingFrame l words obs => Sys2Proof.Machine.execTrainingFrame l words obs s
  | .eqTimeout l => Sys2Proof.Machine.execEqTimeout l s
  | .trainTimeout l => Sys2Proof.Machine.execTrainTimeout l s
  | .losAssert l ln => Sys2Proof.Machine.execLosAssert l ln s
  | .losDeassert l ln => Sys2Proof.Machine.execLosDeassert l ln s
  | .cdrLol l ln on => Sys2Proof.Machine.execCdrLol l ln on s
  | .pllLol l ln on => Sys2Proof.Machine.execPllLol l ln on s
  | .fecSym l ln => Sys2Proof.Machine.execFecSym l ln s
  | .refTrack l ln ppm => Sys2Proof.Machine.execRefTrack l ln ppm s
  | .idleEnter l => Sys2Proof.Machine.execIdleEnter l s
  | .wakeFail l => Sys2Proof.Machine.execWakeFail l s
  | .patternSelect rt l ln v => Sys2Proof.Machine.execPatternSelect rt l ln v s
  | .prbsClear rt l ln v => Sys2Proof.Machine.execPrbsClear rt l ln v s
  | .prbsSync l ln bits => Sys2Proof.Machine.execPrbsSync l ln bits s
  | .injectGo rt l ln v => Sys2Proof.Machine.execInjectGo rt l ln v s
  | .periodicInjection l ln => Sys2Proof.Machine.execPeriodicInjection l ln s
  | .autoMarginScan l ln height width => Sys2Proof.Machine.execAutoMarginScan l ln height width s
  | .marginGo rt l ln v => Sys2Proof.Machine.execMarginGo rt l ln v s
  | .marginDone l ln errors => Sys2Proof.Machine.execMarginDone l ln errors s
  | .blockReceive l lanes => Sys2Proof.Machine.execBlockReceive l lanes s
  | .replayTimeout l => Sys2Proof.Machine.execReplayTimeout l s
  | .linkDown l => Sys2Proof.Machine.execLinkDown l s
  | .linkRetrain l => Sys2Proof.Machine.execLinkRetrain l s
  | .capsRecord l sentNs rxNs => Sys2Proof.Machine.execCapsRecord l sentNs rxNs s
  | .capsTimeout l => Sys2Proof.Machine.execCapsTimeout l s
  | .packetIngress inp => Sys2Proof.Machine.execPacketIngress inp s
  | .egressStart l err => Sys2Proof.Machine.execEgressStart l err s
  | .outputArbitration l => Sys2Proof.Machine.execOutputArbitration l s
  | .drainEnd d => Sys2Proof.Machine.execDrainEnd d s
  | .drainStuck d => Sys2Proof.Machine.execDrainStuck d s
  | .swxGo rt v => Sys2Proof.Machine.execSwxGo rt v s
  | .zenithClear rt v => Sys2Proof.Machine.execZenithClear rt v s
  | .routingTableWrite rt d off data => Sys2Proof.Machine.execRoutingTableWrite rt d off data s
  | .mgmtRouteWrite rt off data => Sys2Proof.Machine.execMgmtRouteWrite rt off data s
  | .writeC ep => Sys2Proof.Machine.execWriteC ep s
  | .readReq ep => Sys2Proof.Machine.execReadReq ep s
  | .readRsp ep => Sys2Proof.Machine.execReadRsp ep s
  | .contrib n => Sys2Proof.Machine.execContrib n s
  | .mcast n => Sys2Proof.Machine.execMcast n s
  | .zenith n => Sys2Proof.Machine.execZenith n s
  | .mgmtCmd => Sys2Proof.Machine.execMgmtCmd s
  | .mgmtRsp ep => Sys2Proof.Machine.execMgmtRsp ep s
  | .nack ep => Sys2Proof.Machine.execNack ep s
  | .credit ep => Sys2Proof.Machine.execCredit ep s
  | .e2eTimeout ep txn => Sys2Proof.Machine.execE2eTimeout ep txn s
  | .streamEntryExpiry ep key => Sys2Proof.Machine.execStreamEntryExpiry ep key s
  | .descOpen => Sys2Proof.Machine.execDescOpen s
  | .descriptorWindowWrite rt n off data => Sys2Proof.Machine.execDescriptorWindowWrite rt n off data s
  | .groupEntryWrite rt d off data => Sys2Proof.Machine.execGroupEntryWrite rt d off data s
  | .ticketTake => Sys2Proof.Machine.execTicketTake s
  | .treeNodeComplete n desc chunk level node => Sys2Proof.Machine.execTreeNodeComplete n desc chunk level node s
  | .lateLimitExpiry n desc chunk => Sys2Proof.Machine.execLateLimitExpiry n desc chunk s
  | .memberExclude => Sys2Proof.Machine.execMemberExclude s
  | .memberReplace => Sys2Proof.Machine.execMemberReplace s
  | .memberReplaceEffect d => Sys2Proof.Machine.execMemberReplaceEffect d s
  | .tensorTableWrite rt d off data => Sys2Proof.Machine.execTensorTableWrite rt d off data s
  | .tensorLoad => Sys2Proof.Machine.execTensorLoad s
  | .pstGo rt d v => Sys2Proof.Machine.execPstGo rt d v s
  | .pause rt d v => Sys2Proof.Machine.execPause rt d v s
  | .pauseEffect d => Sys2Proof.Machine.execPauseEffect d s
  | .resolve rt d v => Sys2Proof.Machine.execResolve rt d v s
  | .rollback rt d v => Sys2Proof.Machine.execRollback rt d v s
  | .hsetWordWrite rt d h w v => Sys2Proof.Machine.execHsetWordWrite rt d h w v s
  | .outputFormatWrite rt d w v => Sys2Proof.Machine.execOutputFormatWrite rt d w v s
  | .factorLatch d t => Sys2Proof.Machine.execFactorLatch d t s
  | .updateComplete n => Sys2Proof.Machine.execUpdateComplete n s
  | .updateTimeout n => Sys2Proof.Machine.execUpdateTimeout n s
  | .streamStart n st => Sys2Proof.Machine.execStreamStart n st s
  | .instructionComplete n st => Sys2Proof.Machine.execInstructionComplete n st s
  | .semaphoreWaitPass n st => Sys2Proof.Machine.execSemaphoreWaitPass n st s
  | .meridianWaitPass n st => Sys2Proof.Machine.execMeridianWaitPass n st s
  | .programWatchdog n st => Sys2Proof.Machine.execProgramWatchdog n st s
  | .nop n st => Sys2Proof.Machine.execNop n st s
  | .endC n st => Sys2Proof.Machine.execEndC n st s
  | .swait n st => Sys2Proof.Machine.execSwait n st s
  | .sadd n st => Sys2Proof.Machine.execSadd n st s
  | .mwait n st => Sys2Proof.Machine.execMwait n st s
  | .fence n st => Sys2Proof.Machine.execFence n st s
  | .nfsig n st => Sys2Proof.Machine.execNfsig n st s
  | .lar n st => Sys2Proof.Machine.execLar n st s
  | .aadd n st => Sys2Proof.Machine.execAadd n st s
  | .loop n st => Sys2Proof.Machine.execLoop n st s
  | .addC n => Sys2Proof.Machine.execAddC n s
  | .subC n => Sys2Proof.Machine.execSubC n s
  | .andC n => Sys2Proof.Machine.execAndC n s
  | .orC n => Sys2Proof.Machine.execOrC n s
  | .xorC n => Sys2Proof.Machine.execXorC n s
  | .shl n => Sys2Proof.Machine.execShl n s
  | .shr n => Sys2Proof.Machine.execShr n s
  | .sar n => Sys2Proof.Machine.execSar n s
  | .mulC n => Sys2Proof.Machine.execMulC n s
  | .mulhu n => Sys2Proof.Machine.execMulhu n s
  | .divu n => Sys2Proof.Machine.execDivu n s
  | .remu n => Sys2Proof.Machine.execRemu n s
  | .slt n => Sys2Proof.Machine.execSlt n s
  | .sltu n => Sys2Proof.Machine.execSltu n s
  | .addi n => Sys2Proof.Machine.execAddi n s
  | .andi n => Sys2Proof.Machine.execAndi n s
  | .ori n => Sys2Proof.Machine.execOri n s
  | .xori n => Sys2Proof.Machine.execXori n s
  | .shli n => Sys2Proof.Machine.execShli n s
  | .shri n => Sys2Proof.Machine.execShri n s
  | .li n => Sys2Proof.Machine.execLi n s
  | .lui n => Sys2Proof.Machine.execLui n s
  | .ld8 n => Sys2Proof.Machine.execLd8 n s
  | .ld16 n => Sys2Proof.Machine.execLd16 n s
  | .ld32 n => Sys2Proof.Machine.execLd32 n s
  | .ld64 n => Sys2Proof.Machine.execLd64 n s
  | .st8 n => Sys2Proof.Machine.execSt8 n s
  | .st16 n => Sys2Proof.Machine.execSt16 n s
  | .st32 n => Sys2Proof.Machine.execSt32 n s
  | .st64 n => Sys2Proof.Machine.execSt64 n s
  | .ldf n => Sys2Proof.Machine.execLdf n s
  | .stf n => Sys2Proof.Machine.execStf n s
  | .beq n => Sys2Proof.Machine.execBeq n s
  | .bne n => Sys2Proof.Machine.execBne n s
  | .blt n => Sys2Proof.Machine.execBlt n s
  | .bge n => Sys2Proof.Machine.execBge n s
  | .bltu n => Sys2Proof.Machine.execBltu n s
  | .bgeu n => Sys2Proof.Machine.execBgeu n s
  | .jal n => Sys2Proof.Machine.execJal n s
  | .jalr n => Sys2Proof.Machine.execJalr n s
  | .post n => Sys2Proof.Machine.execPost n s
  | .rdfeat n => Sys2Proof.Machine.execRdfeat n s
  | .rdsys n => Sys2Proof.Machine.execRdsys n s
  | .mwaitr n => Sys2Proof.Machine.execMwaitr n s
  | .draw n => Sys2Proof.Machine.execDraw n s
  | .rdsem n => Sys2Proof.Machine.execRdsem n s
  | .fadd n => Sys2Proof.Machine.execFadd n s
  | .fsub n => Sys2Proof.Machine.execFsub n s
  | .fmul n => Sys2Proof.Machine.execFmul n s
  | .fdiv n => Sys2Proof.Machine.execFdiv n s
  | .fsqrt n => Sys2Proof.Machine.execFsqrt n s
  | .fma n => Sys2Proof.Machine.execFma n s
  | .fmin n => Sys2Proof.Machine.execFmin n s
  | .fmax n => Sys2Proof.Machine.execFmax n s
  | .i2f n => Sys2Proof.Machine.execI2f n s
  | .f2i n => Sys2Proof.Machine.execF2i n s
  | .feq n => Sys2Proof.Machine.execFeq n s
  | .flt n => Sys2Proof.Machine.execFlt n s
  | .fle n => Sys2Proof.Machine.execFle n s
  | .tload n => Sys2Proof.Machine.execTload n s
  | .cload n => Sys2Proof.Machine.execCload n s
  | .czero n => Sys2Proof.Machine.execCzero n s
  | .mma n check => Sys2Proof.Machine.execMma n check s
  | .cstore n => Sys2Proof.Machine.execCstore n s
  | .vld n => Sys2Proof.Machine.execVld n s
  | .vst n => Sys2Proof.Machine.execVst n s
  | .vbcast n => Sys2Proof.Machine.execVbcast n s
  | .vrng n => Sys2Proof.Machine.execVrng n s
  | .vadd n => Sys2Proof.Machine.execVadd n s
  | .vsub n => Sys2Proof.Machine.execVsub n s
  | .vmul n => Sys2Proof.Machine.execVmul n s
  | .vfma n => Sys2Proof.Machine.execVfma n s
  | .vdiv n => Sys2Proof.Machine.execVdiv n s
  | .vsqrt n => Sys2Proof.Machine.execVsqrt n s
  | .vmin n => Sys2Proof.Machine.execVmin n s
  | .vmax n => Sys2Proof.Machine.execVmax n s
  | .vabs n => Sys2Proof.Machine.execVabs n s
  | .vneg n => Sys2Proof.Machine.execVneg n s
  | .vsign n => Sys2Proof.Machine.execVsign n s
  | .vcmplt n => Sys2Proof.Machine.execVcmplt n s
  | .vcmpeq n => Sys2Proof.Machine.execVcmpeq n s
  | .vsel n => Sys2Proof.Machine.execVsel n s
  | .vtid n => Sys2Proof.Machine.execVtid n s
  | .viadd n => Sys2Proof.Machine.execViadd n s
  | .vand n => Sys2Proof.Machine.execVand n s
  | .vor n => Sys2Proof.Machine.execVor n s
  | .vxor n => Sys2Proof.Machine.execVxor n s
  | .vshl n => Sys2Proof.Machine.execVshl n s
  | .vshr n => Sys2Proof.Machine.execVshr n s
  | .vi2f n => Sys2Proof.Machine.execVi2f n s
  | .vf2i n => Sys2Proof.Machine.execVf2i n s
  | .vred n => Sys2Proof.Machine.execVred n s
  | .vmask n => Sys2Proof.Machine.execVmask n s
  | .vstu n => Sys2Proof.Machine.execVstu n s
  | .copy n => Sys2Proof.Machine.execCopy n s
  | .copy2d n => Sys2Proof.Machine.execCopy2d n s
  | .fill n => Sys2Proof.Machine.execFill n s
  | .ckfeed n => Sys2Proof.Machine.execCkfeed n s
  | .ckget n => Sys2Proof.Machine.execCkget n s
  | .ckput n => Sys2Proof.Machine.execCkput n s
  | .tree n => Sys2Proof.Machine.execTree n s
  | .stopArm rt n v => Sys2Proof.Machine.execStopArm rt n v s
  | .sliceHalt n => Sys2Proof.Machine.execSliceHalt n s
  | .resume rt n v => Sys2Proof.Machine.execResume rt n v s
  | .nonfiniteClear rt n e v => Sys2Proof.Machine.execNonfiniteClear rt n e v s
  | .debugWindowAccess rt n off write size => Sys2Proof.Machine.execDebugWindowAccess rt n off write size s
  | .programImageWrite rt n off data => Sys2Proof.Machine.execProgramImageWrite rt n off data s
  | .dramAccess rq => Sys2Proof.Machine.execDramAccess rq s
  | .patrolScrub h err => Sys2Proof.Machine.execPatrolScrub h err s
  | .memRetire rt v => Sys2Proof.Machine.execMemRetire rt v s
  | .relocationDone stack => Sys2Proof.Machine.execRelocationDone stack s
  | .refreshWindow group => Sys2Proof.Machine.execRefreshWindow group s
  | .stagingScrub n addr err => Sys2Proof.Machine.execStagingScrub n addr err s
  | .bufferRequest owner size => Sys2Proof.Machine.execBufferRequest owner size s
  | .bufferRelease owner pool cls buf => Sys2Proof.Machine.execBufferRelease owner pool cls buf s
  | .poolStarved owner => Sys2Proof.Machine.execPoolStarved owner s
  | .poolLeak owner => Sys2Proof.Machine.execPoolLeak owner s
  | .zeroingDone d => Sys2Proof.Machine.execZeroingDone d s
  | .slcCtrlEnable rt n => Sys2Proof.Machine.execSlcCtrlEnable rt n s
  | .slcCtrlDisable rt n => Sys2Proof.Machine.execSlcCtrlDisable rt n s
  | .lnkLifeEnable rt l => Sys2Proof.Machine.execLnkLifeEnable rt l s
  | .lnkLifeDisable rt l force => Sys2Proof.Machine.execLnkLifeDisable rt l force s
  | .sliceEnable => Sys2Proof.Machine.execSliceEnable s
  | .sliceDisable => Sys2Proof.Machine.execSliceDisable s
  | .linkEnable => Sys2Proof.Machine.execLinkEnable s
  | .linkDisable => Sys2Proof.Machine.execLinkDisable s
  | .startingDone n => Sys2Proof.Machine.execStartingDone n s
  | .sliceReachesOff n => Sys2Proof.Machine.execSliceReachesOff n s
  | .linkReachesOff l => Sys2Proof.Machine.execLinkReachesOff l s
  | .drainTimeout unit => Sys2Proof.Machine.execDrainTimeout unit s
  | .twnGo rt v => Sys2Proof.Machine.execTwnGo rt v s
  | .pairing => Sys2Proof.Machine.execPairing s
  | .twinRecord => Sys2Proof.Machine.execTwinRecord s
  | .heartbeatTimeout => Sys2Proof.Machine.execHeartbeatTimeout s
  | .presenceLoss deasserted => Sys2Proof.Machine.execPresenceLoss deasserted s
  | .releaseRecord n => Sys2Proof.Machine.execReleaseRecord n s
  | .updateRecord n => Sys2Proof.Machine.execUpdateRecord n s
  | .exclRecord n => Sys2Proof.Machine.execExclRecord n s
  | .rerunDone n => Sys2Proof.Machine.execRerunDone n s
  | .sigWaitExpiry n => Sys2Proof.Machine.execSigWaitExpiry n s
  | .mirrorWrite n => Sys2Proof.Machine.execMirrorWrite n s
  | .takeoverRequest rt d v => Sys2Proof.Machine.execTakeoverRequest rt d v s
  | .mirrorTakeover d => Sys2Proof.Machine.execMirrorTakeover d s
  | .resilverDone d => Sys2Proof.Machine.execResilverDone d s
  | .followExit n => Sys2Proof.Machine.execFollowExit n s
  | .spareRemap n => Sys2Proof.Machine.execSpareRemap n s
  | .faultEvent evs => Sys2Proof.Machine.execFaultEvent evs s
  | .recordWrite => Sys2Proof.Machine.execRecordWrite s
  | .dieFenced die => Sys2Proof.Machine.execDieFenced die s
  | .dieFenceFail die => Sys2Proof.Machine.execDieFenceFail die s
  | .orderlyStopEnd => Sys2Proof.Machine.execOrderlyStopEnd s
  | .safeEntry => Sys2Proof.Machine.execSafeEntry s
  | .collectorParity off => Sys2Proof.Machine.execCollectorParity off s
  | .fltForce rt k v => Sys2Proof.Machine.execFltForce rt k v s
  | .fltFwReport v => Sys2Proof.Machine.execFltFwReport v s
  | .fltActionWrite rt src v => Sys2Proof.Machine.execFltActionWrite rt src v s
  | .clearSource rt v => Sys2Proof.Machine.execClearSource rt v s
  | .clearAll rt v => Sys2Proof.Machine.execClearAll rt v s
  | .clearFirst rt v => Sys2Proof.Machine.execClearFirst rt v s
  | .clearDropped rt v => Sys2Proof.Machine.execClearDropped rt v s
  | .ringTailWrite rt v => Sys2Proof.Machine.execRingTailWrite rt v s
  | .parityTest rt v => Sys2Proof.Machine.execParityTest rt v s
  | .chkCountClear rt v => Sys2Proof.Machine.execChkCountClear rt v s
  | .mbxDoorbellGo rt m v => Sys2Proof.Machine.execMbxDoorbellGo rt m v s
  | .hello => Sys2Proof.Machine.execHello s
  | .getInfo => Sys2Proof.Machine.execGetInfo s
  | .sensorRead => Sys2Proof.Machine.execSensorRead s
  | .sensorWrite => Sys2Proof.Machine.execSensorWrite s
  | .regRead => Sys2Proof.Machine.execRegRead s
  | .regWrite => Sys2Proof.Machine.execRegWrite s
  | .fwStage => Sys2Proof.Machine.execFwStage s
  | .fwCommit => Sys2Proof.Machine.execFwCommit s
  | .resetC => Sys2Proof.Machine.execResetC s
  | .sleep => Sys2Proof.Machine.execSleep s
  | .wake => Sys2Proof.Machine.execWake s
  | .wakeComplete => Sys2Proof.Machine.execWakeComplete s
  | .wakeHost => Sys2Proof.Machine.execWakeHost s
  | .threshWrite => Sys2Proof.Machine.execThreshWrite s
  | .thresholdEntryWrite rt k v => Sys2Proof.Machine.execThresholdEntryWrite rt k v s
  | .mailboxExpiry key => Sys2Proof.Machine.execMailboxExpiry key s
  | .bootRom => Sys2Proof.Machine.execBootRom s
  | .bootConfirm v => Sys2Proof.Machine.execBootConfirm v s
  | .bootFallback => Sys2Proof.Machine.execBootFallback s
  | .fwKick rt v => Sys2Proof.Machine.execFwKick rt v s
  | .fwWatchdog => Sys2Proof.Machine.execFwWatchdog s
  | .restartComplete => Sys2Proof.Machine.execRestartComplete s
  | .sensorSample k x => Sys2Proof.Machine.execSensorSample k x s
  | .sensorRawWrite k raw => Sys2Proof.Machine.execSensorRawWrite k raw s
  | .sensorFail k => Sys2Proof.Machine.execSensorFail k s
  | .pwrVsetWrite rt g v => Sys2Proof.Machine.execPwrVsetWrite rt g v s
  | .wakeReasonClear rt v => Sys2Proof.Machine.execWakeReasonClear rt v s
  | .wakeNReassert => Sys2Proof.Machine.execWakeNReassert s
  | .hostLinkTrainingStart => Sys2Proof.Machine.execHostLinkTrainingStart s
  | .fstopSample a b => Sys2Proof.Machine.execFstopSample a b s
  | .fstopDiscFault => Sys2Proof.Machine.execFstopDiscFault s
  | .refOkSet => Sys2Proof.Machine.execRefOkSet s
  | .refLoss => Sys2Proof.Machine.execRefLoss s
  | .domainApertureAccess rt off write size => Sys2Proof.Machine.execDomainApertureAccess rt off write size s
  | .stagingApertureAccess rt off write size => Sys2Proof.Machine.execStagingApertureAccess rt off write size s
  | .vauxPowerUp => Sys2Proof.Machine.execVauxPowerUp s
  | .vauxUndervoltage => Sys2Proof.Machine.execVauxUndervoltage s
  | .vinMainUndervoltage => Sys2Proof.Machine.execVinMainUndervoltage s
  | .vinMainOvervoltage => Sys2Proof.Machine.execVinMainOvervoltage s
  | .porstNAssert => Sys2Proof.Machine.execPorstNAssert s
  | .controlDieRelease bootSel => Sys2Proof.Machine.execControlDieRelease bootSel s
  | .startUpStep ok bad => Sys2Proof.Machine.execStartUpStep ok bad s
  | .perstN asserted => Sys2Proof.Machine.execPerstN asserted s
  | .functionLevelReset => Sys2Proof.Machine.execFunctionLevelReset s
  | .entdaa da => Sys2Proof.Machine.execEntdaa da s
  | .rstdaa => Sys2Proof.Machine.execRstdaa s
  | .setnewda da => Sys2Proof.Machine.execSetnewda da s
  | .getpid => Sys2Proof.Machine.execGetpid s
  | .getbcr => Sys2Proof.Machine.execGetbcr s
  | .getdcr => Sys2Proof.Machine.execGetdcr s
  | .getmrl => Sys2Proof.Machine.execGetmrl s
  | .getmwl => Sys2Proof.Machine.execGetmwl s
  | .enec events => Sys2Proof.Machine.execEnec events s
  | .disec events => Sys2Proof.Machine.execDisec events s
  | .getstatus => Sys2Proof.Machine.execGetstatus s
  | .extest cells => Sys2Proof.Machine.execExtest cells s
  | .idcode => Sys2Proof.Machine.execIdcode s
  | .samplePreload cells => Sys2Proof.Machine.execSamplePreload cells s
  | .clamp => Sys2Proof.Machine.execClamp s
  | .highz => Sys2Proof.Machine.execHighz s
  | .bypass ir => Sys2Proof.Machine.execBypass ir s
  | .vinMainInRange mv => Sys2Proof.Machine.execVinMainInRange mv s
  | .i3cPrivateWrite data => Sys2Proof.Machine.execI3cPrivateWrite data s
  | .channelInterfaceLost stack chan => Sys2Proof.Machine.execChannelInterfaceLost stack chan s
  | .merNowRead rt peer half => Sys2Proof.Machine.execMerNowRead rt peer half s

end Sys2Proof.Machine
end

