-- ==== Sys2Proof/Safety.lean ====
section
/-!
DEFINITION. What counts as a safe run (the memories stay in canonical form, and no step stops), and the
words in which the statements speak of a command: when an instruction of a stream issues, and what
stays as it was.
-/

namespace Sys2Proof.Machine

/-- The memories of a state are in canonical form. -/
def State.memWf (s : State) : Prop := s.dev.ram.wf = true

/-- A step answers a next state. -/
def completes (s : State) : Prop := ∃ t, step s = .next t

/-- Everything but the device's memories and the queue. -/
abbrev State.c (s : State) : Ctl := s.dev.ctl

/-- A state with everything but the memories and the queue replaced. -/
def State.withC (s : State) (c : Ctl) : State := { dev := { ctl := c, ram := s.dev.ram }, pending := s.pending }

/-- The next instruction of stream `t` of slice `n` is the word `w` of opcode `op`, with no stray bit,
and it may issue: the stream runs, and where the word has WEN its wait has passed or passes now. -/
structure Issues (c : Ctl) (n t op w : Nat) : Prop where
  may : c.mayIssue n t = true
  word : c.nextWord n t = w
  opcode : w % 256 = op
  clean : ∃ fs, operands t op = some fs ∧ strayBits w fs = false
  wen : nbit w 14 = true → (c.stream n t).woken = false → c.semReady n t (nfld w 8 6) 1 = true

/-- A word takes one from its WEN semaphore when it issues. -/
def takesWen (c : Ctl) (n t w : Nat) : Prop := nbit w 14 = true ∧ (c.stream n t).woken = false

/-- The state an instruction acts on: its WEN wait passed, counted as issued, the program moved on. -/
def Ctl.issued (c : Ctl) (n t w : Nat) (isEnd : Bool) : Ctl :=
  (if nbit w 14 && !(c.stream n t).woken then c.setSem n (nfld w 8 6) (c.sem n (nfld w 8 6) - 1) else c).pass n t w isEnd

/-- Everything that is neither a register nor an engine. -/
def Ctl.others (c : Ctl) : Ctl := { c with bar0 := [], eng := [] }

/-- What no instruction of stream `t` of slice `n` changes: every register but the stream's
SLC_ENG_PC, every other slice's engines, every other stream, and everything that is neither a
register nor an engine. -/
structure StreamFrame (s u : State) (n t : Nat) : Prop where
  queue : u.pending = s.pending
  ram : u.dev.ram = s.dev.ram
  words : ∀ a, a ≠ SLC_ENG_PC.addr n t → u.c.word a = s.c.word a
  slices : ∀ m, m ≠ n → u.c.engOf m = s.c.engOf m
  streams : ∀ v, v ≠ t → u.c.stream n v = s.c.stream n v
  rest : u.c.others = s.c.others

/-- A semaphore after an instruction issues: one less where it is the word's WEN semaphore. -/
def Ctl.semAfter (c : Ctl) (n t w i : Nat) : Nat :=
  if nbit w 14 = true ∧ (c.stream n t).woken = false ∧ i = nfld w 8 6 then c.sem n i - 1 else c.sem n i

/-- The rest of a slice's engines is unchanged: scalar data memory, tiles, accumulators, thread
registers, predicates and check-value units. -/
structure EngineFrame (s u : State) (n : Nat) : Prop where
  dmem : (u.c.engOf n).dmem = (s.c.engOf n).dmem
  tiles : (u.c.engOf n).tiles = (s.c.engOf n).tiles
  accs : (u.c.engOf n).accs = (s.c.engOf n).accs
  vregs : (u.c.engOf n).vregs = (s.c.engOf n).vregs
  preds : (u.c.engOf n).preds = (s.c.engOf n).preds
  checks : (u.c.engOf n).checks = (s.c.engOf n).checks
  stop : (u.c.engOf n).idleFrom = (s.c.engOf n).idleFrom

/-- Every semaphore of the slice is as it was but the word's WEN semaphore, from which issuing took one. -/
def SemsKept (s u : State) (n t w : Nat) : Prop := ∀ i, u.c.sem n i = s.c.semAfter n t w i

/-- Every register of the stream is as it was. -/
def RegsKept (s u : State) (n t : Nat) : Prop := ∀ r, u.c.reg n t r = s.c.reg n t r

/-- The program of stream `t` has moved on by one instruction: its program counter follows its loops,
and ICOUNT counts it (R240, R267). -/
structure MovedOn (s u : State) (n t : Nat) : Prop where
  pc : u.c.pcOf n t = (loopNext (s.c.stream n t).loops (s.c.pcOf n t)).1 % 2 ^ 13
  icount : u.c.rd (SLC_ENG_PC.ICOUNT n t) = (s.c.rd (SLC_ENG_PC.ICOUNT n t) + 1) % 2 ^ 32
  state : u.c.engState n t = s.c.engState n t

/-- An instruction of stream `t` that wrote `v` to register `i` of the stream and did nothing else:
x0 of the scalar core discards the write (R244). -/
structure WroteReg (s u : State) (n t w i : Nat) (v : W64) : Prop where
  regs : ∀ r, u.c.reg n t r = if r = i ∧ ¬ (t = 2 ∧ r = 0) then v else s.c.reg n t r
  moved : MovedOn s u n t
  frame : StreamFrame s u n t
  engine : EngineFrame s u n
  sems : SemsKept s u n t w

/-- An instruction of stream `t` that issued and changed nothing else. -/
structure Passed (s u : State) (n t w : Nat) : Prop where
  regs : RegsKept s u n t
  moved : MovedOn s u n t
  frame : StreamFrame s u n t
  engine : EngineFrame s u n
  sems : SemsKept s u n t w

/-! ## Accesses and events -/

/-- A byte of a register or window word. -/
def Ctl.busByte (c : Ctl) (x : Nat) : Nat := getFld (c.word (x / 8 * 8)) (8 * (x % 8)) 8

/-- One naturally aligned access of 4 or 8 bytes (Table MGT-6). -/
abbrev oneAccess (a n : Nat) : Prop := (n = 4 ∨ n = 8) ∧ a % n = 0

/-- The bytes are stored at their address and no other byte of registers and windows changes but those
of the word `keep`. -/
structure Stored (s u : State) (a : Nat) (bs : List Byte) (keep : Option Nat) : Prop where
  bytes : ∀ i, i < bs.length → u.c.busByte (a + i) = (bs.getD i 0).toNat
  rest : ∀ x, (x < a ∨ a + bs.length ≤ x) → keep ≠ some (x / 8 * 8) → u.c.busByte x = s.c.busByte x
  ram : u.dev.ram = s.dev.ram
  queue : u.pending = s.pending

/-- An event of a source has been raised: it is in flight, stamped with the count, and no register has
changed. -/
structure Raised (s u : State) (src d4 d5 : Nat) : Prop where
  words : ∀ x, u.c.word x = s.c.word x
  ram : u.dev.ram = s.dev.ram
  queue : u.pending = s.pending
  event : ∃ e, u.c.flt.inflight = s.c.flt.inflight ++ [e] ∧ e.src = src ∧ e.d4 = d4 ∧ e.d5 = d5 ∧
    e.slot = s.c.now ∧ e.cyc = s.c.cyc

/-- The access changed nothing and is logged as REG_REFUSED with its size, status and route (Table
FLT-9). -/
abbrev Refused (s u : State) (rt a n st : Nat) : Prop :=
  Raised s u Src.REG_REFUSED a (n % 16 + st * 256 + rt * 65536)

end Sys2Proof.Machine
end

