-- ==== Sys2Proof/Certificates/Slice0/Obligations.lean ====
section
/-!
DEFINITION. The statements for the provers: each formalises numbered rules of spec/, over every state
and operands that meet its hypotheses; every command has a statement that says what it does where it
completes.
-/

namespace Sys2Proof.Machine

/-! ## The scalar core: Table SLC-4 -/

/-- The integer instructions of the R format: command, opcode and result of ra and rb. -/
def intR : List ((Fin 64 → Instr) × Nat × (W64 → W64 → W64)) :=
  [(.addC, 0x10, fun a b => a + b), (.subC, 0x11, fun a b => a - b), (.andC, 0x12, fun a b => a &&& b),
   (.orC, 0x13, fun a b => a ||| b), (.xorC, 0x14, fun a b => a ^^^ b),
   (.shl, 0x15, fun a b => a <<< (b.toNat % 64)), (.shr, 0x16, fun a b => a >>> (b.toNat % 64)),
   (.sar, 0x17, fun a b => a.sshiftRight (b.toNat % 64)), (.mulC, 0x18, fun a b => a * b),
   (.mulhu, 0x19, fun a b => BitVec.ofNat 64 (a.toNat * b.toNat / 2 ^ 64)),
   (.divu, 0x1A, fun a b => if b = 0 then BitVec.allOnes 64 else a / b),
   (.remu, 0x1B, fun a b => if b = 0 then a else a % b),
   (.slt, 0x1C, fun a b => if a.toInt < b.toInt then 1 else 0),
   (.sltu, 0x1D, fun a b => if a.toNat < b.toNat then 1 else 0)]

/-- The integer instructions of the I format: command, opcode and result of ra and the immediate. -/
def intI : List ((Fin 64 → Instr) × Nat × (W64 → W64 → W64)) :=
  [(.addi, 0x20, fun a b => a + b), (.andi, 0x21, fun a b => a &&& b), (.ori, 0x22, fun a b => a ||| b),
   (.xori, 0x23, fun a b => a ^^^ b), (.shli, 0x24, fun a b => a <<< (b.toNat % 64)),
   (.shri, 0x25, fun a b => a >>> (b.toNat % 64)), (.li, 0x26, fun _ b => b)]

/-- The FP32 instructions of two operands, and FSQRT of one: command, opcode and result. -/
def fpR : List ((Fin 64 → Instr) × Nat × (Bool → Nat → Nat → Nat)) :=
  [(.fadd, 0x40, fadd), (.fsub, 0x41, fsub), (.fmul, 0x42, fmul), (.fdiv, 0x43, fdiv),
   (.fsqrt, 0x44, fun st a _ => fsqrt st a), (.fmin, 0x46, fminimum), (.fmax, 0x47, fmaximum),
   (.feq, 0x4A, fun st a b => b2n (feq st a b)), (.flt, 0x4B, fun st a b => b2n (flt st a b)),
   (.fle, 0x4C, fun st a b => b2n (fle st a b))]

/-- The loads: command, opcode and width in bytes. -/
def loads : List ((Fin 64 → Instr) × Nat × Nat) := [(.ld8, 0x28, 1), (.ld16, 0x29, 2), (.ld32, 0x2A, 4), (.ld64, 0x2B, 8)]

/-- The stores: command, opcode and width in bytes. -/
def stores : List ((Fin 64 → Instr) × Nat × Nat) := [(.st8, 0x2C, 1), (.st16, 0x2D, 2), (.st32, 0x2E, 4), (.st64, 0x2F, 8)]

/-- The conditional branches: command, opcode and comparison of ra and rb. -/
def branches : List ((Fin 64 → Instr) × Nat × (W64 → W64 → Prop)) :=
  [(.beq, 0x32, fun a b => a = b), (.bne, 0x33, fun a b => a ≠ b), (.blt, 0x34, fun a b => a.toInt < b.toInt),
   (.bge, 0x35, fun a b => b.toInt ≤ a.toInt), (.bltu, 0x36, fun a b => a.toNat < b.toNat),
   (.bgeu, 0x37, fun a b => b.toNat ≤ a.toNat)]

/-- The data-memory address of a load or a store: ra + imm modulo 2^64. -/
def memAddr (c : Ctl) (n w : Nat) : Nat := (c.x n (fRa w) + immOf w).toNat

/-- The operands of a branch, in the B format: ra at [26:22] and rb at [31:27]. -/
def brA (c : Ctl) (n w : Nat) : W64 := c.x n (nfld w 22 5)
def brB (c : Ctl) (n w : Nat) : W64 := c.x n (nfld w 27 5)

/-- A jump of the scalar core to instruction `target`: it is counted, register `i` takes `v` (none for
a branch), the program counter is the target, and nothing else changes. -/
structure Jumped (s u : State) (n w : Nat) (link : Option (Nat × W64)) (target : Nat) : Prop where
  pc : u.c.pcOf n 2 = target
  inside : (u.c.stream n 2).off = false
  icount : u.c.rd (SLC_ENG_PC.ICOUNT n 2) = (s.c.rd (SLC_ENG_PC.ICOUNT n 2) + 1) % 2 ^ 32
  regs : ∀ r, u.c.x n r = match link with
    | some (i, v) => if r = i ∧ r ≠ 0 then v else s.c.x n r
    | none => s.c.x n r
  frame : StreamFrame s u n 2
  engine : EngineFrame s u n
  sems : SemsKept s u n 2 w

end Sys2Proof.Machine

open Sys2Proof Sys2Proof.Machine

/-- R244, R245: each integer instruction of the R format writes its result to rd (x0 discards it) and
changes nothing else but the program counter and ICOUNT; a WEN word takes one from its semaphore. -/
def ScalarIntegerRRules : Prop :=
  ∀ f ∈ intR, ∀ (n : Fin 64) (s : State) (w : Nat), Issues s.c n 2 f.2.1 w →
    ∃ u, exec (f.1 n) s = .next u ∧ WroteReg s u n 2 w (fRd w) (f.2.2 (s.c.x n (fRa w)) (s.c.x n (fRb w)))

/-- R245: each integer instruction of the I format, LI and LUI (which keeps the lower half of rd). -/
def ScalarIntegerIRules : Prop :=
  (∀ f ∈ intI, ∀ (n : Fin 64) (s : State) (w : Nat), Issues s.c n 2 f.2.1 w →
    ∃ u, exec (f.1 n) s = .next u ∧ WroteReg s u n 2 w (fRd w) (f.2.2 (s.c.x n (fRa w)) (immOf w))) ∧
  ∀ (n : Fin 64) (s : State) (w : Nat), Issues s.c n 2 0x27 w →
    ∃ u, exec (.lui n) s = .next u ∧ WroteReg s u n 2 w (fRd w)
      (BitVec.ofNat 64 ((s.c.x n (fRd w)).toNat % 2 ^ 32 + nfld w 32 32 * 2 ^ 32))

/-- R244, R245: every integer instruction of the scalar core, in both formats. -/
def Obligations.ScalarInteger : Prop := ScalarIntegerRRules ∧ ScalarIntegerIRules

/-- R244, R245: the FP32 instructions read the low 32 bits of their operands in the domain's arithmetic
mode and write the result zero-extended; FMA, I2F and F2I, whose result is a signed 64-bit integer. -/
def Obligations.ScalarFp : Prop :=
  (∀ f ∈ fpR, ∀ (n : Fin 64) (s : State) (w : Nat), Issues s.c n 2 f.2.1 w →
    ∃ u, exec (f.1 n) s = .next u ∧ WroteReg s u n 2 w (fRd w)
      (BitVec.ofNat 64 (f.2.2 (s.c.strictOf n) (lo32 (s.c.x n (fRa w))) (lo32 (s.c.x n (fRb w)))))) ∧
  ∀ (n : Fin 64) (s : State) (w : Nat),
    (Issues s.c n 2 0x45 w → ∃ u, exec (.fma n) s = .next u ∧ WroteReg s u n 2 w (fRd w)
      (BitVec.ofNat 64 (ffma (s.c.strictOf n) (lo32 (s.c.x n (fRa w))) (lo32 (s.c.x n (fRb w))) (lo32 (s.c.x n (fRc w)))))) ∧
    (Issues s.c n 2 0x48 w → ∃ u, exec (.i2f n) s = .next u ∧ WroteReg s u n 2 w (fRd w)
      (BitVec.ofNat 64 (i2f (s.c.strictOf n) (s.c.x n (fRa w)).toInt))) ∧
    (Issues s.c n 2 0x49 w → ∃ u, exec (.f2i n) s = .next u ∧ WroteReg s u n 2 w (fRd w)
      (BitVec.ofInt 64 (f2i (s.c.strictOf n) 64 (lo32 (s.c.x n (fRa w))))))

/-- R244, R245: an aligned load inside the data memory writes the little-endian number of its bytes,
zero-extended; LDF writes the eight bytes of a window read that succeeds. -/
def ScalarLoadsRules : Prop :=
  (∀ f ∈ loads, ∀ (n : Fin 64) (s : State) (w : Nat), Issues s.c n 2 f.2.1 w →
    memAddr s.c n w % f.2.2 = 0 → memAddr s.c n w + f.2.2 ≤ 0x4_0000 →
    ∃ u, exec (f.1 n) s = .next u ∧ WroteReg s u n 2 w (fRd w)
      (BitVec.ofNat 64 (ofBytes ((List.range f.2.2).map (fun i => s.c.dmemByte n (memAddr s.c n w + i)))))) ∧
  ∀ (n : Fin 64) (s : State) (w : Nat) (bs : List Byte) (d : Dev), Issues s.c n 2 0x30 w → nbit (memAddr s.c n w) 63 = true →
    (s.dev.onCtl (fun c => c.issued n 2 w false)).engRead n (memAddr s.c n w) 8 = (some bs, d) →
    ∃ u, exec (.ldf n) s = .next u ∧ u.pending = s.pending ∧ u.dev.ram = d.ram ∧
      u.c.x n (fRd w) = (if fRd w = 0 then 0 else BitVec.ofNat 64 (ofBytes bs)) ∧
      (∀ r, r ≠ fRd w → u.c.x n r = d.ctl.x n r) ∧ ∀ a, u.c.word a = d.ctl.word a

/-- R244, R245: an aligned store inside the working memory or the update context stores rd's low bytes
at ra + imm, every other byte of data memory and every register reads as before; STF writes rd at a
window address. -/
def ScalarStoresRules : Prop :=
  (∀ f ∈ stores, ∀ (n : Fin 64) (s : State) (w : Nat), Issues s.c n 2 f.2.1 w →
    memAddr s.c n w % f.2.2 = 0 → 0x1_0000 ≤ memAddr s.c n w → memAddr s.c n w + f.2.2 ≤ 0x4_0000 →
    ∃ u, exec (f.1 n) s = .next u ∧ RegsKept s u n 2 ∧ MovedOn s u n 2 ∧ StreamFrame s u n 2 ∧ SemsKept s u n 2 w ∧
      (∀ i, i < f.2.2 → u.c.dmemByte n (memAddr s.c n w + i) = (toBytes f.2.2 (s.c.x n (fRd w)).toNat).getD i 0) ∧
      (∀ a, a < memAddr s.c n w ∨ memAddr s.c n w + f.2.2 ≤ a → u.c.dmemByte n a = s.c.dmemByte n a)) ∧
  ∀ (n : Fin 64) (s : State) (w : Nat) (d : Dev), Issues s.c n 2 0x31 w → nbit (memAddr s.c n w) 63 = true →
    (s.dev.onCtl (fun c => c.issued n 2 w false)).engWrite n (memAddr s.c n w) (toBytes 8 (s.c.x n (fRd w)).toNat) = (true, d) →
    exec (.stf n) s = .next { s with dev := d }

/-- R244, R245: the loads and stores of the scalar core. -/
def Obligations.ScalarMemory : Prop := ScalarLoadsRules ∧ ScalarStoresRules

/-- R245: a branch whose comparison holds continues at PC + offset, the program counter of the branch,
where that lies in the instruction region; one whose comparison fails passes on. No register changes. -/
def ScalarBranchesRules : Prop :=
  ∀ f ∈ branches, ∀ (n : Fin 64) (s : State) (w : Nat), Issues s.c n 2 f.2.1 w →
    (¬ f.2.2 (brA s.c n w) (brB s.c n w) → ∃ u, exec (f.1 n) s = .next u ∧ Passed s u n 2 w) ∧
    (∀ target : Nat, f.2.2 (brA s.c n w) (brB s.c n w) → (s.c.pcOf n 2 : Int) + sext 32 (nfld w 32 32) = target → target < 8192 →
      ∃ u, exec (f.1 n) s = .next u ∧ Jumped s u n w none target)

/-- R245: JAL and JALR write PC + 1 to rd and continue at PC + imm and at ra + imm. -/
def ScalarJumpsRules : Prop :=
  ∀ (n : Fin 64) (s : State) (w : Nat),
    (∀ target : Nat, Issues s.c n 2 0x38 w → (s.c.pcOf n 2 : Int) + sext 32 (nfld w 32 32) = target → target < 8192 →
      ∃ u, exec (.jal n) s = .next u ∧ Jumped s u n w (some (fRd w, BitVec.ofNat 64 (s.c.pcOf n 2 + 1))) target) ∧
    (Issues s.c n 2 0x39 w → memAddr s.c n w < 8192 →
      ∃ u, exec (.jalr n) s = .next u ∧ Jumped s u n w (some (fRd w, BitVec.ofNat 64 (s.c.pcOf n 2 + 1))) (memAddr s.c n w))

/-- R245: the branches and the two jumps of the scalar core. -/
def Obligations.ScalarControl : Prop := ScalarBranchesRules ∧ ScalarJumpsRules

/-- The value of RDSYS by its immediate (Table SLC-4), for immediates 0 to 5. -/
def Sys2Proof.Machine.rdsysValue (c : Ctl) (n i : Nat) : Nat :=
  if i = 0 then c.now else if i = 1 then (c.stream n 2).start else if i = 2 then n else if i = 3 then c.domOf n
  else if i = 4 then (c.rd (SLC_ENG_PC.ICOUNT n 2) + 1) % 2 ^ 32 else (c.stream n 2).step

/-- R235, R243, R245: RDFEAT, RDSYS (whose own ICOUNT counts the instruction itself) and RDSEM read;
DRAW draws with the latched seed and step; POST puts a start command with argument rb at the end of
the queue of the stream of rd's low bits; MWAITR waits for a slot that has not begun.
Rests in part on the model's own choices (log entries 47, 49). -/
def Obligations.ScalarSystem : Prop :=
  ∀ (n : Fin 64) (s : State) (w : Nat),
    (Issues s.c n 2 0x3B w → nfld w 32 32 < 4 → ∃ u, exec (.rdfeat n) s = .next u ∧
      WroteReg s u n 2 w (fRd w) (s.c.word (0x008 + 8 * nfld w 32 32))) ∧
    (Issues s.c n 2 0x3C w → nfld w 32 32 < 6 → ∃ u, exec (.rdsys n) s = .next u ∧
      WroteReg s u n 2 w (fRd w) (BitVec.ofNat 64 (rdsysValue s.c n (nfld w 32 32)))) ∧
    (Issues s.c n 2 0x3F w → nfld w 32 32 < 64 → ∃ u, exec (.rdsem n) s = .next u ∧
      WroteReg s u n 2 w (fRd w) (BitVec.ofNat 64 (s.c.semAfter n 2 w (nfld w 32 32)))) ∧
    (Issues s.c n 2 0x3E w → ∃ u, exec (.draw n) s = .next u ∧
      WroteReg s u n 2 w (fRd w) (BitVec.ofNat 64 (draw (s.c.stream n 2).seed (s.c.stream n 2).step
        ((s.c.x n (fRa w)).toNat % 2 ^ 14) ((s.c.x n (fRb w)).toNat % 2 ^ 40) ((s.c.x n (fRc w)).toNat % 256)))) ∧
    (Issues s.c n 2 0x3D w → (s.c.x n (fRa w)).toNat ≤ s.c.now →
      ∃ u, exec (.mwaitr n) s = .next u ∧ Passed s u n 2 w) ∧
    (Issues s.c n 2 0x3D w → s.c.now < (s.c.x n (fRa w)).toNat →
      ∃ u, exec (.mwaitr n) s = .next u ∧ u.c.engState n 2 = Eng.WAIT_MER ∧
        (u.c.stream n 2).wait = some (.mer (s.c.x n (fRa w)).toNat) ∧ RegsKept s u n 2 ∧ StreamFrame s u n 2) ∧
    (∀ t, Issues s.c n 2 0x3A w → t = (s.c.x n (fRd w)).toNat % 4 → s.c.engState n t ≠ Eng.FENCED →
      (s.c.stream n t).queue.length < 16 →
      ∃ u, exec (.post n) s = .next u ∧
        (u.c.stream n t).queue = (s.c.stream n t).queue ++
          [⟨(s.c.x n (fRa w)).toNat % 65536, s.c.liveBank (s.c.domOf n), (s.c.x n (fRb w)).toNat, false⟩] ∧
        u.c.rd (SLC_ENG_PC.QUEUED n t) = (s.c.stream n t).queue.length + 1 ∧ RegsKept s u n 2 ∧ MovedOn s u n 2)

namespace Sys2Proof.Machine

/-! ## Common opcodes (Table SLC-2) and the course of a program (R235-R243, R256, R263, R264) -/

/-- What an instruction of stream `t` may change of the slice beside its own registers: the stream's
own state and the semaphores. -/
structure OwnStreamOnly (s u : State) (n t : Nat) : Prop where
  frame : StreamFrame s u n t
  engine : EngineFrame s u n

end Sys2Proof.Machine

open Sys2Proof Sys2Proof.Machine

/-- R236, R240: NOP does nothing but pass; FENCE passes once every earlier instruction of the stream
has completed and leaves everything as it is before; END outside a loop is issued, and no instruction
of the stream issues after it. -/
def CommonPassRules : Prop :=
  ∀ (n : Fin 64) (t : Fin 4) (s : State) (w : Nat),
    (Issues s.c n t 0x01 w → ∃ u, exec (.nop n t) s = .next u ∧ Passed s u n t w) ∧
    (Issues s.c n t 0x06 w → (s.c.stream n t).flight = [] →
      ∃ u, exec (.fence n t) s = .next u ∧ Passed s u n t w) ∧
    ((s.c.stream n t).flight ≠ [] → exec (.fence n t) s = .next s) ∧
    (Issues s.c n t 0x02 w → (s.c.stream n t).loops = [] →
      ∃ u, exec (.endC n t) s = .next u ∧ Passed s u n t w ∧ u.c.mayIssue n t = false)

/-- R241, R242: SWAIT subtracts its count where the wait may pass at once, and else the stream waits in
WAIT_SEM with the semaphore as it is; SADD adds its count where the sum stays below 2^32; NFSIG signals
only a set sticky bit, which it clears. The semaphore taken for WEN is taken first. -/
def CommonSemaphoresRules : Prop :=
  ∀ (n : Fin 64) (t : Fin 4) (s : State) (w : Nat),
    (Issues s.c n t 0x03 w → (s.c.issued n t w false).semReady n t (nfld w 22 6) (nfld w 28 32) = true →
      ∃ u, exec (.swait n t) s = .next u ∧ RegsKept s u n t ∧ MovedOn s u n t ∧ OwnStreamOnly s u n t ∧
        ∀ i, u.c.sem n i = if i = nfld w 22 6 then s.c.semAfter n t w i - nfld w 28 32 else s.c.semAfter n t w i) ∧
    (Issues s.c n t 0x03 w → (s.c.issued n t w false).semReady n t (nfld w 22 6) (nfld w 28 32) = false →
      ∃ u, exec (.swait n t) s = .next u ∧ u.c.engState n t = Eng.WAIT_SEM ∧
        (u.c.stream n t).wait = some (.sem (nfld w 22 6) (nfld w 28 32)) ∧ RegsKept s u n t ∧ StreamFrame s u n t ∧ SemsKept s u n t w) ∧
    (Issues s.c n t 0x04 w → s.c.semAfter n t w (nfld w 22 6) + nfld w 28 32 < 2 ^ 32 →
      ∃ u, exec (.sadd n t) s = .next u ∧ RegsKept s u n t ∧ MovedOn s u n t ∧ OwnStreamOnly s u n t ∧
        ∀ i, u.c.sem n i = if i = nfld w 22 6 then s.c.semAfter n t w i + nfld w 28 32 else s.c.semAfter n t w i) ∧
    (Issues s.c n t 0x07 w → (s.c.stream n t).sticky = false →
      ∃ u, exec (.nfsig n t) s = .next u ∧ Passed s u n t w) ∧
    (Issues s.c n t 0x07 w → (s.c.stream n t).sticky = true → s.c.semAfter n t w (nfld w 22 6) + 1 < 2 ^ 32 →
      ∃ u, exec (.nfsig n t) s = .next u ∧ (u.c.stream n t).sticky = false ∧ RegsKept s u n t ∧ MovedOn s u n t ∧
        OwnStreamOnly s u n t ∧
        ∀ i, u.c.sem n i = if i = nfld w 22 6 then s.c.semAfter n t w i + 1 else s.c.semAfter n t w i)

/-- R236, R240-R242: the instructions common to the streams that change no register.
Rests in part on the model's own choices (log entries 46, 48). -/
def Obligations.CommonControl : Prop := CommonPassRules ∧ CommonSemaphoresRules

/-- R240, R243: LAR writes one half of an address register, or all of it zero-extended; AADD adds a
signed immediate; MWAIT, relative to the run's START slot, passes where the slot has begun and else
waits in WAIT_MER; LOOP with a body inside the region, at most three loops running and a count above 0
enters the loop with its count less one. The scalar core has no LAR, AADD and LOOP. -/
def Obligations.CommonAddress : Prop :=
  ∀ (n : Fin 64) (t : Fin 4) (s : State) (w : Nat),
    (Issues s.c n t 0x08 w → ∃ u, exec (.lar n t) s = .next u ∧ WroteReg s u n t w (nfld w 22 4)
      (BitVec.ofNat 64 (if nbit w 26 then (s.c.reg n t (nfld w 22 4)).toNat % 2 ^ 32 + nfld w 27 32 * 2 ^ 32 else nfld w 27 32))) ∧
    (Issues s.c n t 0x09 w → ∃ u, exec (.aadd n t) s = .next u ∧ WroteReg s u n t w (nfld w 22 4)
      (s.c.reg n t (nfld w 22 4) + immOf w)) ∧
    (Issues s.c n t 0x05 w → (s.c.stream n t).start + nfld w 22 32 ≤ s.c.now →
      ∃ u, exec (.mwait n t) s = .next u ∧ Passed s u n t w) ∧
    (Issues s.c n t 0x05 w → s.c.now < (s.c.stream n t).start + nfld w 22 32 →
      ∃ u, exec (.mwait n t) s = .next u ∧ u.c.engState n t = Eng.WAIT_MER ∧
        (u.c.stream n t).wait = some (.mer ((s.c.stream n t).start + nfld w 22 32)) ∧ RegsKept s u n t ∧ StreamFrame s u n t) ∧
    (Issues s.c n t 0x0A w → 0 < nfld w 22 10 → s.c.pcOf n t + nfld w 22 10 < regionLen t → 0 < nfld w 32 32 →
      (s.c.stream n t).loops.length < 4 → (∀ f r, (s.c.stream n t).loops = f :: r → s.c.pcOf n t + nfld w 22 10 ≤ f.last) →
      ∃ u, exec (.loop n t) s = .next u ∧ u.c.pcOf n t = s.c.pcOf n t + 1 ∧
        (u.c.stream n t).loops = ⟨s.c.pcOf n t + 1, s.c.pcOf n t + nfld w 22 10, nfld w 32 32 - 1⟩ :: (s.c.stream n t).loops ∧
        RegsKept s u n t ∧ OwnStreamOnly s u n t ∧ SemsKept s u n t w)

/-- R256: an instruction with an undefined opcode, or with a nonzero bit outside its operand fields, is
a program fault: the stream discards its program and its queue and is FENCED, and the slice's
SLC_PROGRAM event names it (a program of the update dispatcher reports UPDATE_FAULT in its place). -/
def Obligations.ProgramFault : Prop :=
  ∀ (n : Fin 64) (t : Fin 4) (s : State), s.c.mayIssue n t = true → (s.c.stream n t).run.map StartCmd.upd ≠ some true →
    (operands t (s.c.nextWord n t % 256) = none ∨
      (s.c.nextWord n t % 256 = 1 ∧ strayBits (s.c.nextWord n t) [] = true)) →
    ∃ u e, exec (.nop n t) s = .next u ∧ u.c.engState n t = Eng.FENCED ∧ (u.c.stream n t).run = none ∧
      (u.c.stream n t).queue = [] ∧ u.c.flt.inflight = s.c.flt.inflight ++ [e] ∧ e.src = Src.SLC_PROGRAM n ∧
      e.subj.slice = some n.val ∧ e.subj.stream = some t.val ∧ u.dev.ram = s.dev.ram

/-- R236: an IDLE stream of a slice that is ON and has not stopped takes the oldest start command of its
queue: it runs from the binding's entry with its registers clear but register 1, which holds the
argument, START the present slot, ICOUNT 0 and one start command less queued. -/
def StreamStartRules : Prop :=
  ∀ (n : Fin 64) (t : Fin 4) (s : State) (c : StartCmd) (q : List StartCmd),
    s.c.sliceOn n = true → s.c.engState n t = Eng.IDLE → s.c.stopped n = false → s.c.bit (SLC_STOP_AT.ARM n) = false →
    (s.c.stream n t).queue = c :: q → q.length < 32 →
    ∃ u, exec (.streamStart n t) s = .next u ∧ u.c.engState n t = Eng.RUNNING ∧ (u.c.stream n t).run = some c ∧
      (u.c.stream n t).queue = q ∧ u.c.rd (SLC_ENG_PC.QUEUED n t) = q.length ∧
      u.c.pcOf n t = (s.c.binding n c.bank c.binding).entry ∧ u.c.rd (SLC_ENG_PC.ICOUNT n t) = 0 ∧
      (u.c.stream n t).start = s.c.now ∧ (u.c.stream n t).seed = s.c.rdWord (PST_SEED.addr (s.c.domOf n)) ∧
      (∀ i, u.c.reg n t i = if i = 1 then BitVec.ofNat 64 c.arg else 0) ∧
      (∀ a, a ≠ SLC_ENG_PC.addr n t → u.c.word a = s.c.word a) ∧ u.dev.ram = s.dev.ram

/-- R237, R242, R243, R256, R264: the oldest instruction issued completes, and its SEN semaphore takes
one; END returns the stream to IDLE; a wait that may pass subtracts and the stream runs on; a Meridian
wait passes at its slot; a run longer than its binding's watchdog faults; a stopped slice with its four
streams halted is HALTED. -/
def StreamCourseRules : Prop :=
  ∀ (n : Fin 64) (t : Fin 4) (s : State),
    (∀ (f : Flight) (r : List Flight), (s.c.stream n t).flight = f :: r → (s.c.stream n t).wait = none →
      (s.c.stream n t).stopRun = false → f.isEnd = false → (∀ i, f.sen = some i → s.c.sem n i + 1 < 2 ^ 32) →
      ∃ u, exec (.instructionComplete n t) s = .next u ∧ (u.c.stream n t).flight = r ∧
        (∀ i, u.c.sem n i = if f.sen = some i then s.c.sem n i + 1 else s.c.sem n i) ∧
        (∀ a, u.c.word a = s.c.word a) ∧ u.dev.ram = s.dev.ram) ∧
    (∀ (f : Flight) (r : List Flight), (s.c.stream n t).flight = f :: r → (s.c.stream n t).wait = none →
      (s.c.stream n t).stopRun = false → f.isEnd = true → f.sen = none →
      ∃ u, exec (.instructionComplete n t) s = .next u ∧ u.c.engState n t = Eng.IDLE ∧ (u.c.stream n t).run = none ∧
        (∀ i, u.c.sem n i = s.c.sem n i)) ∧
    (∀ wt i k, (s.c.stream n t).wait = some wt → wt.claim = some (i, k) → s.c.engState n t = Eng.WAIT_SEM →
      s.c.semReady n t i k = true →
      ∃ u, exec (.semaphoreWaitPass n t) s = .next u ∧ u.c.engState n t = Eng.RUNNING ∧ (u.c.stream n t).wait = none ∧
        (∀ j, u.c.sem n j = if j = i then s.c.sem n j - k else s.c.sem n j) ∧
        (∀ a, a ≠ SLC_ENG_PC.addr n t → u.c.word a = s.c.word a)) ∧
    (∀ m, (s.c.stream n t).wait = some (.mer m) → s.c.engState n t = Eng.WAIT_MER → m ≤ s.c.now → s.c.stopped n = false →
      ∃ u, exec (.meridianWaitPass n t) s = .next u ∧ u.c.engState n t = Eng.RUNNING ∧ (u.c.stream n t).wait = none ∧
        (∀ j, u.c.sem n j = s.c.sem n j) ∧ (∀ a, a ≠ SLC_ENG_PC.addr n t → u.c.word a = s.c.word a)) ∧
    (∀ c, (s.c.stream n t).run = some c → c.upd = false → (s.c.binding n c.bank c.binding).wdog < s.c.slots - (s.c.stream n t).since →
      ∃ u, exec (.programWatchdog n t) s = .next u ∧ u.c.engState n t = Eng.FENCED ∧ (u.c.stream n t).run = none) ∧
    (s.c.stopped n = true → (∀ k, k < 4 → s.c.engState n k = Eng.HALTED) →
      ∃ u, exec (.sliceHalt n) s = .next u ∧ u.c.bit (SLC_STOP_AT.HALTED n) = true ∧
        (∀ a, a ≠ SLC_STOP_AT.addr n → u.c.word a = s.c.word a) ∧ u.dev.ram = s.dev.ram)

/-- R236, R237, R242, R243, R256, R264: how a stream starts, runs and ends.
Rests in part on the model's own choices (log entries 46, 48). -/
def Obligations.StreamLife : Prop := StreamStartRules ∧ StreamCourseRules

namespace Sys2Proof.Machine

/-! ## The array, vector and stream engines: Tables SLC-5 to SLC-7 -/

/-- What an instruction of the vector engine leaves: the memories, the queue, every register but the
stream's SLC_ENG_PC and the record of its first non-finite tile, every other slice and stream, its
address registers, and the rest of the slice's engines. (A PRED code of 5 to 7 also takes a fresh
free value, log entry 4.) -/
structure VecFrame (s u : State) (n w : Nat) : Prop where
  queue : u.pending = s.pending
  ram : u.dev.ram = s.dev.ram
  words : ∀ a, a ≠ SLC_ENG_PC.addr n 1 → a ≠ SLC_NONFINITE.addr n 1 → u.c.word a = s.c.word a
  slices : ∀ m, m ≠ n → u.c.engOf m = s.c.engOf m
  streams : ∀ v, v ≠ 1 → u.c.stream n v = s.c.stream n v
  moved : MovedOn s u n 1
  dmem : (u.c.engOf n).dmem = (s.c.engOf n).dmem
  tiles : (u.c.engOf n).tiles = (s.c.engOf n).tiles
  accs : (u.c.engOf n).accs = (s.c.engOf n).accs
  checks : (u.c.engOf n).checks = (s.c.engOf n).checks
  sems : SemsKept s u n 1 w
  rest : nfld w 42 3 ≤ 4 → u.c.others = s.c.others

/-- The new values where the mask admits a thread, the old ones elsewhere. -/
def blend {α : Type} (m : List Bool) (v old : List α) : List α :=
  List.zipWith (fun (b : Bool) (x : α × α) => if b then x.1 else x.2) m (List.zip v old)

/-- Register `vd` of the run's threads takes `v` under the mask; the sticky bit is set where a written
value is not finite (R230, R253); no other register and no predicate changes. -/
structure WroteVec (s u : State) (n w vd : Nat) (m : List Bool) (v : List Nat) : Prop where
  vregs : ∀ r, u.c.vreg n r = if r = vd then blend m v (s.c.vreg n vd) else s.c.vreg n r
  preds : ∀ p, u.c.pred n p = s.c.pred n p
  sticky : (u.c.stream n 1).sticky = ((s.c.stream n 1).sticky || (List.zipWith (fun b x => b && nonFinite x) m v).any (fun b => b))
  regs : RegsKept s u n 1
  frame : VecFrame s u n w

/-- Vector instructions of two FP32 operands, of one, and of two integers, by opcode. -/
def vec2 : List ((Fin 64 → Instr) × Nat × (Bool → Nat → Nat → Nat)) :=
  [(.vadd, 0x64, fadd), (.vsub, 0x65, fsub), (.vmul, 0x66, fmul), (.vdiv, 0x68, fdiv), (.vmin, 0x6A, fminimum), (.vmax, 0x6B, fmaximum)]
def vec1 : List ((Fin 64 → Instr) × Nat × (Bool → Nat → Nat)) :=
  [(.vsqrt, 0x69, fsqrt), (.vabs, 0x6C, fabs), (.vneg, 0x6D, fneg), (.vsign, 0x6E, fsign),
   (.vi2f, 0x7A, fun st a => i2f st (sext 32 a)), (.vf2i, 0x7B, fun st a => ofInt 32 (f2i st 32 a))]
def vecI : List ((Fin 64 → Instr) × Nat × (Nat → Nat → Nat)) :=
  [(.viadd, 0x74, fun a b => (a + b) % 2 ^ 32), (.vand, 0x75, fun a b => a &&& b), (.vor, 0x76, fun a b => a ||| b),
   (.vxor, 0x77, fun a b => a ^^^ b), (.vshl, 0x78, fun a b => (a <<< (b % 32)) % 2 ^ 32), (.vshr, 0x79, fun a b => a >>> (b % 32))]
def vecP : List ((Fin 64 → Instr) × Nat × (Bool → Nat → Nat → Bool)) := [(.vcmplt, 0x70, flt), (.vcmpeq, 0x71, feq)]

end Sys2Proof.Machine

open Sys2Proof Sys2Proof.Machine

/-- R250, R251, R253: the vector instructions write their result to the threads that the predicate
admits, one value for each thread, in the domain's arithmetic mode (shifts by vb[4:0]: log entry 34). -/
def VectorArithmeticRules : Prop :=
  ∀ (n : Fin 64) (s : State) (w : Nat),
    (∀ f ∈ vec2, Issues s.c n 1 f.2.1 w → ∃ u, exec (f.1 n) s = .next u ∧ WroteVec s u n w (fRd w) (s.c.mask n w)
      (List.zipWith (f.2.2 (s.c.strictOf n)) (s.c.vreg n (fRa w)) (s.c.vreg n (fRb w)))) ∧
    (∀ f ∈ vec1, Issues s.c n 1 f.2.1 w → ∃ u, exec (f.1 n) s = .next u ∧ WroteVec s u n w (fRd w) (s.c.mask n w)
      ((s.c.vreg n (fRa w)).map (f.2.2 (s.c.strictOf n)))) ∧
    (∀ f ∈ vecI, Issues s.c n 1 f.2.1 w → ∃ u, exec (f.1 n) s = .next u ∧ WroteVec s u n w (fRd w) (s.c.mask n w)
      (List.zipWith f.2.2 (s.c.vreg n (fRa w)) (s.c.vreg n (fRb w)))) ∧
    (Issues s.c n 1 0x67 w → ∃ u, exec (.vfma n) s = .next u ∧ WroteVec s u n w (fRd w) (s.c.mask n w)
      (List.zipWith (fun a (x : Nat × Nat) => ffma (s.c.strictOf n) a x.1 x.2) (s.c.vreg n (fRa w))
        (List.zip (s.c.vreg n (fRb w)) (s.c.vreg n (fRc w)))))

/-- R251, R253: VBCAST, VTID, VSEL (whose predicate selects between va and vb in every thread) and the
comparisons, which set a predicate of the threads their own predicate admits. -/
def VectorSelectRules : Prop :=
  ∀ (n : Fin 64) (s : State) (w : Nat),
    (Issues s.c n 1 0x62 w → ∃ u, exec (.vbcast n) s = .next u ∧ WroteVec s u n w (fRd w) (s.c.mask n w)
      (List.replicate (s.c.threads n) ((s.c.reg n 1 (nfld w 27 4)).toNat % 2 ^ 32))) ∧
    (Issues s.c n 1 0x73 w → ∃ u, exec (.vtid n) s = .next u ∧ WroteVec s u n w (fRd w) (s.c.mask n w) (List.range (s.c.threads n))) ∧
    (Issues s.c n 1 0x72 w → ∃ u, exec (.vsel n) s = .next u ∧ WroteVec s u n w (fRd w) (List.replicate (s.c.threads n) true)
      (blend (s.c.mask n w) (s.c.vreg n (fRa w)) (s.c.vreg n (fRb w)))) ∧
    (∀ f ∈ vecP, Issues s.c n 1 f.2.1 w → ∃ u, exec (f.1 n) s = .next u ∧ VecFrame s u n w ∧ RegsKept s u n 1 ∧
      (∀ r, u.c.vreg n r = s.c.vreg n r) ∧ (u.c.stream n 1).sticky = (s.c.stream n 1).sticky ∧
      ∀ p, u.c.pred n p = if p = fRd w % 4 then
        blend (s.c.mask n w) (List.zipWith (f.2.2 (s.c.strictOf n)) (s.c.vreg n (fRa w)) (s.c.vreg n (fRb w))) (s.c.pred n p)
        else s.c.pred n p)

/-- The vector engine's lanewise instructions, comparisons and selections.
Rests in part on the model's own choices (log entry 34). -/
def Obligations.VectorLanes : Prop := VectorArithmeticRules ∧ VectorSelectRules

/-- R251, R253: VRED writes the reduction of va to an address register, in the order of the domain's
mode; VMASK writes 1.0 where the thread's draw lies below the threshold; VRNG sets the draw context. -/
def Obligations.VectorReduceDraw : Prop :=
  ∀ (n : Fin 64) (s : State) (w : Nat),
    (Issues s.c n 1 0x7C w → ∃ u, exec (.vred n) s = .next u ∧ (∀ r, u.c.vreg n r = s.c.vreg n r) ∧
      (∀ r, u.c.reg n 1 r = if r = nfld w 22 4 then
        BitVec.ofNat 64 (reduceBy (s.c.strictOf n) (nfld w 32 2) (s.c.vreg n (fRa w))) else s.c.reg n 1 r) ∧ MovedOn s u n 1) ∧
    (Issues s.c n 1 0x7D w → ∃ u, exec (.vmask n) s = .next u ∧ RegsKept s u n 1 ∧ MovedOn s u n 1 ∧
      ∀ r, u.c.vreg n r = if r = fRd w then (List.range (s.c.threads n)).map (fun t =>
          if draw (s.c.stream n 1).seed (s.c.stream n 1).step (s.c.stream n 1).rngTensor (((s.c.stream n 1).rngBase + t) % 2 ^ 40)
            (s.c.stream n 1).rngStream / 2 ^ 32 < (s.c.reg n 1 (nfld w 27 4)).toNat % 2 ^ 32 then fOne else 0)
        else s.c.vreg n r) ∧
    (Issues s.c n 1 0x63 w → ∃ u, exec (.vrng n) s = .next u ∧ RegsKept s u n 1 ∧ MovedOn s u n 1 ∧ OwnStreamOnly s u n 1 ∧
      (u.c.stream n 1).rngTensor = nfld w 26 14 ∧ (u.c.stream n 1).rngStream = nfld w 40 8 ∧
      (u.c.stream n 1).rngBase = (s.c.reg n 1 (nfld w 22 4)).toNat)

/-- The device on which an instruction's body acts. -/
def Sys2Proof.Machine.State.issuedDev (s : State) (n t w : Nat) : Dev := { ctl := s.c.issued n t w false, ram := s.dev.ram }

/-- R252: VLD writes the decoded elements it gathers; VST and VSTU store, where each access succeeds.
Rests in part on the model's own choices (log entry 49). -/
def Obligations.VectorMemory : Prop :=
  ∀ (n : Fin 64) (s : State) (w : Nat),
    (∀ (codes : List Nat) (d1 : Dev) (sc : List Byte) (d2 : Dev), Issues s.c n 1 0x60 w → vmFault w false = false → nfld w 42 3 ≤ 4 →
      (s.issuedDev n 1 w).gather n (s.c.reg n 1 (fVar w)).toNat (fmtOf (fVfmt w)).bits
        (List.zip (List.range (s.c.threads n)) (s.c.mask n w)) = (some codes, d1) →
      d1.scaleBytes n w (s.c.threads n) = (some sc, d2) →
      ∃ u, exec (.vld n) s = .next u ∧ u.dev.ram = d2.ram ∧ u.pending = s.pending ∧
        u.dev.ctl = d2.ctl.putF n w (fRd w) (List.zipWith (fun t x => decodeElem (fmtOf (fVfmt w)) (d2.ctl.strictOf n)
          (if nbit w 38 then some (sc.getD (t / 32) 0).toNat else none) x) (List.range (s.c.threads n)) codes)) ∧
    (∀ d, Issues s.c n 1 0x61 w → nfld w 42 3 ≤ 4 → (s.issuedDev n 1 w).vst n w = (true, d) →
      exec (.vst n) s = .next { s with dev := d }) ∧
    (∀ d, Issues s.c n 1 0x7E w →
      (s.issuedDev n 1 w).engWrite n (s.c.reg n 1 (nfld w 26 4)).toNat (toBytes 4 ((s.c.reg n 1 (nfld w 22 4)).toNat % 2 ^ 32)) = (true, d) →
      ∃ u, exec (.vstu n) s = .next u ∧ u.dev.ram = d.ram ∧ u.pending = s.pending)

/-- R246-R249: CZERO clears an accumulator tile; MMA with a good check adds the product of its tiles,
each product rounded and added in ascending k; TLOAD and CLOAD load a tile row by row; CSTORE stores
one. Other tiles and accumulators are as they were.
Rests in part on the model's own choices (log entries 33, 51). -/
def Obligations.ArrayEngine : Prop :=
  ∀ (n : Fin 64) (s : State) (w : Nat),
    (Issues s.c n 0 0x52 w → ∃ u, exec (.czero n) s = .next u ∧ RegsKept s u n 0 ∧ MovedOn s u n 0 ∧ StreamFrame s u n 0 ∧
      SemsKept s u n 0 w ∧ (u.c.engOf n).tiles = (s.c.engOf n).tiles ∧
      (u.c.acc n (fA w) (nfld w 23 2) = List.replicate 16384 0) ∧
      ∀ a k, 4 * a + k ≠ 4 * fA w + nfld w 23 2 → u.c.acc n a k = s.c.acc n a k) ∧
    (∀ f, Issues s.c n 0 0x53 w → tileFmts (s.c.tile n (fA w) (nfld w 25 3)) (s.c.tile n (fA w) (nfld w 28 3)) = some f →
      ∃ u, exec (.mma n .good) s = .next u ∧ MovedOn s u n 0 ∧ (u.c.engOf n).tiles = (s.c.engOf n).tiles ∧ u.dev.ram = s.dev.ram ∧
        (u.c.engOf n).accs = tblPut (fun _ => []) (s.c.engOf n).accs (4 * fA w + nfld w 23 2)
          (mmaTile (s.c.strictOf n) (if f = 0 then 1 else f) (s.c.acc n (fA w) (nfld w 23 2))
            (s.c.tile n (fA w) (nfld w 25 3)) (s.c.tile n (fA w) (nfld w 28 3)))) ∧
    (∀ rows, Issues s.c n 0 0x50 w → 1 ≤ nfld w 26 3 → nfld w 26 3 ≤ 4 → nbit w 29 = false →
      (s.issuedDev n 0 w).tileRows n (s.c.reg n 0 (fAr w)).toNat (s.c.reg n 0 (fAs w)).toNat (16 * (fmtOf (nfld w 26 3)).bits) 128 = some rows →
      ∃ u, exec (.tload n) s = .next u ∧ MovedOn s u n 0 ∧ u.dev.ram = s.dev.ram ∧
        (u.c.tile n (fA w) (nfld w 23 3)).fmt = nfld w 26 3 ∧ (u.c.tile n (fA w) (nfld w 23 3)).scales = [] ∧
        (nbit w 30 = false → (u.c.tile n (fA w) (nfld w 23 3)).codes =
          rows.flatMap (fun bs => (List.range 128).map (codeAt (fmtOf (nfld w 26 3)) bs)))) ∧
    (∀ rows, Issues s.c n 0 0x51 w →
      (s.issuedDev n 0 w).tileRows n (s.c.reg n 0 (fAr w)).toNat (s.c.reg n 0 (fAs w)).toNat 512 128 = some rows →
      ∃ u, exec (.cload n) s = .next u ∧ MovedOn s u n 0 ∧ u.dev.ram = s.dev.ram ∧ (u.c.engOf n).tiles = (s.c.engOf n).tiles ∧
        (u.c.engOf n).accs = tblPut (fun _ => []) (s.c.engOf n).accs (4 * fA w + nfld w 23 2)
          (rows.flatMap (fun bs => (List.range 128).map (fun i => toF32 (s.c.strictOf n) (f32 (s.c.strictOf n) (leAt bs (4 * i) 4)))))) ∧
    (∀ d, Issues s.c n 0 0x54 w → (s.issuedDev n 0 w).cstore n w = (true, d) → exec (.cstore n) s = .next { s with dev := d })

/-- R254, R255, R342: COPY, COPY2D and FILL answer the memory they write where every access succeeds;
CKFEED runs a check-value unit over the bytes read, CKPUT sets it and CKGET stores it; TREE stores the
reduction of its vectors.
Rests in part on the model's own choices (log entries 49, 50). -/
def Obligations.StreamEngine : Prop :=
  ∀ (n : Fin 64) (s : State) (w : Nat) (d : Dev),
    (Issues s.c n 3 0x80 w → (s.issuedDev n 3 w).copyRows n (s.c.reg n 3 (nfld w 22 4)).toNat 0 (s.c.reg n 3 (nfld w 26 4)).toNat 0
        (s.c.reg n 3 (nfld w 30 4)).toNat 1 = (true, d) → exec (.copy n) s = .next { s with dev := d }) ∧
    (Issues s.c n 3 0x81 w → (s.issuedDev n 3 w).copyRows n (s.c.reg n 3 (nfld w 22 4)).toNat (s.c.reg n 3 (nfld w 38 4)).toNat
        (s.c.reg n 3 (nfld w 26 4)).toNat (s.c.reg n 3 (nfld w 42 4)).toNat (s.c.reg n 3 (nfld w 30 4)).toNat
        (s.c.reg n 3 (nfld w 34 4)).toNat = (true, d) → exec (.copy2d n) s = .next { s with dev := d }) ∧
    (Issues s.c n 3 0x82 w → (s.c.reg n 3 (nfld w 30 4)).toNat ≠ 0 →
      (s.issuedDev n 3 w).engWrite n (s.c.reg n 3 (nfld w 22 4)).toNat ((List.range (s.c.reg n 3 (nfld w 30 4)).toNat).map
        (fun i => (toBytes 4 (nfld w 32 32)).getD (i % 4) 0)) = (true, d) → exec (.fill n) s = .next { s with dev := d }) ∧
    (∀ bs, Issues s.c n 3 0x83 w → (s.c.reg n 3 (nfld w 30 4)).toNat ≠ 0 →
      (s.issuedDev n 3 w).engRead n (s.c.reg n 3 (nfld w 26 4)).toNat (s.c.reg n 3 (nfld w 30 4)).toNat = (some bs, d) →
      ∃ u, exec (.ckfeed n) s = .next u ∧ u.dev.ram = d.ram ∧
        u.c.ckVal n (nfld w 22 3) = chkRun (unitSel (nfld w 22 3)) (d.ctl.ckVal n (nfld w 22 3)) bs ∧
        ∀ k, k ≠ nfld w 22 3 → u.c.ckVal n k = d.ctl.ckVal n k) ∧
    (Issues s.c n 3 0x84 w → (s.issuedDev n 3 w).engWrite n (s.c.reg n 3 (nfld w 25 4)).toNat (toBytes 8 (s.c.ckVal n (nfld w 22 3))) =
      (true, d) → exec (.ckget n) s = .next { s with dev := d }) ∧
    (∀ bs, Issues s.c n 3 0x85 w → (s.issuedDev n 3 w).engRead n (s.c.reg n 3 (nfld w 26 4)).toNat 8 = (some bs, d) →
      ∃ u, exec (.ckput n) s = .next u ∧ u.dev.ram = d.ram ∧
        u.c.ckVal n (nfld w 22 3) = (if nfld w 22 3 < 6 then ofBytes bs % 2 ^ 32 else ofBytes bs)) ∧
    (Issues s.c n 3 0x86 w → (s.issuedDev n 3 w).tree n w = (true, d) → exec (.tree n) s = .next { s with dev := d })

/-! ## Faults, memory and pools -/

/-- A field shares no bit with any of some others. -/
def ApartFrom (f : FRef) (gs : List FRef) : Prop :=
  ∀ g ∈ gs, f.addr ≠ g.addr ∨ f.lo + f.w ≤ g.lo ∨ g.lo + g.w ≤ f.lo

/-- R346-R348, R351: an event of a source that is not reserved, with nothing else in flight, is
counted and stamped in FLT_SRC; unmasked it becomes ACTIVE and waits for the record writer; and the
first that qualifies since FLT_FIRST was clear fills it. -/
def FaultEventCollectedRules : Prop :=
  ∀ (e : HwEvent) (v : Nat) (s : State), srcSev e.src.toNat = some v → e.src.toNat ≠ Src.ROUTE_PARITY →
    s.c.flt.inflight = [] →
    ∃ u, exec (.faultEvent [e]) s = .next u ∧ u.c.flt.inflight = [] ∧ u.dev.ram = s.dev.ram ∧ u.pending = s.pending ∧
      u.c.rd (FLT_SRC.COUNT e.src.toNat) = min (s.c.rd (FLT_SRC.COUNT e.src.toNat) + 1) 65535 ∧
      u.c.rd (FLT_SRC.LAST e.src.toNat) = s.c.now % 2 ^ 32 ∧
      (s.c.bit (FLT_ACTION.MASK e.src.toNat) = false →
        u.c.bit (FLT_SRC.ACTIVE e.src.toNat) = true ∧ ∃ p ∈ u.c.flt.pend, p.src = e.src.toNat) ∧
      (s.c.bit (FLT_ACTION.MASK e.src.toNat) = true →
        u.c.bit (FLT_SRC.ACTIVE e.src.toNat) = s.c.bit (FLT_SRC.ACTIVE e.src.toNat) ∧ u.c.flt.pend = s.c.flt.pend) ∧
      (s.c.bit FLT_FIRST.VALID = false → s.c.rd FLT_CTRL.FIRST_MIN ≤ s.c.rd (FLT_ACTION.SEV e.src.toNat) →
        s.c.bit (FLT_ACTION.MASK e.src.toNat) = false →
        u.c.bit FLT_FIRST.VALID = true ∧ u.c.rd FLT_FIRST.SOURCE = e.src.toNat ∧ u.c.rd FLT_FIRST_TIME.COUNT = s.c.now) ∧
      (s.c.bit FLT_FIRST.VALID = true → u.c.word FLT_FIRST.addr = s.c.word FLT_FIRST.addr)

/-- R349-R352, R359, R360: the record writer takes the pending source that follows the one last
written, clears its PENDING and moves HEAD by one record unless the ring is full, which counts a drop;
a firmware report raises source 960 + SOURCE; a collector word that fails parity shows in FLT_STATUS
and asks for the safe state. -/
def FaultRecordsRules : Prop :=
  ∀ (s : State),
    (∀ p, nextPend s.c.flt.lastSrc s.c.flt.pend = some p → p.src < 1024 →
      ∃ u, exec .recordWrite s = .next u ∧ u.c.flt.lastSrc = p.src ∧ u.c.bit (FLT_SRC.PENDING p.src) = false ∧
        u.c.flt.pend = s.c.flt.pend.filter (fun q => q.src != p.src) ∧ u.dev.ram = s.dev.ram ∧
        (s.c.ringFull = false → u.c.rd FLT_RING_HEAD.HEAD = (s.c.rd FLT_RING_HEAD.HEAD + 1) % 512 ∧
          u.c.word (ringAddr (s.c.rd FLT_RING_HEAD.HEAD)) = BitVec.ofNat 64 (recWord0 p s.c.flt.afterDrop)) ∧
        u.c.flt.afterDrop = s.c.ringFull ∧
        (s.c.ringFull = true → u.c.rd FLT_DROPPED.LAST_SOURCE = p.src ∧
          u.c.rd FLT_DROPPED.EVENTS = min (s.c.rd FLT_DROPPED.EVENTS + p.count) (2 ^ FLT_DROPPED.EVENTS.w - 1) ∧
          u.c.flt.inflight = s.c.flt.inflight ∧ u.c.flt.due = s.c.flt.due ∧
          (∀ f : FRef, f.addr = FLT_SRC.addr p.src → ApartFrom f [FLT_SRC.PENDING p.src] → u.c.rd f = s.c.rd f) ∧
          ∀ a, a ∉ [FLT_SRC.addr p.src, FLT_DROPPED.addr, FLT_STATUS.addr] → u.c.word a = s.c.word a)) ∧
    (∀ v : W64, ∃ u e, exec (.fltFwReport v) s = .next u ∧ u.c.flt.inflight = s.c.flt.inflight ++ [e] ∧
      e.src = 960 + getFld v 0 6 ∧ e.d4 = getFld v 32 32 ∧ e.fw = true ∧ e.slot = s.c.now ∧ e.cyc = s.c.cyc ∧
      (∀ a, u.c.word a = s.c.word a) ∧ u.dev.ram = s.dev.ram) ∧
    (∀ off : BitVec 16, ∃ u e, exec (.collectorParity off) s = .next u ∧ u.c.bit FLT_STATUS.PARITY = true ∧
      u.c.flt.safeReq.isSome = true ∧ u.c.flt.badWord = some off.toNat ∧
      u.c.flt.inflight = s.c.flt.inflight ++ [e] ∧ e.src = Src.COLLECTOR_PARITY ∧ u.dev.ram = s.dev.ram)

/-- R346-R352, R359, R360: the collector and its record writer.
Rests in part on the model's own choices (log entry 24). -/
def Obligations.FaultCollector : Prop := FaultEventCollectedRules ∧ FaultRecordsRules

/-- R286-R290: a request takes the lowest free buffer of the smallest class that fits, where that class
has one free; only the owner returns a buffer, another release raises POOL_OWNER and changes nothing
else; a waiter past WAIT_LIMIT leaves with NO_SLOT and POOL_STARVED; a buffer past AGE_LIMIT raises
POOL_LEAK once.
Rests in part on the model's own choices (log entry 37). -/
def Obligations.BufferPools : Prop :=
  ∀ (s : State) (o : Fin 259),
    (∀ (size c : Nat), ownerOk o.val = true → fitClass (ownerPool o.val) size = some c → s.c.rd (poolFree (ownerPool o.val) c) ≠ 0 →
      ∃ u b, exec (.bufferRequest o size) s = .next u ∧ u.c.pools.held = s.c.pools.held ++ [b] ∧ b.owner = o.val ∧
        b.pool = ownerPool o.val ∧ b.cls = c ∧ b.idx = s.c.freeIdx (ownerPool o.val) c ∧ b.since = s.c.slots ∧
        u.c.rd (poolFree (ownerPool o.val) c) = s.c.rd (poolFree (ownerPool o.val) c) - 1 ∧
        u.c.sent = .buffer o.val St.OK (some (b.pool, b.cls, b.idx)) :: s.c.sent ∧ u.dev.ram = s.dev.ram) ∧
    (∀ (p : Fin 65) (c : Fin 4) (i : Nat) (b : HeldBuf), ownerOk o.val = true → bufExists p.val c.val i = true →
      s.c.pools.held.find? (fun b => b.pool = p.val && b.cls = c.val && b.idx = i) = some b →
      (b.owner = o.val → s.c.waitersOf p.val = [] → s.c.rd (poolFree p.val c.val) < 65535 →
        ∃ u, exec (.bufferRelease o p c i) s = .next u ∧ u.c.pools.held = dropFirst (fun x => x = b) s.c.pools.held ∧
          u.c.rd (poolFree p.val c.val) = s.c.rd (poolFree p.val c.val) + 1 ∧ u.dev.ram = s.dev.ram) ∧
      (b.owner ≠ o.val → ∃ u e, exec (.bufferRelease o p c i) s = .next u ∧ u.c.flt.inflight = s.c.flt.inflight ++ [e] ∧
        e.src = Src.POOL_OWNER ∧ u.c.pools = s.c.pools ∧ (∀ a, u.c.word a = s.c.word a) ∧ u.dev.ram = s.dev.ram)) ∧
    (∀ w, (s.c.waitersOf (ownerPool o.val)).find? (fun w => w.owner = o.val && s.c.elapsed w.since (s.c.rd POOL_CFG.WAIT_LIMIT)) = some w →
      ∃ u, exec (.poolStarved o) s = .next u ∧
        u.c.waitersOf (ownerPool o.val) = dropFirst (fun x => x = w) (s.c.waitersOf (ownerPool o.val)) ∧
        (∃ e ∈ u.c.flt.inflight, e.src = Src.POOL_STARVED ∧ e.d5 = o.val) ∧ .buffer o.val St.NO_SLOT none ∈ u.c.sent ∧
        u.dev.ram = s.dev.ram) ∧
    (∀ b, s.c.pools.held.find? (fun b => b.owner = o.val) = some b → b.aged = false →
      s.c.elapsed b.since (s.c.rd POOL_CFG.AGE_LIMIT + 1) = true →
      ∃ u e, exec (.poolLeak o) s = .next u ∧ u.c.flt.inflight = s.c.flt.inflight ++ [e] ∧ e.src = Src.POOL_LEAK ∧
        u.c.pools.held = updFirst (fun x => x = b) (fun x => { x with aged := true }) s.c.pools.held ∧
        u.c.pools.waiters = s.c.pools.waiters ∧ u.dev.ram = s.dev.ram)

/-- R275, R277-R279, R281, R282: outside its channel's refresh window a write stores its bytes in its
half-granule and no other byte of DRAM changes, a read returns the half-granule with its poison; inside
it the request waits; the patrol scrubber moves on by one granule; a window opens for 130 ns; a lost
channel interface fails its stack; a relocation whose used frames are all refilled is done.
Rests in part on the model's own choices (log entries 28, 29). -/
def Obligations.DramHubs : Prop :=
  ∀ (s : State),
    (∀ (a : Nat) (bs : List Byte) (v : MemErr), s.c.refreshing a = false → s.c.mem.held = [] → s.c.mem.selfRefresh = false →
      a < dramSize → s.c.daDropped a = false → a % 64 + bs.length ≤ 64 →
      ∃ u, exec (.dramAccess ⟨a, some bs, v⟩) s = .next u ∧
        (∀ i, i < bs.length → u.dev.ram.dramByte (a + i) = bs.getD i 0) ∧
        (∀ x, x < a ∨ a + bs.length ≤ x → u.dev.ram.dramByte x = s.dev.ram.dramByte x) ∧
        u.dev.ram.staging = s.dev.ram.staging) ∧
    (∀ (a : Nat), s.c.refreshing a = false → s.c.mem.held = [] → s.c.mem.selfRefresh = false → a < dramSize →
      ∃ u, exec (.dramAccess ⟨a, none, .good⟩) s = .next u ∧ u.dev.ram = s.dev.ram ∧ (∀ x, u.c.word x = s.c.word x) ∧
        u.c.sent = .hub (a / 64 * 64) (s.dev.ram.dramBytes (a / 64 * 64) 64) (s.c.rangePoisoned (a / 64 * 64) 64) :: s.c.sent) ∧
    (∀ (rq : DramReq), s.c.refreshing rq.addr = true → ∃ u, exec (.dramAccess rq) s = .next u ∧ u.dev.ram = s.dev.ram ∧
      u.c.mem.held = s.c.mem.held ++ [rq] ∧ (∀ x, u.c.word x = s.c.word x) ∧ u.c.sent = s.c.sent) ∧
    (∀ (h : Fin 4), ∃ u, exec (.patrolScrub h .good) s = .next u ∧ u.dev.ram = s.dev.ram ∧
      (s.c.mem.scrubPos * 256 + 256 < dramSize → u.c.mem.scrubPos = s.c.mem.scrubPos + 1 ∧ ∀ x, u.c.word x = s.c.word x) ∧
      (dramSize ≤ s.c.mem.scrubPos * 256 + 256 → u.c.mem.scrubPos = 0 ∧
        u.c.rd MEM_SCRUB.PASSES = (s.c.rd MEM_SCRUB.PASSES + 1) % 2 ^ 32)) ∧
    (∀ (w : Fin 16), s.c.mem.held = [] → ∃ u, exec (.refreshWindow w) s = .next u ∧ u.dev.ram = s.dev.ram ∧
      u.c.mem.refresh = some (w.val % 8, s.c.ns + 130) ∧ ∀ x, u.c.word x = s.c.word x) ∧
    (∀ (k : Fin 16) (ch : Nat), ch < 16 → s.c.stackState k.val ≠ 1 →
      ∃ u e, exec (.channelInterfaceLost k ch) s = .next u ∧ u.c.stackState k.val ≠ 0 ∧ u.c.stackState k.val ≠ 3 ∧
        u.c.flt.inflight = s.c.flt.inflight ++ [e] ∧ e.src = Src.STACK_FAIL k.val ∧ u.dev.ram = s.dev.ram) ∧
    (∀ (k : Fin 16), s.c.stackState k.val = 2 → rangesSize s.c.mem.used ≤ s.c.rd MEM_SPARES.RELOC_FRAMES →
      ∃ u, exec (.relocationDone k) s = .next u ∧ u.c.stackState k.val = 3 ∧
        (∀ j : Fin 16, j ≠ k → u.c.stackState j.val = s.c.stackState j.val) ∧ u.dev.ram = s.dev.ram)

/-! ## Registers and windows -/

/-- A write of a bank's window by one aligned access: DENIED without a created domain, BUSY while the
bank is live, armed, not yet drained or being checked, else stored, with VALID of the bank cleared. -/
def BankWrite (s : State) (i : Instr) (rt : Nat) (dom : Option Nat) (k a : Nat) (bs : List Byte) : Prop :=
  ∃ u, exec i s = .next u ∧
    ((dom = none ∨ ∃ d, dom = some d ∧ s.c.created d = false) → Refused s u rt a bs.length St.DENIED) ∧
    ∀ d, dom = some d → s.c.created d = true →
      (s.c.bankLocked d k = true → Refused s u rt a bs.length St.BUSY) ∧
      (s.c.bankLocked d k = false → Stored s u a bs (some (MER_PHASE.addr d)) ∧
        u.c.bankValid d k = false ∧ u.c.bankValid d (1 - k) = s.c.bankValid d (1 - k))

/-- R25, R47, R128, R183, R203, R259: schedule tables, routing tables, templates, output formats and
program images are written under one rule; the rest of a routing bank drops its writes; a program
region in use by a stream is refused BUSY too (R262).
Rests in part on the model's own choices (log entry 77). -/
def Obligations.BankWindows : Prop :=
  ∀ (s : State) (rt : Route) (n : Fin 64) (data : List Byte),
    (∀ off, oneAccess (BitVec.toNat off) data.length →
      BankWrite s (.scheduleWindowWrite rt n off data) rt.val (s.c.sliceDom n.val) (off.toNat / 0x8_0000)
        (0x0100_0000 + n.val * 0x10_0000 + off.toNat) data) ∧
    (∀ off, oneAccess (BitVec.toNat off) data.length → off.toNat % 0x1_0000 < 0x8180 →
      BankWrite s (.routingTableWrite rt n off data) rt.val (some n.val) (off.toNat / 0x1_0000)
        (0x0500_0000 + n.val * 0x2_0000 + off.toNat) data) ∧
    (∀ off, oneAccess (BitVec.toNat off) data.length → 0x8180 ≤ off.toNat % 0x1_0000 →
      exec (.routingTableWrite rt n off data) s = .next s) ∧
    (∀ off, oneAccess (BitVec.toNat off) data.length → off.toNat < 0x1_0000 →
      BankWrite s (.descriptorWindowWrite rt n off data) rt.val (s.c.sliceDom n.val) (off.toNat / 0x8000)
        (0x0600_0000 + n.val * 0x2_0000 + off.toNat) data) ∧
    (∀ (w : Fin 12) (v : W64),
      BankWrite s (.outputFormatWrite rt n w v) rt.val (some n.val) (if w.val < 4 ∨ (8 ≤ w.val ∧ w.val < 10) then 0 else 1)
        (0x0700_0000 + n.val * 0x4_0000 + 0x100 + 8 * w.val) (toBytes 8 v.toNat)) ∧
    (∀ off, oneAccess (BitVec.toNat off) data.length → off.toNat % 0x4_0000 < 0x2_C000 →
      s.c.imageInUse n.val (off.toNat / 0x4_0000) = false →
      BankWrite s (.programImageWrite rt n off data) rt.val (s.c.sliceDom n.val) (off.toNat / 0x4_0000)
        (0x0A00_0000 + n.val * 0x8_0000 + off.toNat) data) ∧
    (∀ off d, oneAccess (BitVec.toNat off) data.length → off.toNat % 0x4_0000 < 0x2_C000 → s.c.sliceDom n.val = some d →
      s.c.created d = true → s.c.imageInUse n.val (off.toNat / 0x4_0000) = true →
      ∃ u, exec (.programImageWrite rt n off data) s = .next u ∧
        Refused s u rt.val (0x0A00_0000 + n.val * 0x8_0000 + off.toNat) data.length St.BUSY)

/-- R130, R155, R174, R183, R186, R199: the windows that belong to no bank. A live descriptor is
read-only while it is scheduled (DENIED) or OPEN (BUSY), and holds what is written otherwise, opening
with its last word; a group entry takes VALID and OVERLAP unless an open dynamic operation names it
(BUSY); the tensor table is written while the store is OFF (BUSY otherwise); a management route entry is
replaced by a 64-bit write, or with the write of its high half; a word of a hyperparameter set sets READY
where it is word 7 and clears it otherwise.
Rests in part on the model's own choices (log entry 77). -/
def Obligations.TableWindows : Prop :=
  ∀ (s : State) (rt : Route) (n : Fin 64) (data : List Byte),
    (∀ off, oneAccess (BitVec.toNat off) data.length → 0x1_0000 ≤ off.toNat → off.toNat < 0x1_8000 →
      ∃ u, exec (.descriptorWindowWrite rt n off data) s = .next u ∧
        let a := 0x0600_0000 + n.val * 0x2_0000 + off.toNat
        let i := (off.toNat - 0x1_0000) / 64
        let r := (s.c.setBytes a data).openDyn n.val i (fun w => (s.c.setBytes a data).rdWord (liveDescAddr n.val i w))
        (i < s.c.schedLimit n.val → Refused s u rt.val a data.length St.DENIED) ∧
        (s.c.schedLimit n.val ≤ i → s.c.opOpen (opKey n.val i) = true → Refused s u rt.val a data.length St.BUSY) ∧
        (s.c.schedLimit n.val ≤ i → s.c.opOpen (opKey n.val i) = false →
          (off.toNat % 64 + data.length < 64 → Stored s u a data none) ∧
          (off.toNat % 64 + data.length = 64 → r.1 = St.OK → u.dev = (Dev.mk r.2 s.dev.ram).pump n.val) ∧
          (off.toNat % 64 + data.length = 64 → r.1 ≠ St.OK →
            Refused { s with dev := { ctl := r.2, ram := s.dev.ram } } u rt.val a data.length r.1))) ∧
    (∀ off, oneAccess (BitVec.toNat off) data.length → ∃ u, exec (.groupEntryWrite rt n off data) s = .next u ∧
      let a := 0x0680_0000 + n.val * 0x800 + off.toNat
      (s.c.groupBusy n.val (off.toNat / 8) = true → Refused s u rt.val a data.length St.BUSY) ∧
      (s.c.groupBusy n.val (off.toNat / 8) = false →
        (off.toNat % 8 = 0 → u.c.rdWord a = ofBytes data % 4) ∧ u.dev.ram = s.dev.ram ∧
        ∀ x, (x ≠ a ∨ off.toNat % 8 ≠ 0) → u.c.word x = s.c.word x)) ∧
    (∀ off, oneAccess (BitVec.toNat off) data.length → ∃ u, exec (.tensorTableWrite rt n off data) s = .next u ∧
      let a := 0x0800_0000 + n.val * 0x8_0000 + off.toNat
      (s.c.storeOff n.val = true → Stored s u a data none) ∧
      (s.c.storeOff n.val = false → Refused s u rt.val a data.length St.BUSY)) ∧
    (∀ off, oneAccess (BitVec.toNat off) data.length → ∃ u, exec (.mgmtRouteWrite rt off data) s = .next u ∧ u.dev.ram = s.dev.ram ∧
      let a := 0x0580_0000 + off.toNat
      let low (c : Ctl) := tblGet (fun _ => none) c.routeLow (off.toNat / 8)
      (data.length = 8 → u.c.rdWord a = ofBytes data % 2 ^ 64 &&& 0x7F3F ∧ ∀ x, x ≠ a → u.c.word x = s.c.word x) ∧
      (data.length = 4 → off.toNat % 8 = 0 → low u.c = some (ofBytes data) ∧ ∀ x, u.c.word x = s.c.word x) ∧
      (data.length = 4 → off.toNat % 8 = 4 →
        u.c.rdWord (a - 4) = (low s.c).getD (s.c.rdWord (a - 4) % 2 ^ 32) % 2 ^ 32 &&& 0x7F3F ∧
          ∀ x, x ≠ a - 4 → u.c.word x = s.c.word x)) ∧
    (∀ (h : Fin 256) (w : Fin 8) (v : W64), ∃ u, exec (.hsetWordWrite rt n h w v) s = .next u ∧ u.dev.ram = s.dev.ram ∧
      (w.val ≠ 7 → u.c.rdWord (hsetAddr n.val h.val w.val) = v.toNat &&& hsetBits w.val) ∧
      (w.val = 7 → getFld (u.c.word (hsetAddr n.val h.val 7)) 0 32 = v.toNat % 2 ^ 32) ∧
      u.c.bit ⟨hsetAddr n.val h.val 7, 32, 1⟩ = (w.val == 7) ∧
      ∀ x, x ≠ hsetAddr n.val h.val w.val → x ≠ hsetAddr n.val h.val 7 → u.c.word x = s.c.word x)

/-- R34, R155, R265, R272, R284, R427, R428: an aperture that reaches no memory refuses DENIED and reads 0;
otherwise the access is one of the domain's window. The staging aperture and the debug window are
read-only (DENIED), and read a slice that is HALTED or OFF, where the bytes of the program area are given.
A 32-bit read of the low half of MER_NOW latches the high half for its requester. An uncorrectable staging word is reported with its area and
offset, and spoils what holds it.
Rests in part on the model's own choices (log entries 36, 78, 79). -/
def Obligations.Apertures : Prop :=
  ∀ (s : State) (rt : Route),
    (∀ off data z, oneAccess (BitVec.toNat off) data.length → ∃ u, exec (.domainApertureAccess rt off (some data) z) s = .next u ∧
      let w := s.c.aperBase rt.val + off.toNat
      let r := s.dev.winWrite (s.c.rd (MEM_APER_DOM.DOMAIN rt.val)) w data
      (s.c.aperShut rt.val w = true → Refused s u rt.val (0x05C0_0000 + off.toNat) data.length St.DENIED) ∧
      (s.c.aperShut rt.val w = false → r.1 = St.OK → u.dev = r.2)) ∧
    (∀ off n, oneAccess (BitVec.toNat off) n → ∃ u, exec (.domainApertureAccess rt off none n) s = .next u ∧ u.dev.ram = s.dev.ram ∧
      let w := s.c.aperBase rt.val + off.toNat
      let r := s.dev.winRead (s.c.rd (MEM_APER_DOM.DOMAIN rt.val)) w n
      (s.c.aperShut rt.val w = true → u.c.sent = .readData rt.val 0 :: s.c.sent ∧
        Refused s u rt.val (0x05C0_0000 + off.toNat) n St.DENIED) ∧
      (s.c.aperShut rt.val w = false → r.1 = St.OK → u.c.sent = .readData rt.val (ofBytes r.2.1) :: s.c.sent ∧
        ∀ x, u.c.word x = s.c.word x)) ∧
    (∀ off data z, oneAccess (BitVec.toNat off) data.length → ∃ u, exec (.stagingApertureAccess rt off (some data) z) s = .next u ∧
      Refused s u rt.val (0x06C0_0000 + off.toNat) data.length St.DENIED) ∧
    (∀ off n, oneAccess (BitVec.toNat off) n → ∃ u, exec (.stagingApertureAccess rt off none n) s = .next u ∧ u.dev.ram = s.dev.ram ∧
      let sl := s.c.rd (MEM_APER_STAGE.SLICE rt.val)
      let b := s.c.rd (MEM_APER_STAGE.STAGE_OFF rt.val) * 2 ^ 22 + off.toNat
      (s.c.bit (MEM_APER_STAGE.ENABLE rt.val) = false ∨ stagingBytes < b + n →
        u.c.sent = .readData rt.val 0 :: s.c.sent ∧ u.c.flt = s.c.flt) ∧
      (s.c.bit (MEM_APER_STAGE.ENABLE rt.val) = true → b + n ≤ stagingBytes → s.c.readableSlice sl = false →
        u.c.sent = .readData rt.val 0 :: s.c.sent ∧ Refused s u rt.val (0x06C0_0000 + off.toNat) n St.DENIED) ∧
      (s.c.bit (MEM_APER_STAGE.ENABLE rt.val) = true → b + n ≤ stagingBytes → s.c.readableSlice sl = true →
        ∃ bs, bs.length = n ∧ u.c.sent = .readData rt.val (ofBytes bs) :: s.c.sent ∧
          ∀ i, i < n → s.c.stageArea sl (b + i) = 0 → bs.getD i 0 = s.dev.ram.stageByte sl (b + i))) ∧
    (∀ (n : Fin 64) off data z, oneAccess (BitVec.toNat off) data.length →
      ∃ u, exec (.debugWindowAccess rt n off (some data) z) s = .next u ∧
        Refused s u rt.val (0x0C00_0000 + n.val * 0x10_0000 + off.toNat) data.length St.DENIED) ∧
    (∀ (n : Fin 64) off k, oneAccess (BitVec.toNat off) k → ∃ u, exec (.debugWindowAccess rt n off none k) s = .next u ∧
      (s.c.readableSlice n.val = true →
        u.c.sent = .readData rt.val (ofBytes ((List.range k).map (fun i => s.c.dbgByte n.val (off.toNat + i)))) :: s.c.sent ∧
          u.dev.ram = s.dev.ram ∧ ∀ x, u.c.word x = s.c.word x) ∧
      (s.c.readableSlice n.val = false → u.c.sent = .readData rt.val 0 :: s.c.sent ∧
        Refused s u rt.val (0x0C00_0000 + n.val * 0x10_0000 + off.toNat) k St.DENIED)) ∧
    (∀ (k : MboxKey), let p : Peer := (rt.val, if rt.val = 1 then k.dev.toNat * 256 + k.port.toNat else 0)
      (∃ u, exec (.merNowRead rt k none) s = .next u ∧ u.c.sent = .readData rt.val (s.c.rdWord MER_NOW.addr) :: s.c.sent ∧
        u.c.mer = s.c.mer) ∧
      (∃ u, exec (.merNowRead rt k (some false)) s = .next u ∧ u.c.sent = .readData rt.val (s.c.now % 2 ^ 32) :: s.c.sent ∧
        u.c.mer.latch.find? (fun e => e.1 == p) = some (p, s.c.now / 2 ^ 32) ∧ ∀ x, u.c.word x = s.c.word x) ∧
      (∃ u, exec (.merNowRead rt k (some true)) s = .next u ∧ (∀ x, u.c.word x = s.c.word x) ∧
        u.c.mer.latch.find? (fun e => e.1 == p) = none ∧
        u.c.sent = .readData rt.val ((((s.c.mer.latch.find? (fun e => e.1 == p)).map Prod.snd).getD (s.c.now / 2 ^ 32)) % 2 ^ 32) :: s.c.sent)) ∧
    (∀ (n : Fin 64) (o : BitVec 26), o.toNat < stagingBytes →
      (∃ u, exec (.stagingScrub n o .good) s = .next u ∧ u = s) ∧
      (∃ u, exec (.stagingScrub n o .ce) s = .next u ∧ Raised s u (Src.SLC_CORRECTED n.val) 0 0) ∧
      (∃ u, exec (.stagingScrub n o .ue) s = .next u ∧
        Raised s u (Src.SLC_UNCORRECTED n.val) 0 0 ∧
        (∃ e ∈ u.c.flt.inflight, e.src = Src.SLC_UNCORRECTED n.val ∧ e.subj.slice = some n.val ∧
          e.d6 = s.c.stageArea n.val o.toNat + (o.toNat / 32 * 32) * 2 ^ 32) ∧
        (s.c.stageArea n.val o.toNat = 0 → u.c.stageBad n.val (o.toNat / 32 * 32) 1 = true) ∧
        (s.c.stageArea n.val o.toNat = 3 → ∀ x t, s.c.rxQ n.val = x :: t →
          u.c.rxQ n.val = { x with pkt := { x.pkt with poison := true } } :: t)))

/-! ## Meridian, swaps and the slot boundary -/

/-- The neighbours among which a device chooses its parent, where `pin` is PARENT_PIN (R35). -/
def parentsOf (c : Ctl) (ns : List Neighbour) (pin : Nat) : List Neighbour :=
  ns.filter (fun n => n.aligned && c.linkUp n.link && (decide (48 ≤ pin) || decide (n.link = pin)))

/-- The device has chosen `n` as its parent and asks it for the time at once (R35, R36). -/
structure ChoseParent (s u : State) (n : Neighbour) : Prop where
  parent : u.c.rd MER_SYNC_STATUS.PARENT = n.link
  depth : u.c.rd MER_SYNC_STATUS.DEPTH = n.depth + 1
  state : u.c.syncState = 1
  asked : u.c.mer.asked = some (n.link, s.c.clock)

/-- R35: ALIGN_GO starts alignment once and locks ROOT and PARENT_PIN: the root starts its count in the
next slot; another device asks the best neighbour it has heard to be its parent. A second ALIGN_GO
changes SYNC_INTERVAL only. -/
def AlignGoRules : Prop :=
  ∀ (s : State) (rt : Route) (v : W64), ∃ u, exec (.alignGo rt v) s = .next u ∧ u.dev.ram = s.dev.ram ∧ u.pending = s.pending ∧
    u.c.rd MER_CTRL.SYNC_INTERVAL = getFld v 16 4 ∧
    (s.c.mer.goDone = true → u.c.mer = s.c.mer ∧ u.c.rd MER_CTRL.ROOT = s.c.rd MER_CTRL.ROOT ∧
      u.c.rd MER_CTRL.PARENT_PIN = s.c.rd MER_CTRL.PARENT_PIN) ∧
    (s.c.mer.goDone = false → u.c.mer.goDone = true ∧ u.c.rd MER_CTRL.ROOT = getFld v 0 1 ∧
      u.c.rd MER_CTRL.PARENT_PIN = getFld v 8 6 ∧
      (getFld v 0 1 = 1 → u.c.mer.startNext = true) ∧
      (getFld v 0 1 = 0 → u.c.mer.startNext = s.c.mer.startNext) ∧
      (getFld v 0 1 = 0 → parentsOf s.c s.c.mer.neighbours (getFld v 8 6) = [] →
        u.c.mer.asked = s.c.mer.asked ∧ u.c.word MER_SYNC_STATUS.addr = s.c.word MER_SYNC_STATUS.addr) ∧
      (∀ n, getFld v 0 1 = 0 → s.c.aligned = false → bestParent (parentsOf s.c s.c.mer.neighbours (getFld v 8 6)) = some n →
        ChoseParent s u n))

/-- A good SYNC packet of a kind is the oldest that has come from link `l` (Table MER-1). -/
structure SyncIn (c : Ctl) (l kind : Nat) (x : InPkt) : Prop where
  first : c.mer.rx.find? (fun y => y.inp = l) = some x
  kind : (SyncMsg.of x.pkt.payload).kind = kind
  good : x.pkt.poison = false ∧ x.pkt.chkGood = true

/-- A SYNC packet with these times is the last one offered by the control dies. -/
def SyncOut (c : Ctl) (l kind t1 t2 t3 : Nat) : Prop :=
  ∃ q x, c.inQ 112 = q ++ [x] ∧ x.mask = some (1 <<< l) ∧ x.pkt.typ = Typ.SYNC ∧ x.pkt.vc = 6 ∧ x.pkt.hopLocal = true ∧
    (SyncMsg.of x.pkt.payload).kind = kind ∧ (SyncMsg.of x.pkt.payload).t1 = t1 ∧
    (SyncMsg.of x.pkt.payload).t2 = t2 ∧ (SyncMsg.of x.pkt.payload).t3 = t3

/-- R36, R38: a REQ is answered with its own time and the times of its arrival and of the answer; the
answer to the exchange in progress gives an aligned device its OFFSET and LINK_DELAY, and the reaction
follows the size of the offset; an ANNOUNCE lets a device without a parent choose one; an aligned device
repeats the exchange when the interval has passed, and not before. -/
def SyncExchangeRules : Prop :=
  ∀ (s : State) (l : Fin 48) (x : InPkt),
    (∀ (t2 t3 : W64), SyncIn s.c l.val 1 x → ∃ u, exec (.syncReq l t2 t3) s = .next u ∧ u.dev.ram = s.dev.ram ∧
      SyncOut u.c l.val 2 (SyncMsg.of x.pkt.payload).t1 t2.toNat t3.toNat) ∧
    (∀ (t4 : W64) (t1 : Nat), SyncIn s.c l.val 2 x → s.c.mer.asked = some (l.val, t1) → s.c.aligned = true →
      (SyncMsg.of x.pkt.payload).t1 = t1 % 2 ^ 64 →
      ∃ u, exec (.syncRsp l t4) s = .next u ∧ u.dev.ram = s.dev.ram ∧ u.c.mer.asked = none ∧
        let m := SyncMsg.of x.pkt.payload
        let u3 : Int := fullTime m.count m.t3
        let r2 := fullTime m.count m.t2
        let u2 : Int := if (r2 : Int) ≤ u3 then r2 else (r2 : Int) - (2 ^ 64 : Nat)
        let u4 : Int := fullTime (s.c.clock / 65536 + 1) t4.toNat
        let delay : Int := ((u4 - t1) - (u3 - u2)) / 2
        let offset : Int := (u2 - t1) - delay
        let mag := (offset * 640000 / 65536).natAbs
        u.c.rd MER_SYNC_STATUS.OFFSET = ofInt 16 (clampInt (-32768) 32767 (offset * 320000 / 65536)) ∧
        u.c.rd MER_SYNC_STATUS.LINK_DELAY = (clampInt 0 65535 (delay * 3200 / 65536)).toNat ∧
        (mag ≤ 500 → u.c.mer.slew = s.c.mer.slew ∧ u.c.syncState = 2) ∧
        (500 < mag → mag ≤ 2 * s.c.rd MER_SLOT_CFG.ALARM_PS → u.c.mer.slew = some (offset * 640000 / 65536) ∧ u.c.syncState = 2 ∧
          ∃ e ∈ u.c.flt.inflight, e.src = Src.MER_SLEW) ∧
        (500 < mag → 2 * s.c.rd MER_SLOT_CFG.ALARM_PS < mag → u.c.syncState = 3 ∧ ∃ e ∈ u.c.flt.inflight, e.src = Src.MER_LOST)) ∧
    (SyncIn s.c l.val 3 x → ∃ u, exec (.announce l) s = .next u ∧ u.dev.ram = s.dev.ram ∧
      let m := SyncMsg.of x.pkt.payload
      let n : Neighbour := { link := x.inp, dev := x.pkt.srcDev, depth := m.depth, aligned := m.aligned, root := m.root }
      let ns := s.c.mer.neighbours.filter (fun k => k.link != x.inp) ++ [n]
      u.c.mer.neighbours = ns ∧
      ∀ p, s.c.mer.goDone = true → s.c.rd MER_CTRL.ROOT = 0 → s.c.rd MER_SYNC_STATUS.PARENT = 0x3F → s.c.syncState < 2 →
        bestParent (parentsOf s.c ns (s.c.rd MER_CTRL.PARENT_PIN)) = some p → ChoseParent s u p) ∧
    (let p := s.c.rd MER_SYNC_STATUS.PARENT
      let due := s.c.elapsed s.c.mer.lastSync (2 ^ (12 + s.c.rd MER_CTRL.SYNC_INTERVAL))
      (s.c.aligned = true → s.c.linkUp p = true → due = true → ∃ u, exec .syncIntervalExpiry s = .next u ∧ u.dev.ram = s.dev.ram ∧
        u.c.mer.asked = some (p, s.c.clock) ∧ u.c.mer.lastSync = s.c.slots ∧ SyncOut u.c p 1 (s.c.clock % 2 ^ 64) 0 0) ∧
      (due = false → exec .syncIntervalExpiry s = .next s))

/-- R35 and the exchange of SYNC blocks: how the device aligns and keeps time.
Rests in part on the model's own choices (log entries 16, 18, 19). -/
def Obligations.Alignment : Prop := AlignGoRules ∧ SyncExchangeRules

/-- The write of a swap register left its status, and changed the armed state as `armed` says. -/
structure SwapReply (s u : State) (d st : Nat) (armed : Bool) : Prop where
  status : u.c.rd (MER_SWAP_STATUS.LAST_STATUS d) = st
  armed : u.c.armed d = armed
  ram : u.dev.ram = s.dev.ram
  queue : u.pending = s.pending
  banks : u.c.banks = s.c.banks ∧ u.c.word (MER_PHASE.addr d) = s.c.word (MER_PHASE.addr d)

/-- R51, R52, R54: MER_PHASE_NEXT takes a KIND unless a swap is armed (BUSY); MER_SWAP_AT arms a swap for
slot S if none is armed and the other bank is under no check (BUSY), VALID (DENIED), of the KIND of
MER_PHASE_NEXT and S in the lead window (BAD_PARAM); a write of 0 disarms; while WAKING is set both are
refused with BUSY. -/
def SwapArmingRules : Prop :=
  ∀ (s : State) (rt : Route) (d : Fin 64),
    (∀ v : W64, ∃ u, exec (.phaseNextWrite rt d v) s = .next u ∧
      (s.c.armed d = true → SwapReply s u d St.BUSY true ∧ u.c.rd (MER_PHASE_NEXT.KIND d) = s.c.rd (MER_PHASE_NEXT.KIND d)) ∧
      (s.c.armed d = false → SwapReply s u d St.OK false ∧ u.c.rd (MER_PHASE_NEXT.KIND d) = getFld v 0 2)) ∧
    (∀ slot : BitVec 56, slot ≠ 0 → ∃ u, exec (.swapArm rt d slot) s = .next u ∧
      let k := 1 - s.c.liveBank d
      (s.c.bit (MER_SWAP_STATUS.WAKING d) = true → SwapReply s u d St.BUSY (s.c.armed d)) ∧
      (s.c.bit (MER_SWAP_STATUS.WAKING d) = false →
        (s.c.armed d = true ∨ (s.c.domMer d).checking = some k → SwapReply s u d St.BUSY (s.c.armed d)) ∧
        (s.c.armed d = false → (s.c.domMer d).checking ≠ some k → s.c.draining d k = false →
          (s.c.bankValid d k = false → SwapReply s u d St.DENIED false) ∧
          (s.c.bankValid d k = true →
            ((s.c.bank d k).kind ≠ s.c.rd (MER_PHASE_NEXT.KIND d) ∨ s.c.leadOk d k slot.toNat = false →
              SwapReply s u d St.BAD_PARAM false) ∧
            ((s.c.bank d k).kind = s.c.rd (MER_PHASE_NEXT.KIND d) → s.c.leadOk d k slot.toNat = true →
              SwapReply s u d St.OK true ∧ u.c.rd (MER_SWAP_AT.SLOT d) = slot.toNat))))) ∧
    (∃ u, exec (.swapDisarm rt d) s = .next u ∧
      (s.c.bit (MER_SWAP_STATUS.WAKING d) = true → SwapReply s u d St.BUSY (s.c.armed d)) ∧
      (s.c.bit (MER_SWAP_STATUS.WAKING d) = false → SwapReply s u d St.OK false ∧
        (s.c.armed d = true → u.c.rd (MER_SWAP_AT.SLOT d) = 0)))

/-- R53, R57: an armed swap's wake begins by slot S - 1; the swap step of the boundary into slot S makes
the other bank live, advances the epoch, takes the bank's KIND and clears ARMED, WAKING and MER_SWAP_AT;
the old bank drains. Without a swap that is due nothing happens. -/
def SwapStepRules : Prop :=
  ∀ (s : State) (d : Fin 64),
    (s.c.armed d = false → exec (.swapWakeStart d) s = .next s) ∧
    (s.c.armed d = true → s.c.rd (MER_SWAP_AT.SLOT d) ≤ s.c.now + 1 → ∃ u, exec (.swapWakeStart d) s = .next u ∧
      u.c.bit (MER_SWAP_STATUS.WAKING d) = true ∧ u.c.armed d = true ∧ u.dev.ram = s.dev.ram) ∧
    (s.c.swapDue d = false → exec (.phaseSwap d) s = .next s) ∧
    (s.c.armed d = true → s.c.mer.counting = true → s.c.rd (MER_SWAP_AT.SLOT d) ≤ s.c.now + 1 →
      ∃ u, exec (.phaseSwap d) s = .next u ∧ u.c.liveBank d = 1 - s.c.liveBank d ∧ u.c.epoch d = (s.c.epoch d + 1) % 8 ∧
        u.c.rd (MER_PHASE.KIND d) = (s.c.bank d (1 - s.c.liveBank d)).kind % 4 ∧
        u.c.rd (MER_PHASE.SWAPS d) = (s.c.rd (MER_PHASE.SWAPS d) + 1) % 2 ^ 32 ∧
        u.c.armed d = false ∧ u.c.bit (MER_SWAP_STATUS.WAKING d) = false ∧ u.c.rd (MER_SWAP_AT.SLOT d) = 0 ∧
        u.c.rd (MER_SWAP_STATUS.LAST_SWAP d) = (s.c.now + 1) % 2 ^ 32 ∧ (u.c.domMer d).start = s.c.now + 1 ∧
        u.c.draining d (s.c.liveBank d) = true ∧ u.dev.ram = s.dev.ram ∧ u.pending = s.pending)

/-- R51-R54, R57: how a bank swap is armed, disarmed and takes place.
Rests in part on the model's own choices (log entries 53, 55). -/
def Obligations.BankSwaps : Prop := SwapArmingRules ∧ SwapStepRules

/-- R26, R32, R35: a slot boundary applies what the slot that ends raised, then swaps, then lifecycle
transitions, advances the count, and then runs the first entries of the new slot; a counting device
counts one slot, and a root that was told to start counts from 0.
Rests in part on the model's own choices (log entry 55). -/
def Obligations.SlotBoundary : Prop :=
  ∀ (s : State), ∃ u, exec .slotBoundary s = .next u ∧ u.pending = s.pending ∧
    u.c.slots = s.c.slots + 1 ∧ u.c.cyc = 0 ∧
    (s.c.mer.startNext = true → u.c.now = 0 ∧ u.c.mer.counting = true) ∧
    (s.c.mer.startNext = false → s.c.mer.counting = true → u.c.now = (s.c.now + 1) % 2 ^ 56) ∧
    (s.c.mer.startNext = false → s.c.mer.counting = false → u.c.now = s.c.now)

/-! ## Serial lanes -/

/-- Nothing of another link has changed, nor any memory or the queue. -/
structure OneLink (s u : State) (l : Nat) : Prop where
  links : ∀ m, m ≠ l → u.c.link m = s.c.link m
  states : ∀ m, m < 48 → m ≠ l → u.c.linkState m = s.c.linkState m
  ram : u.dev.ram = s.dev.ram
  queue : u.pending = s.pending

/-- R67, R69-R71, R77, R91, Table LAN-3: with the training frame taken on all eight lanes, DETECT goes on
to EQ at the highest common rate, or fails with RATE where there is none; EQ goes on to LOCK when both
ends are adapted, LOCK to ALIGN when the filler is good, and ALIGN, or a wake, ends when both ends have
shown alignment twice; EQ not complete in 4,688 slots gives the rate up or fails, and the bound of 6,250
slots fails the training.
Rests in part on the model's own choices (log entries 15, 20). -/
def Obligations.LaneTraining : Prop :=
  ∀ (s : State) (l : Fin 48),
    (∀ (words : List W64) (obs : TrainObs), words.length = 8 → ∃ u, exec (.trainingFrame l words obs) s = .next u ∧ OneLink s u l ∧
      let st := s.c.linkState l
      let c := s.c.takeFrame l words obs (decide (st = LanSt.EQ))
      let common := c.rateCap l &&& nfld (c.lane l 0).word 4 3;
      (st = LanSt.DETECT → (c.link l).received (fun _ => true) = false → u.c.linkState l = LanSt.DETECT) ∧
      (st = LanSt.DETECT → (c.link l).received (fun _ => true) = true → common = 0 →
        u.c.linkState l = LanSt.FAILED ∧ u.c.rd (LNK_TRAIN.FAIL_CAUSE l) = 1 ∧ (u.c.link l).squelched = true ∧
        ∃ e ∈ u.c.flt.inflight, e.src = Src.TRAIN_FAIL l) ∧
      (st = LanSt.DETECT → (c.link l).received (fun _ => true) = true → common ≠ 0 →
        u.c.linkState l = LanSt.EQ ∧ (u.c.link l).rate = topRate common ∧ (u.c.link l).eqSince = s.c.slots) ∧
      (st = LanSt.EQ → u.c.linkState l = if c.eqDone l = true then LanSt.LOCK else LanSt.EQ) ∧
      (st = LanSt.LOCK → u.c.linkState l = if c.lockDone l = true then LanSt.ALIGN else LanSt.LOCK) ∧
      (let atEnd := c.alignReady l = true ∧ 2 ≤ (c.link l).readyTx ∧ (c.link l).received (fun w => nbit w 35) = true;
        (st = LanSt.ALIGN → (c.link l).fromIdle = false → atEnd → u.c.linkState l = LanSt.CAPS) ∧
        (st = LanSt.WAKE → (c.link l).fromIdle = true → atEnd → u.c.linkState l = LanSt.UP ∧ u.c.bit (LNK_STATUS.UP l) = true) ∧
        (st = LanSt.ALIGN ∨ st = LanSt.WAKE → ¬ atEnd → u.c.linkState l = st))) ∧
    (∃ u, exec (.eqTimeout l) s = .next u ∧ OneLink s u l ∧
      (¬ (s.c.linkState l = LanSt.EQ ∧ s.c.elapsed (s.c.link l).eqSince 4688 = true) → u = s) ∧
      (s.c.linkState l = LanSt.EQ → s.c.elapsed (s.c.link l).eqSince 4688 = true →
        (s.c.bit (LNK_RATE.FALLBACK l) = true → u.c.linkState l = LanSt.DETECT ∧
          (u.c.link l).removed = (s.c.link l).removed ||| (s.c.link l).rate) ∧
        (s.c.bit (LNK_RATE.FALLBACK l) = false → u.c.linkState l = LanSt.FAILED ∧ u.c.rd (LNK_TRAIN.FAIL_CAUSE l) = 2 ∧
          ∃ e ∈ u.c.flt.inflight, e.src = Src.TRAIN_FAIL l))) ∧
    (∃ u, exec (.trainTimeout l) s = .next u ∧ OneLink s u l ∧
      (s.c.elapsed (s.c.link l).eqSince 6250 = false → u = s) ∧
      (s.c.elapsed (s.c.link l).eqSince 6250 = true →
        (s.c.linkState l = LanSt.LOCK → u.c.linkState l = LanSt.FAILED ∧ u.c.rd (LNK_TRAIN.FAIL_CAUSE l) = 3) ∧
        (s.c.linkState l = LanSt.ALIGN → u.c.linkState l = LanSt.FAILED ∧
          u.c.rd (LNK_TRAIN.FAIL_CAUSE l) = if (s.c.link l).hint = 4 then 4 else 5) ∧
        (s.c.linkState l = LanSt.RETUNE → u.c.linkState l = LanSt.FAILED ∧ u.c.rd (LNK_TRAIN.FAIL_CAUSE l) = 6 ∧
          ∃ e ∈ u.c.flt.inflight, e.src = Src.WAKE_FAIL l)))

/-- R53, R76-R80: IDLE_ENTER idles an UP link, or wakes it at once where it is in use or held awake, which
counts a conflict; a link that has nothing to send and no user idles; a lane that sees its partner's
signal wakes an idle link, by fast exit within 31,250 slots of idle and else by a retune; a fast exit
that misses its bound goes on as a retune.
Rests in part on the model's own choices (log entry 15). -/
def Obligations.LinkIdle : Prop :=
  ∀ (s : State) (l : Fin 48),
    (∃ u, exec (.idleEnter l) s = .next u ∧ OneLink s u l ∧
      (s.c.linkState l ≠ LanSt.UP → u = s) ∧
      (s.c.linkState l = LanSt.UP → (s.c.linkInBanks l || s.c.heldAwake l) = true → u.c.linkState l = LanSt.WAKE ∧
        u.c.rd (LNK_TRAIN.IDLE_CONFLICTS l) = min (s.c.rd (LNK_TRAIN.IDLE_CONFLICTS l) + 1) 255) ∧
      (s.c.linkState l = LanSt.UP → (s.c.linkInBanks l || s.c.heldAwake l) = false → u.c.linkState l = LanSt.IDLE ∧
        (u.c.link l).squelched = true ∧ (u.c.link l).idleSince = s.c.slots ∧ u.c.bit (LNK_STATUS.UP l) = false)) ∧
    (∃ u, exec (.linkIdleEntry l) s = .next u ∧ OneLink s u l ∧
      (s.c.idleReady l = false → u = s) ∧
      (s.c.idleReady l = true → u.c.linkState l = LanSt.IDLE ∧ (u.c.link l).squelched = true ∧
        (u.c.link l).idleSince = s.c.slots ∧ u.c.bit (LNK_STATUS.UP l) = false)) ∧
    (∀ ln : Fin 8, ∃ u, exec (.losDeassert l ln) s = .next u ∧ u.dev.ram = s.dev.ram ∧ u.pending = s.pending ∧
      u.c.bit (LANE_STATUS.LOS l ln) = false ∧
      (s.c.linkState l ≠ LanSt.IDLE → u.c.linkState l = s.c.linkState l) ∧
      (s.c.linkState l = LanSt.IDLE → s.c.inSafe = false →
        u.c.linkState l = if s.c.slots - (s.c.link l).idleSince ≤ 31250 then LanSt.WAKE else LanSt.RETUNE)) ∧
    (∃ u, exec (.wakeFail l) s = .next u ∧ OneLink s u l ∧
      (s.c.linkState l ≠ LanSt.WAKE → u = s) ∧
      (s.c.linkState l = LanSt.WAKE → u.c.linkState l = LanSt.RETUNE ∧ ∃ e ∈ u.c.flt.inflight, e.src = Src.WAKE_FAIL l))

/-- The lane's event of a source, or none. -/
def laneEvent (s u : State) (src ln : Nat) (yes : Prop) : Prop :=
  (yes → ∃ e ∈ u.c.flt.inflight, e.src = src ∧ e.subj.lanes = 1 <<< ln) ∧ (¬ yes → u.c.flt = s.c.flt)

/-- R64, R73-R75, R84: the detectors of a lane show in LANE_STATUS; LOS of an UP link whose partner has
not said IDLE_ENTER, CDR_LOL of an UP link and PLL_LOL of a lane that is not OFF are reported when they
begin; more than 1e-5 corrected symbols in a window raises FEC_SYM until a window is below 1e-6; an
offset above 10 ppm for a slot raises REF_TRACK and above 20 ppm loses lock; an automatic scan of an UP
lane shows its margins, and 16 low ones in a row raise MARGIN_LOW.
Rests in part on the model's own choices (log entries 15, 23). -/
def Obligations.LaneDetectors : Prop :=
  ∀ (s : State) (l : Fin 48) (ln : Fin 8),
    (∃ u, exec (.losAssert l ln) s = .next u ∧ OneLink s u l ∧ u.c.bit (LANE_STATUS.LOS l ln) = true ∧
      laneEvent s u (Src.LOS l) ln (s.c.bit (LANE_STATUS.LOS l ln) = false ∧ s.c.linkState l = LanSt.UP ∧
        nfld (s.c.lane l ln).word 0 4 ≠ 12)) ∧
    (∀ on, ∃ u, exec (.cdrLol l ln on) s = .next u ∧ OneLink s u l ∧ u.c.bit (LANE_STATUS.CDR_LOL l ln) = on ∧
      laneEvent s u (Src.CDR_LOL l) ln (on = true ∧ s.c.bit (LANE_STATUS.CDR_LOL l ln) = false ∧ s.c.linkState l = LanSt.UP)) ∧
    (∀ on, ∃ u, exec (.pllLol l ln on) s = .next u ∧ OneLink s u l ∧ u.c.bit (LANE_STATUS.PLL_LOL l ln) = on ∧
      laneEvent s u (Src.PLL_LOL l) ln (on = true ∧ s.c.bit (LANE_STATUS.PLL_LOL l ln) = false ∧
        s.c.laneState l ln ≠ LanSt.OFF)) ∧
    (let a := s.c.lane l ln
      let total := fecTotal (s.c.link l).rate;
      (s.c.elapsed a.fecFrom 65536 = false → exec (.fecSym l ln) s = .next s) ∧
      (s.c.elapsed a.fecFrom 65536 = true → ∃ u, exec (.fecSym l ln) s = .next u ∧ OneLink s u l ∧
        (u.c.lane l ln).fecWin = 0 ∧ (u.c.lane l ln).fecFrom = s.c.slots ∧
        (u.c.lane l ln).fecHeld = (decide (total < a.fecWin * 100000) || (a.fecHeld && !decide (a.fecWin * 1000000 < total))) ∧
        laneEvent s u (Src.FEC_SYM l) ln (total < a.fecWin * 100000 ∧ a.fecHeld = false))) ∧
    (∀ ppm : BitVec 8, ∃ u, exec (.refTrack l ln ppm) s = .next u ∧ OneLink s u l ∧
      u.c.rd (LANE_STATUS.FREQ_OFS l ln) = ppm.toNat ∧
      (20 < ppm.toInt.natAbs → u.c.bit (LANE_STATUS.CDR_LOL l ln) = true) ∧
      (ppm.toInt.natAbs ≤ 10 → (u.c.lane l ln).refSince = none ∧ u.c.flt = s.c.flt) ∧
      (∀ t, 10 < ppm.toInt.natAbs → (s.c.lane l ln).refSince = some t → s.c.elapsed t 1 = true →
        (s.c.lane l ln).refRaised = false → ∃ e ∈ u.c.flt.inflight, e.src = Src.REF_TRACK l ∧ e.subj.lanes = 1 <<< ln.val) ∧
      (10 < ppm.toInt.natAbs → (s.c.lane l ln).refSince = none → (u.c.lane l ln).refSince = some s.c.slots)) ∧
    (∀ (h : BitVec 8) (w : BitVec 6),
      let a := s.c.lane l ln
      let due := s.c.laneState l ln = LanSt.UP ∧ s.c.elapsed a.lastScan 4096 = true ∧ s.c.bit (LANE_MARGIN.BUSY l ln) = false;
      (¬ due → exec (.autoMarginScan l ln h w) s = .next s) ∧
      (due → ∃ u, exec (.autoMarginScan l ln h w) s = .next u ∧ OneLink s u l ∧
        u.c.rd (LANE_STATUS.MARGIN_H l ln) = h.toNat ∧ u.c.rd (LANE_STATUS.MARGIN_W l ln) = w.toNat ∧
        laneEvent s u (Src.MARGIN_LOW l) ln (a.lowScans = 15 ∧ (h.toNat < 10 ∨ w.toNat < 4))))

/-- The lane registers of another lane, and everything of the lanes' own state, are as they were. -/
structure OneLane (s u : State) (l ln : Nat) : Prop where
  others : ∀ i, i < 8 → i ≠ ln → u.c.laneState l i = s.c.laneState l i
  link : OneLink s u l

/-- R81-R83, R85: with the link OFF a lane takes its patterns and stands in TEST while one is selected
(DENIED otherwise); CLEAR zeroes the checker's counts; a checker in sync counts the bits that differ and
loses sync above 128 errors in 1,024 bits; an injection counts in TEST, and a single or periodic one in UP;
a scan point runs until its dwell is complete, or is ABORTED on a lane neither UP nor in TEST.
Rests in part on the model's own choices (log entry 23). -/
def Obligations.LaneTests : Prop :=
  ∀ (s : State) (rt : Route) (l : Fin 48) (ln : Fin 8) (v : W64),
    (∃ u, exec (.patternSelect rt l ln v) s = .next u ∧ OneLane s u l ln ∧
      (s.c.linkOff l = false → Refused s u rt.val (LANE_PRBS_CFG.addr l ln) 8 St.DENIED) ∧
      (s.c.linkOff l = true → u.c.rd (LANE_PRBS_CFG.TX_PAT l ln) = getFld v 0 3 ∧ u.c.rd (LANE_PRBS_CFG.RX_PAT l ln) = getFld v 4 3 ∧
        (getFld v 0 3 ≠ 0 ∨ getFld v 4 3 ≠ 0 → u.c.laneState l ln = LanSt.TEST) ∧
        (getFld v 0 3 = 0 → getFld v 4 3 = 0 → s.c.laneState l ln = LanSt.TEST → u.c.laneState l ln = LanSt.OFF))) ∧
    (s.c.linkOff l = true → ∃ u, exec (.prbsClear rt l ln v) s = .next u ∧ OneLane s u l ln ∧
      u.c.rd (LANE_PRBS_ERR.ERRORS l ln) = 0 ∧ u.c.rd (LANE_PRBS_ERR.BITS l ln) = 0) ∧
    (¬ (s.c.laneState l ln = LanSt.TEST ∧ s.c.rd (LANE_PRBS_CFG.RX_PAT l ln) ≠ 0) → ∀ bits, exec (.prbsSync l ln bits) s = .next s) ∧
    (∀ b, s.c.laneState l ln = LanSt.TEST → s.c.rd (LANE_PRBS_CFG.RX_PAT l ln) ≠ 0 →
      ∃ u, exec (.prbsSync l ln [b]) s = .next u ∧ OneLane s u l ln ∧
        let a := s.c.lane l ln
        let x := b != s.c.bit (LANE_PRBS_CFG.INVERT l ln)
        let p := patternNext (s.c.rd (LANE_PRBS_CFG.RX_PAT l ln)) (s.c.rdWord (LANE_PRBS_USER.addr l ln)) a.chkReg
        let errs := (((p.1 != x) :: a.chkWin).take 1024).filter (fun e => e);
        (s.c.bit (LANE_PRBS_ERR.SYNC l ln) = true →
          u.c.rd (LANE_PRBS_ERR.ERRORS l ln) = (if p.1 = x then s.c.rd (LANE_PRBS_ERR.ERRORS l ln)
            else min (s.c.rd (LANE_PRBS_ERR.ERRORS l ln) + 1) (2 ^ 32 - 1)) ∧
          u.c.bit (LANE_PRBS_ERR.SYNC l ln) = decide (errs.length ≤ 128)) ∧
        (s.c.bit (LANE_PRBS_ERR.SYNC l ln) = false →
          u.c.bit (LANE_PRBS_ERR.SYNC l ln) = (decide (p.1 = x) && p.2 && decide (1024 ≤ a.chkGood + 1)))) ∧
    (s.c.linkOff l = true ∨ (getFld v 0 2 ≠ 3 ∧ getFld v 8 8 = s.c.rd (LANE_INJECT.BURST_SYM l ln)) →
      ∃ u, exec (.injectGo rt l ln v) s = .next u ∧ OneLane s u l ln ∧
      let st := s.c.laneState l ln
      u.c.rd (LANE_INJECT.INJECTED l ln) =
        if (getFld v 0 2 = 1 ∧ (st = LanSt.TEST ∨ st = LanSt.UP)) ∨ (getFld v 0 2 = 3 ∧ st = LanSt.TEST)
        then (s.c.rd (LANE_INJECT.INJECTED l ln) + 1) % 2 ^ 32 else s.c.rd (LANE_INJECT.INJECTED l ln)) ∧
    (s.c.linkOff l = false → getFld v 0 2 = 3 → ∃ u, exec (.injectGo rt l ln v) s = .next u ∧
      Refused s u rt.val (LANE_INJECT.addr l ln) 8 St.DENIED) ∧
    (let st := s.c.laneState l ln;
      (s.c.rd (LANE_INJECT.MODE l ln) = 2 → st = LanSt.TEST ∨ st = LanSt.UP →
        ∃ u, exec (.periodicInjection l ln) s = .next u ∧ OneLane s u l ln ∧
          u.c.rd (LANE_INJECT.INJECTED l ln) = (s.c.rd (LANE_INJECT.INJECTED l ln) + 1) % 2 ^ 32) ∧
      (¬ (s.c.rd (LANE_INJECT.MODE l ln) = 2 ∧ (st = LanSt.TEST ∨ st = LanSt.UP)) → exec (.periodicInjection l ln) s = .next s)) ∧
    (s.c.bit (LANE_MARGIN.BUSY l ln) = true → exec (.marginGo rt l ln v) s = .next s) ∧
    (s.c.bit (LANE_MARGIN.BUSY l ln) = false → ∃ u, exec (.marginGo rt l ln v) s = .next u ∧ OneLane s u l ln ∧
      u.c.rd (LANE_MARGIN.ERRORS l ln) = 0 ∧
      let ok := decide (s.c.laneState l ln = LanSt.UP ∨ s.c.laneState l ln = LanSt.TEST)
      u.c.bit (LANE_MARGIN.BUSY l ln) = ok ∧ u.c.bit (LANE_MARGIN.DONE l ln) = !ok ∧ u.c.bit (LANE_MARGIN.ABORTED l ln) = !ok) ∧
    (∀ n, s.c.bit (LANE_MARGIN.BUSY l ln) = true → ∃ u, exec (.marginDone l ln n) s = .next u ∧ OneLane s u l ln ∧
      u.c.bit (LANE_MARGIN.BUSY l ln) = false ∧ u.c.bit (LANE_MARGIN.DONE l ln) = true ∧
      u.c.rd (LANE_MARGIN.ERRORS l ln) = min n (2 ^ 32 - 1)) ∧
    (∀ n, s.c.bit (LANE_MARGIN.BUSY l ln) = false → exec (.marginDone l ln n) s = .next s)

/-! ## Links and the switch -/

/-- What a receiver makes of a block's eight lanes: descrambled, corrected, and good by its LCRC (R93). -/
def blockData (c : Ctl) (l : Nat) (lanes : List (List Byte)) : Option (List Byte) :=
  let phys (i : Nat) : Nat := if c.bit (LNK_TRAIN.REVERSED l) then 7 - i else i
  let ds := lanes8.map (fun i => (scrambleBytes ((c.link l).scr.getD i (scrSeed i)) (lanes.getD (phys i) [])).2)
  match (decodeBlock ds).data with
  | some data => if crc32c (data.take 56 ++ data.drop 64) = leAt data 56 4 then some data else none
  | none => none

/-- The link has been declared down for a cause (R108). -/
structure WentDown (s u : State) (l cause : Nat) : Prop where
  state : u.c.linkState l = LanSt.OFF
  up : u.c.bit (LNK_STATUS.UP l) = false
  latch : u.c.bit (LNK_STATUS.DOWN_LATCH l) = true
  cause : u.c.rd (LNK_STATUS.DOWN_CAUSE l) = cause
  squelched : (u.c.link l).squelched = true
  stored : (u.c.link l).stored = []
  flushed : u.c.outSt l = {}
  event : ∃ e ∈ u.c.flt.inflight, e.src = Src.LINK_DOWN ∧ e.subj.link = some l
  again : (u.c.link l).retrainAt = if s.c.bit (LNK_CTRL.AUTO_RETRAIN l) = true then some (s.c.slots + 3125) else none

/-- R104-R106, R108: a bad block puts an UP link in NAK state; a good block of another sequence number is
discarded, and the expected one advances the sequence and ends the NAK state. The oldest block unanswered
in time is re-sent with all after it, until the attempts are used up; an episode or a NAK state that
lasts too long declares the link down, and the members behind it are missing (R178); training starts again
when the retrain time has come. With the link still UP nothing more happens.
Rests in part on the model's own choices (log entry 22). -/
def Obligations.LinkReplay : Prop :=
  ∀ (s : State) (l : Fin 48),
    (∀ lanes, lanes.length = 8 → ∃ v : State, exec (.blockReceive l lanes) s = .next { dev := s.dev.membersLost l v.c, pending := s.pending } ∧
      v.dev.ram = s.dev.ram ∧
      (s.c.linkState l ≠ LanSt.CAPS → s.c.linkState l ≠ LanSt.UP → v.dev = s.dev) ∧
      (s.c.linkState l = LanSt.UP → (s.c.link l).firstBlock = false →
        (blockData s.c l lanes = none → (v.c.link l).nakState = true ∧ (v.c.link l).expect = (s.c.link l).expect ∧
          (v.c.link l).rxq = (s.c.link l).rxq) ∧
        (∀ data, blockData s.c l lanes = some data → nbit (leAt data 0 8) 34 = false → nbit (leAt data 0 8) 35 = false →
          (nfld (leAt data 0 8) 0 16 ≠ (s.c.link l).expect → (v.c.link l).expect = (s.c.link l).expect ∧
            (v.c.link l).nakState = (s.c.link l).nakState ∧ (v.c.link l).rxq = (s.c.link l).rxq) ∧
          (nfld (leAt data 0 8) 0 16 = (s.c.link l).expect → (v.c.link l).expect = ((s.c.link l).expect + 1) % 65536 ∧
            (v.c.link l).nakState = false ∧ ∃ q, (v.c.link l).rxq = (s.c.link l).rxq ++ q)))) ∧
    (s.c.linkState l ≠ LanSt.UP ∨ (s.c.link l).stored = [] → exec (.replayTimeout l) s = .next s) ∧
    (∀ b t, s.c.linkState l = LanSt.UP → (s.c.link l).stored = b :: t → b.bseq < 65536 →
      ∃ v : State, exec (.replayTimeout l) s = .next { dev := s.dev.membersLost l v.c, pending := s.pending } ∧ v.dev.ram = s.dev.ram ∧
        let k := s.c.link l;
        (k.episodeFirst = none ∨ k.attempts < s.c.maxAttempts l →
          (v.c.link l).attempts = k.attempts + 1 ∧ (v.c.link l).stored = k.stored ∧
          (v.c.link l).episodeFirst = some (k.episodeFirst.getD b.bseq) ∧
          v.c.linkState l = LanSt.UP ∧ v.c.sent = ((k.stored.flatMap (fun x => x.pkts)).map (Sent.packet l.val)).reverse ++ s.c.sent) ∧
        (k.episodeFirst.isSome = true → s.c.maxAttempts l ≤ k.attempts → WentDown s v l 1)) ∧
    (∃ v : State, exec (.linkDown l) s = .next { dev := s.dev.membersLost l v.c, pending := s.pending } ∧ v.dev.ram = s.dev.ram ∧
      let k := s.c.link l;
      (s.c.linkState l ≠ LanSt.UP ∨ (k.episodeFirst = none ∧ k.nakState = false) → v.dev = s.dev) ∧
      (s.c.linkState l = LanSt.UP → k.episodeFirst.isSome = true → k.nakState = false → WentDown s v l 2) ∧
      (s.c.linkState l = LanSt.UP → k.episodeFirst = none → k.nakState = true → WentDown s v l 3)) ∧
    (∀ c : Ctl, s.c.linkState l ≠ LanSt.UP ∨ c.linkState l = LanSt.UP → s.dev.membersLost l c = { s.dev with ctl := c }) ∧
    (∀ c : Ctl, s.c.linkState l = LanSt.UP → c.linkState l ≠ LanSt.UP →
      s.dev.membersLost l c = ((c.ops.map Prod.fst).filter c.opOpen).foldl Dev.downMissing { s.dev with ctl := c }) ∧
    (∃ u, exec (.linkRetrain l) s = .next u ∧ u.dev.ram = s.dev.ram ∧ u.pending = s.pending ∧
      ((s.c.link l).retrainAt = none → u = s) ∧
      (∀ t, (s.c.link l).retrainAt = some t → s.c.slots < t → u = s) ∧
      (∀ t, (s.c.link l).retrainAt = some t → t ≤ s.c.slots → u.c.linkState l = LanSt.DETECT ∧
        (u.c.link l).squelched = false ∧ (u.c.link l).retrainAt = none))

/-- R118, R119: a capability record is shown in LNK_PARTNER; two equal records are checked, a failed check
shows in CAPS_FAIL and raises CAPS_MISMATCH; with four measured echoes the link comes UP with the smallest
round trip. An exchange that takes too long fails with CAPS_FAIL 4.
Rests in part on the model's own choices (log entry 21). -/
def Obligations.LinkCaps : Prop :=
  ∀ (s : State) (l : Fin 48),
    (∀ sentNs rxNs, ∃ u, exec (.capsRecord l sentNs rxNs) s = .next u ∧ u.dev.ram = s.dev.ram ∧ u.pending = s.pending ∧
      let k := s.c.link l
      let w (i : Nat) : Nat := k.capsRx.getD i 0
      let same := decide (k.capsLast = [w 0, w 2, w 3, w 4, w 5])
      let echoed := decide (nfld (w 1) 16 16 < k.capsSeq ∧ sentNs + nfld (w 1) 32 16 ≤ rxNs)
      let rtt := rxNs - sentNs - nfld (w 1) 32 16
      let least := if echoed = false then k.rttMin else if k.rttCount = 0 then rtt else min k.rttMin rtt
      let count := if echoed then k.rttCount + 1 else k.rttCount
      let two := same = true ∧ 1 ≤ k.capsSame ∧ s.c.rd (LNK_STATUS.CAPS_FAIL l) = 0;
      (s.c.linkState l ≠ LanSt.CAPS ∨ k.capsRx = [] → u = s) ∧
      (s.c.linkState l = LanSt.CAPS → k.capsRx ≠ [] →
        u.c.rdWord (LNK_PARTNER.addr l) = w 0 % 2 ^ 48 ∧ u.c.rdWord (LNK_PARTNER_SIG.addr l) = w 2 % 2 ^ 64 ∧
        (¬ two → u.c.linkState l = LanSt.CAPS ∧ u.c.rd (LNK_STATUS.CAPS_FAIL l) = s.c.rd (LNK_STATUS.CAPS_FAIL l)) ∧
        (two → s.c.capsCheck l (w 0) ≠ 0 → u.c.linkState l = LanSt.CAPS ∧ u.c.rd (LNK_STATUS.CAPS_FAIL l) = s.c.capsCheck l (w 0) ∧
          ∃ e ∈ u.c.flt.inflight, e.src = Src.CAPS_MISMATCH) ∧
        (two → s.c.capsCheck l (w 0) = 0 → count < 4 → u.c.linkState l = LanSt.CAPS) ∧
        (two → s.c.capsCheck l (w 0) = 0 → 4 ≤ count → u.c.linkState l = LanSt.UP ∧ u.c.bit (LNK_STATUS.UP l) = true ∧
          u.c.rd (LNK_STATUS.RTT l) = min 65535 least ∧ (u.c.link l).expect = 0 ∧ (u.c.link l).txBseq = 0))) ∧
    (∃ u, exec (.capsTimeout l) s = .next u ∧ u.dev.ram = s.dev.ram ∧ u.pending = s.pending ∧
      (¬ (s.c.linkState l = LanSt.CAPS ∧ s.c.rd (LNK_STATUS.CAPS_FAIL l) = 0) → u = s) ∧
      (s.c.linkState l = LanSt.CAPS → s.c.rd (LNK_STATUS.CAPS_FAIL l) = 0 →
        u.c.rd (LNK_STATUS.CAPS_FAIL l) = 4 ∧ u.c.linkState l = LanSt.CAPS ∧ ∃ e ∈ u.c.flt.inflight, e.src = Src.CAPS_MISMATCH))

/-- The packet at the head of an input passes checks 2 to 5 of Table SWX-1: `y` is what the device makes of
it and `bank` the routing bank that its epoch selects (none for SYNC and VC6). -/
structure Admitted (c : Ctl) (inp : Nat) (x y : InPkt) (rest : List InPkt) (bank : Option Nat) : Prop where
  head : c.inQ inp = x :: rest
  go : c.goPass { x with inp := inp } = true
  header : inp < 48 → x.pkt.hdrCheck = crc16 x.pkt.hdrBytes ∧ typeOk x.pkt = true ∧ x.pkt.chkSel ≠ 3
  source : inp < 48 → c.rd (LNK_CTRL.ROLE inp) = 1 → x.pkt.srcDev = c.devNum ∧ x.pkt.srcPort = inp
  stamped : y = c.edgeTicket (c.stampPkt { x with inp := inp })
  domain : inp < 48 → y.pkt.exempt = false →
    c.rd (DOM_STATE.STATE y.pkt.domain) ≠ 0 ∧ nbit (c.rd (DOM_LINKS.LINKS y.pkt.domain)) inp = true
  epoch : (y.pkt.exempt = true ∧ bank = none) ∨ (y.pkt.exempt = false ∧ bank.isSome = true ∧ c.bankFor y.pkt.domain y.pkt.epoch = bank)

/-- R125, R126, R138, R142, R145, R149: the ingress checks in order. Before GO only SYNC and hop-local VC6
pass; a bad header counts in HDR_BAD; a packet of a domain the link is not assigned to, or of an epoch that
is not routable, is discarded and counted. A packet that passes goes to the Meridian logic, the control
dies, a slice that is ON, or the output of the egress found; an unroutable one counts; one without room in
its output waits.
Rests in part on the model's own choices (log entries 25, 26). -/
def Obligations.SwitchIngress : Prop :=
  ∀ (s : State) (inp : Fin 113) (x y : InPkt) (rest : List InPkt) (bank : Option Nat),
    (s.c.inQ inp = [] → exec (.packetIngress inp) s = .next s) ∧
    (s.c.inQ inp = x :: rest → ∃ u, exec (.packetIngress inp) s = .next u ∧ u.dev.ram = s.dev.ram ∧ u.pending = s.pending ∧
      let x' := { x with inp := inp.val }
      let z := s.c.edgeTicket (s.c.stampPkt x')
      let good := inp.val < 48 → x.pkt.hdrCheck = crc16 x.pkt.hdrBytes ∧ typeOk x.pkt = true ∧ x.pkt.chkSel ≠ 3
      let src := inp.val < 48 → s.c.rd (LNK_CTRL.ROLE inp) = 1 → x.pkt.srcDev = s.c.devNum ∧ x.pkt.srcPort = inp.val
      let dom := inp.val < 48 → z.pkt.exempt = false →
        s.c.rd (DOM_STATE.STATE z.pkt.domain) ≠ 0 ∧ nbit (s.c.rd (DOM_LINKS.LINKS z.pkt.domain)) inp = true
      (s.c.goPass x' = false → u.c.sw = (s.c.setInQ inp rest).sw ∧ u.c.flt = s.c.flt) ∧
      (s.c.goPass x' = true → ¬ (good ∧ src) →
        u.c.rd (LNK_SCREEN.HDR_BAD inp) = min (s.c.rd (LNK_SCREEN.HDR_BAD inp) + 1) 65535 ∧
        (∃ e ∈ u.c.flt.inflight, e.src = Src.HDR_BAD) ∧ u.c.sw = s.c.sw) ∧
      (s.c.goPass x' = true → good → src → ¬ dom →
        u.c.rd SWX_DISCARD.DOMAIN = min (s.c.rd SWX_DISCARD.DOMAIN + 1) 65535 ∧ u.c.sw.out = s.c.sw.out ∧ u.c.sw.rx = s.c.sw.rx ∧
        ∃ e ∈ u.c.flt.inflight, e.src = Src.DOMAIN_VIOLATION) ∧
      (s.c.goPass x' = true → good → src → dom → z.pkt.exempt = false → z.pkt.domain < 64 →
        s.c.bankFor z.pkt.domain z.pkt.epoch = none →
        u.c.rd (SWX_EPOCH.MISMATCH z.pkt.domain) = min (s.c.rd (SWX_EPOCH.MISMATCH z.pkt.domain) + 1) 65535 ∧
        u.c.sw.out = s.c.sw.out ∧ u.c.sw.rx = s.c.sw.rx)) ∧
    (Admitted s.c inp x y rest bank → ∃ u, exec (.packetIngress inp) s = .next u ∧
      let d := s.c.resolve y bank
      (s.c.mustWait y d = true → u = s) ∧
      (s.c.mustWait y d = false →
        (d = .sync → u.c.mer.rx = s.c.mer.rx ++ [y]) ∧
        (d = .control → u.c.rxQ 64 = s.c.rxQ 64 ++ [y]) ∧
        (∀ n, d = .slice n → ¬ (y.pkt.typ = Typ.ZENITH ∧ inp.val < 48) → s.c.sliceOn n = true → u.c.rxQ n = s.c.rxQ n ++ [y]) ∧
        (∀ n, d = .slice n → ¬ (y.pkt.typ = Typ.ZENITH ∧ inp.val < 48) → s.c.sliceOn n = false →
          u.c.rd (SWX_FLUSH.PACKETS (48 + n)) = (s.c.rd (SWX_FLUSH.PACKETS (48 + n)) + 1) % 2 ^ 32 ∧ u.c.sw.rx = s.c.sw.rx) ∧
        (∀ l, d = .egress l → schedVc y.pkt.vc = false → ¬ (y.pkt.typ = Typ.ZENITH ∧ inp.val < 48) →
          (u.c.outSt l).q = (s.c.outSt l).q ++ [{ pkt := y.pkt.seal, inp := y.inp, slotIn := s.c.slots, chkOk := y.chkOk }]) ∧
        (∀ code, d = .no code → u.c.rd SWX_DISCARD.UNROUTABLE = min (s.c.rd SWX_DISCARD.UNROUTABLE + 1) 65535 ∧
          u.c.sw.out = s.c.sw.out ∧ u.c.sw.rx = s.c.sw.rx ∧ ∃ e ∈ u.c.flt.inflight, e.src = Src.UNROUTABLE)))

/-- A packet has left on a link: it is on the wire, in a block kept for replay (R123, R107). -/
structure LeftOn (s u : State) (l : Nat) (p : Pkt) : Prop where
  sent : u.c.sent = .packet l p :: s.c.sent
  stored : (u.c.link l).stored = (s.c.link l).stored ++ [{ bseq := (s.c.link l).txBseq, pkts := [p] }]
  next : (u.c.link l).txBseq = ((s.c.link l).txBseq + 1) % 65536
  queue : (u.c.outSt l).q = (s.c.outSt l).q
  ram : u.dev.ram = s.dev.ram

/-- R103, R123, R133, R134, R139, R141, R149, R337: an output sends its Zenith flit first, then at each
packet boundary the oldest in-slot scheduled packet; the egress of an UP link sends what was chosen, poisoned
where its buffer, its payload check or its ingress failed; draining ends when its count is zero after the
hold, or at the limit; GO needs the device number to have been written; CLEAR zeroes the Zenith counters.
Rests in part on the model's own choices (log entry 62). -/
def Obligations.SwitchEgress : Prop :=
  ∀ (s : State) (l : Fin 48) (d : Fin 64) (rt : Route) (v : W64),
    (∃ u, exec (.outputArbitration l) s = .next u ∧ u.dev.ram = s.dev.ram ∧ u.pending = s.pending ∧ (∀ a, u.c.word a = s.c.word a) ∧
      let o := s.c.outSt l;
      (∀ z, o.zcur = none → o.head 5 = some z → s.c.hasCredit l z.pkt = true → (u.c.outSt l).zcur = some z) ∧
      (∀ z, o.zcur = some z → (u.c.outSt l).zcur = some z) ∧
      (∀ x, o.cur = some x → (u.c.outSt l).cur = some x) ∧
      (∀ x, o.cur = none → s.c.inSlotPick o = some x → (u.c.outSt l).cur = some x)) ∧
    (∀ err, ∃ u, exec (.egressStart l err) s = .next u ∧
      let o := s.c.outSt l
      let out (x : OutPkt) : Pkt := { x.pkt with
        poison := x.pkt.poison || (x.chkOk && !x.pkt.chkGood) || decide (err = .ue) || !x.chkOk };
      (s.c.bit (LNK_STATUS.UP l) = false ∨ s.c.replayFull l = true → u = s) ∧
      (s.c.bit (LNK_STATUS.UP l) = true → s.c.replayFull l = false →
        (∀ z, o.zcur = some z → LeftOn s u l (out z) ∧ (u.c.outSt l).zcur = none ∧ (u.c.outSt l).cur = o.cur) ∧
        (∀ x, o.zcur = none → o.cur = some x → LeftOn s u l (out x) ∧ (u.c.outSt l).cur = none) ∧
        (o.zcur = none → o.cur = none → u = s))) ∧
    (s.c.drainDue d = false → exec (.drainEnd d) s = .next s) ∧
    (s.c.drainDue d = true → ∃ u, exec (.drainEnd d) s = .next u ∧ u.dev.ram = s.dev.ram ∧
      u.c.bit (SWX_EPOCH.DRAINING d) = false ∧ u.c.rd (SWX_EPOCH.DRAIN_COUNT d) = 0 ∧
      u.c.rd (SWX_EPOCH.DRAIN_SLOTS d) = min (s.c.slots - tblGet (fun _ => 0) s.c.sw.drainFrom d) 65535) ∧
    (let late := s.c.bit (SWX_EPOCH.DRAINING d) = true ∧ s.c.drainDue d = false ∧
        tblGet (fun _ => 0) s.c.sw.drainFrom d + max 16 (s.c.rd SWX_CTRL.DRAIN_LIMIT) ≤ s.c.slots;
      (¬ late → exec (.drainStuck d) s = .next s) ∧
      (late → ∃ u, exec (.drainStuck d) s = .next u ∧ u.dev.ram = s.dev.ram ∧ u.c.bit (SWX_EPOCH.DRAINING d) = false ∧
        ∃ e ∈ u.c.flt.inflight, e.src = Src.DRAIN_STUCK ∧ e.subj.domain = some d.val)) ∧
    (∃ u, exec (.swxGo rt v) s = .next u ∧ u.dev.ram = s.dev.ram ∧
      (s.c.bit SWX_CTRL.DEV_SET = true → u.c.sw.go = true) ∧
      (s.c.bit SWX_CTRL.DEV_SET = false → u.c.sw.go = s.c.sw.go ∧ ∃ e ∈ u.c.flt.inflight, e.src = Src.REG_REFUSED) ∧
      (s.c.sw.go = false → u.c.devNum = getFld v 0 12 ∧ u.c.bit SWX_CTRL.DEV_SET = true) ∧
      (s.c.sw.go = true → u.c.devNum = s.c.devNum)) ∧
    (∃ u, exec (.zenithClear rt v) s = .next u ∧ u.dev.ram = s.dev.ram ∧ u.c.rd SWX_ZENITH.BUSY = 0 ∧
      u.c.rd SWX_ZENITH.MAX_WAIT = 0 ∧ ∀ a, a ≠ SWX_ZENITH.addr → u.c.word a = s.c.word a)

/-! ## Transport -/

/-- A packet has been offered to the switch by an endpoint. -/
def Offered (u : State) (e : Nat) (p : Pkt → Prop) : Prop := ∃ q ∈ u.c.inQ (epInput e), p q.pkt

/-- A transaction of an endpoint has completed with a status and its data, and waits for its issuer. -/
structure Finished (s u : State) (t : Txn) (code : Nat) (data : List Byte) : Prop where
  gone : u.c.net.txns = dropFirst (fun x => x = t) s.c.net.txns
  told : u.c.net.done = s.c.net.done ++ [{ ep := t.ep, req := t.req, code := code, data := data }]

/-- A reply that matches no open transaction is discarded and counted in DUPLICATE of its link. -/
structure Counted (s u : State) (x : InPkt) (f : Nat → FRef) : Prop where
  net : u.c.net.txns = s.c.net.txns ∧ u.c.net.done = s.c.net.done
  count : x.inp < 48 → u.c.rd (f x.inp) = min (s.c.rd (f x.inp) + 1) 65535
  words : ∀ a, (∀ l, l < 48 → a ≠ LNK_SCREEN.addr l) → u.c.word a = s.c.word a

/-- R114-R116: a good reply completes its transaction with its code and payload; one that matches none is
counted. A NACK completes its transaction with its code; with LINK_LOST the request goes out once more on
the alternate egress, with REISSUE set and a new timer, or completes with LINK_LOST and REISSUE_FAIL. When
the timer expires the transaction completes with TIMEOUT and E2E_TIMEOUT is raised. -/
def RepliesRules : Prop :=
  ∀ (s : State) (ep : Endpoint) (x : InPkt) (rest : List InPkt),
    let e := epIndex ep;
    (∀ i typ, (i, typ) ∈ [(Instr.readRsp ep, Typ.READ_RSP), (Instr.mgmtRsp ep, Typ.MGMT_RSP)] →
      (s.c.rxQ e = [] → exec i s = .next s) ∧
      (s.c.rxQ e = x :: rest → x.pkt.typ ≠ typ → exec i s = .next s) ∧
      (s.c.rxQ e = x :: rest → x.pkt.typ = typ → ∃ u, exec i s = .next u ∧ u.dev.ram = s.dev.ram ∧ u.pending = s.pending ∧
        u.c.rxQ e = rest ∧
        (x.pkt.poison = true ∨ x.pkt.chkGood = false → u.c.net = s.c.net ∧ ∀ a, u.c.word a = s.c.word a) ∧
        (x.pkt.poison = false → x.pkt.chkGood = true →
          (∀ t, s.c.txnOf e x.pkt = some t → Finished s u t x.pkt.code x.pkt.payload ∧ ∀ a, u.c.word a = s.c.word a) ∧
          (s.c.txnOf e x.pkt = none → Counted s u x LNK_SCREEN.DUPLICATE)))) ∧
    (s.c.rxQ e = x :: rest → x.pkt.typ = Typ.NACK → ∃ u, exec (.nack ep) s = .next u ∧ u.dev.ram = s.dev.ram ∧ u.pending = s.pending ∧
      u.c.rxQ e = rest ∧
      (s.c.txnOf e x.pkt = none → Counted s u x LNK_SCREEN.DUPLICATE) ∧
      (∀ t, s.c.txnOf e x.pkt = some t →
        (x.pkt.code ≠ St.LINK_LOST → Finished s u t x.pkt.code [] ∧ ∀ a, u.c.word a = s.c.word a) ∧
        (x.pkt.code = St.LINK_LOST → t.reissued = true → x.pkt.reissue = false → u.c.net = s.c.net ∧ u.c.inQ (epInput e) = s.c.inQ (epInput e)) ∧
        (x.pkt.code = St.LINK_LOST → t.reissued = true → x.pkt.reissue = true →
          Finished s u t St.LINK_LOST [] ∧ ∃ v ∈ u.c.flt.inflight, v.src = Src.REISSUE_FAIL) ∧
        (x.pkt.code = St.LINK_LOST → t.reissued = false → s.c.altEgress t.req = none →
          Finished s u t St.LINK_LOST [] ∧ ∃ v ∈ u.c.flt.inflight, v.src = Src.REISSUE_FAIL) ∧
        (x.pkt.code = St.LINK_LOST → t.reissued = false → (s.c.altEgress t.req).isSome = true → u.c.net.done = s.c.net.done ∧
          (∃ v ∈ u.c.net.txns, v.ep = e ∧ v.reissued = true ∧ v.timer = 50 ∧ v.hop = none ∧ v.req.reissue = true) ∧
          Offered u e (fun p => p.reissue = true ∧ p.stream = t.req.stream ∧ p.alive = t.req.alive ∧ p.opTag = t.req.opTag)))) ∧
    (∀ i, (∃ u, exec (.e2eTimeout ep i) s = .next u ∧ u.dev.ram = s.dev.ram ∧ u.pending = s.pending ∧ (∀ a, u.c.word a = s.c.word a) ∧
      ((s.c.net.txns.filter (fun t => t.ep = e))[i]? = none → u = s) ∧
      (∀ t, (s.c.net.txns.filter (fun t => t.ep = e))[i]? = some t → Finished s u t St.TIMEOUT [] ∧
        ∃ v ∈ u.c.flt.inflight, v.src = Src.E2E_TIMEOUT ∧ v.subj.port = some (epPort e)))) ∧
    (∀ key, ∃ u, exec (.streamEntryExpiry ep key) s = .next u ∧ u.dev.ram = s.dev.ram ∧ u.pending = s.pending ∧
      (∀ a, u.c.word a = s.c.word a) ∧ u.c.net.txns = s.c.net.txns ∧ (∀ f, f ≠ e → u.c.aliveOf f = s.c.aliveOf f) ∧
      ∀ a, a ∈ u.c.aliveOf e ↔ a ∈ s.c.aliveOf e ∧
        ¬ (a.dev = key.dev.toNat ∧ a.port = key.port.toNat ∧ a.stream = key.stream.toNat ∧ a.last + 65536 ≤ s.c.slots))

/-- R110-R113: the alive screen of a tracked WRITE or READ_REQ. A seen value within the window is a
duplicate: it has no effect and is answered from the reply cache, or with DUPLICATE. A value further back
is stale. A value ahead moves H there. With no entry free, a new key is answered NO_SLOT. -/
def AliveScreenRules : Prop :=
  ∀ (s : State) (ep : Endpoint) (i : Instr) (typ : Nat) (x : InPkt) (rest : List InPkt),
    (i, typ) ∈ [(Instr.writeC ep, Typ.WRITE), (Instr.readReq ep, Typ.READ_REQ)] →
    s.c.rxQ (epIndex ep) = x :: rest → x.pkt.typ = typ → x.pkt.stream ≠ 0 →
    let e := epIndex ep
    let delta (a : AliveEnt) : Nat := (x.pkt.alive + 65536 - a.h % 65536) % 65536
    let back (a : AliveEnt) : Nat := (65536 - delta a) % 65536
    let cached (r : CachedReply) : Bool :=
      r.dev = x.pkt.srcDev && r.port = x.pkt.srcPort && r.stream = x.pkt.stream && r.alive = x.pkt.alive;
    ∃ u, exec i s = .next u ∧ u.pending = s.pending ∧
      (∀ a, (s.c.aliveOf e).find? (AliveEnt.is x.pkt) = some a →
        (¬ (1 ≤ delta a ∧ delta a ≤ 32767) → back a ≤ 4095 → nbit a.seen (back a) = true →
          u.dev.ram = s.dev.ram ∧ (x.inp < 48 → u.c.rd (LNK_SCREEN.DUPLICATE x.inp) = min (s.c.rd (LNK_SCREEN.DUPLICATE x.inp) + 1) 65535) ∧
          (x.pkt.isRequest = true → ∀ r, (s.c.cacheOf e).find? cached = some r → Offered u e (fun p => p = r.rsp.form)) ∧
          (x.pkt.isRequest = true → (s.c.cacheOf e).find? cached = none →
            Offered u e (fun p => p.typ = Typ.NACK ∧ p.code = St.DUPLICATE ∧ p.alive = x.pkt.alive ∧ p.stream = x.pkt.stream))) ∧
        (32767 < delta a → 4095 < back a →
          u.dev.ram = s.dev.ram ∧ (x.inp < 48 → u.c.rd (LNK_SCREEN.STALE x.inp) = min (s.c.rd (LNK_SCREEN.STALE x.inp) + 1) 65535) ∧
          (∃ v ∈ u.c.flt.inflight, v.src = Src.ALIVE_STALE) ∧
          (x.pkt.isRequest = true → Offered u e (fun p => p.typ = Typ.NACK ∧ p.code = St.STALE ∧ p.alive = x.pkt.alive))) ∧
        (1 ≤ delta a → delta a ≤ 32767 → x.pkt.poison = true → x.pkt.chkGood = true → u.dev.ram = s.dev.ram ∧
          ∃ b ∈ u.c.aliveOf e, AliveEnt.is x.pkt b = true ∧ b.h = x.pkt.alive % 65536 ∧ nbit b.seen 0 = false ∧ nbit b.prog 0 = false)) ∧
      ((s.c.aliveOf e).find? (AliveEnt.is x.pkt) = none → aliveCap e ≤ (s.c.aliveOf e).length →
        u.dev.ram = s.dev.ram ∧ u.c.aliveOf e = s.c.aliveOf e ∧ Offered u e (fun p => p.typ = Typ.NACK ∧ p.code = St.NO_SLOT))

/-- R110-R116: the alive screen at ingress, and the replies that end a request.
Rests in part on the model's own choices (log entries 45, 65). -/
def Obligations.RequestsAndReplies : Prop := RepliesRules ∧ AliveScreenRules

/-- The packet at the head of an endpoint's receive queue has passed the alive screen, and its tail is
good: `c` is the device with the value marked seen (R111, R112). -/
structure Taken (s : State) (e typ : Nat) (x : InPkt) (rest : List InPkt) (c : Ctl) : Prop where
  head : s.c.rxQ e = x :: rest
  type : x.pkt.typ = typ
  fresh : ((s.c.setRxQ e rest).screen e x).1.accepted = true
  good : x.pkt.poison = false ∧ (typ = Typ.WRITE → x.pkt.chkGood = true)
  after : c = ((s.c.setRxQ e rest).screen e x).2.tailDone e x.pkt true

/-- R102, R190, R271, R272: a WRITE that has passed its checks stores its payload where the domain window
places it, and no other byte changes; it is refused DENIED outside the allocation, in a window that packets
do not write, in PARAM or STATE unless the store is IDLE or PAUSED, and at the control dies. With ACK_REQ a
READ_RSP answers. -/
def WritePacketsRules : Prop :=
  ∀ (s : State) (n : Fin 64) (x : InPkt) (rest : List InPkt) (c : Ctl),
    (∀ ep, s.c.rxQ (epIndex ep) = [] → exec (.writeC ep) s = .next s) ∧
    (∀ ep, s.c.rxQ (epIndex ep) = x :: rest → x.pkt.typ ≠ Typ.WRITE → exec (.writeC ep) s = .next s) ∧
    (Taken s 64 Typ.WRITE x rest c → ∃ u, exec (.writeC .control) s = .next u ∧ u.dev.ram = s.dev.ram ∧ u.pending = s.pending ∧
      Offered u 64 (fun p => p.typ = Typ.NACK ∧ p.code = St.DENIED ∧ p.alive = x.pkt.alive)) ∧
    (Taken s n Typ.WRITE x rest c → x.pkt.addr < colPage →
      let dom := c.domOf n
      let p := x.pkt
      let w := winOf p.addr
      let out := ∃ i, i < p.payload.length ∧ c.loc dom (p.addr + i) = .out
      let shut := w = 1 ∨ w = 2 ∨ w = 3 ∨ ((w = 0 ∨ (4 ≤ w ∧ w < 8)) ∧ c.storeState dom ≠ 1 ∧ c.storeState dom ≠ 5);
      ∃ v : State, exec (.writeC (.slice n)) s = .next { dev := v.dev.pump n, pending := s.pending } ∧
        v.dev.ram.staging = s.dev.ram.staging ∧
        (c.inSafe = true ∨ (p.payload ≠ [] ∧ (out ∨ shut)) → v.dev.ram = s.dev.ram ∧
          Offered v n (fun q => q.typ = Typ.NACK ∧ q.code = St.DENIED ∧ q.alive = p.alive)) ∧
        (c.inSafe = false → ¬ out → ¬ shut →
          (∀ i a, i < p.payload.length → 8 ≤ w → c.loc dom (p.addr + i) = .dram a → c.daDropped a = false →
            v.dev.ram.dramByte a = p.payload.getD i 0) ∧
          (∀ a, (∀ i, i < p.payload.length → c.loc dom (p.addr + i) ≠ .dram a ∧
              (∀ b, c.loc dom (p.addr + i) ≠ .half a b) ∧ (∀ b, c.loc dom (p.addr + i) ≠ .half (a - 1) b)) →
            v.dev.ram.dramByte a = s.dev.ram.dramByte a) ∧
          (p.ackReq = true → Offered v n (fun q => q.typ = Typ.READ_RSP ∧ q.code = St.OK ∧ q.alive = p.alive ∧
            q.stream = p.stream ∧ q.opTag = p.opTag ∧ q.payload = []))))

/-- R102, R175, R271, R272: a READ_REQ that has passed its checks is answered by a READ_RSP with the bytes
of the domain window, by a NACK with BAD_PARAM where CONTRIB is not 1 to 512, DENIED outside the
allocation, BUSY without a committed copy; at the ticket address of its domain's home slice it draws the
next ticket; the control dies refuse it. Memory does not change. -/
def ReadPacketsRules : Prop :=
  ∀ (s : State) (n : Fin 64) (x : InPkt) (rest : List InPkt) (c : Ctl),
    (∀ ep, s.c.rxQ (epIndex ep) = [] → exec (.readReq ep) s = .next s) ∧
    (∀ ep, s.c.rxQ (epIndex ep) = x :: rest → x.pkt.typ ≠ Typ.READ_REQ → exec (.readReq ep) s = .next s) ∧
    (Taken s 64 Typ.READ_REQ x rest c → ∃ u, exec (.readReq .control) s = .next u ∧ u.dev.ram = s.dev.ram ∧ u.pending = s.pending ∧
      Offered u 64 (fun p => p.typ = Typ.NACK ∧ p.code = St.DENIED ∧ p.alive = x.pkt.alive)) ∧
    (Taken s n Typ.READ_REQ x rest c → ∃ u, exec (.readReq (.slice n)) s = .next u ∧ u.dev.ram = s.dev.ram ∧ u.pending = s.pending ∧
      let dom := c.domOf n
      let p := x.pkt
      let locs := c.winLocs dom p.addr (16 * p.contrib)
      let nacked (code : Nat) : Prop := Offered u n (fun q => q.typ = Typ.NACK ∧ q.code = code ∧ q.alive = p.alive ∧ q.stream = p.stream)
      let answered (bs : List Byte) : Prop := Offered u n (fun q => q.typ = Typ.READ_RSP ∧ q.code = St.OK ∧ q.alive = p.alive ∧
        q.stream = p.stream ∧ q.opTag = p.opTag ∧ q.payload = bs)
      let home := c.bit (COL_TICKET.HOME dom) = true ∧ c.rd (COL_TICKET.HOME_SLICE dom) = n.val;
      (p.addr = colPage + 0x8000 → p.contrib = 1 → home →
        answered (toBytes 16 (0x200_0000 + c.rd (COL_TICKET.NEXT dom))) ∧
        u.c.rd (COL_TICKET.NEXT dom) = (c.rd (COL_TICKET.NEXT dom) + 1) % 2 ^ 25) ∧
      (p.addr = colPage + 0x8000 → ¬ home → nacked St.NOT_FOUND) ∧
      (p.addr ≠ colPage + 0x8000 → p.contrib < 1 ∨ 512 < p.contrib → nacked St.BAD_PARAM) ∧
      (p.addr < colPage → 1 ≤ p.contrib → p.contrib ≤ 512 →
        (c.inSafe = true ∨ locs.contains .out = true → nacked St.DENIED) ∧
        (c.inSafe = false → locs.contains .out = false → locs.contains .busy = true → nacked St.BUSY) ∧
        (c.inSafe = false → locs.contains .out = false → locs.contains .busy = false →
          answered ((List.range (16 * p.contrib)).map (fun i => ({ ctl := c, ram := s.dev.ram : Dev }.winByte dom (p.addr + i)).1)))))

/-- R102, R175, R190, R271, R272: WRITE and READ_REQ packets at their endpoint.
Rests in part on the model's own choices (log entry 64). -/
def Obligations.MemoryPackets : Prop := WritePacketsRules ∧ ReadPacketsRules

/-! ## Collective operations -/

/-- A packet of an operation at the head of a slice's receive queue has passed the alive screen with a
good tail: `c` is the device as Table COL-4 meets it, `k` the operation's key. -/
structure AtTable (s : State) (n typ : Nat) (x : InPkt) (rest : List InPkt) (c : Ctl) (k : Nat) : Prop where
  head : s.c.rxQ n = x :: rest
  type : x.pkt.typ = typ
  here : ¬ (s.c.twinState n = Tws.STANDBY ∧ typ ≠ Typ.MCAST)
  fresh : ((s.c.setRxQ n rest).screen n x).1.accepted = true
  good : x.pkt.poison = false ∧ x.pkt.chkGood = true
  after : c = ((s.c.setRxQ n rest).screen n x).2
  key : k = opKey n (x.pkt.opTag % 512)

/-- The packet is answered by a NACK with a code, its value is left unseen, and no operation changes. -/
structure TurnedAway (c : Ctl) (v : State) (n : Nat) (x : InPkt) (code : Nat) : Prop where
  ops : v.c.ops = c.ops
  nack : Offered v n (fun p => p.typ = Typ.NACK ∧ p.code = code ∧ p.alive = x.pkt.alive ∧ p.stream = x.pkt.stream ∧ p.chunk = x.pkt.chunk)

/-- R158, R454: a CONTRIB or MCAST packet goes through Table COL-4 in the order of its rows.
Rests in part on the model's own choices (log entry 39). -/
def Obligations.CollectiveInputs : Prop :=
  ∀ (s : State) (n : Fin 64) (i : Instr) (typ : Nat) (x : InPkt) (rest : List InPkt),
    (i, typ) ∈ [(Instr.contrib n, Typ.CONTRIB), (Instr.mcast n, Typ.MCAST)] →
    (s.c.rxQ n = [] → exec i s = .next s) ∧
    (s.c.rxQ n = x :: rest → x.pkt.typ ≠ typ → exec i s = .next s) ∧
    (s.c.rxQ n = x :: rest → x.pkt.typ = Typ.CONTRIB → typ = Typ.CONTRIB → s.c.twinState n = Tws.STANDBY →
      ∃ v : State, exec i s = .next { dev := v.dev.afterInput n x.pkt, pending := s.pending } ∧ v.dev.ram = s.dev.ram ∧
        v.c.ops = s.c.ops ∧ v.c.net = s.c.net ∧
        (s.c.tw.nackDoms.contains x.pkt.domain = true → Offered v n (fun p => p.typ = Typ.NACK ∧ p.code = St.LINK_LOST)) ∧
        (s.c.tw.nackDoms.contains x.pkt.domain = false →
          v.c.rd TWN_COUNT.DISCARDED = min (s.c.rd TWN_COUNT.DISCARDED + 1) (2 ^ TWN_COUNT.DISCARDED.w - 1))) ∧
    ∀ c k, AtTable s n typ x rest c k →
      ∃ v : State, exec i s = .next { dev := v.dev.afterInput n x.pkt, pending := s.pending } ∧ v.dev.ram = s.dev.ram ∧ v.c.rxQ n = rest ∧
        let p := x.pkt
        let row2 := c.opState k = 3 ∧ (c.opDesc k).ticket = p.ticket
        let row5 := typ = Typ.CONTRIB ∧ p.contrib ≠ 0xFFF ∧
          (c.opOf k).isExcluded (p.contrib - (c.opDesc k).cbase) p.chunk = true ∧ (c.chunkOf k p.chunk).summed = true
        let pass := ¬ row2 ∧ c.tagUnknown k p = false ∧ c.fieldsBad k p = false ∧ c.alreadyHeld k p = false ∧ ¬ row5
        let win := if x.inp < 48 then (c.windowKey n (k % 512) x.inp p.chunk).bind (fun f => (c.opOf k).window x.inp f) else none
        let limit := (((c.opOf k).senders.find? (fun e => e.dev = p.srcDev && e.port = p.srcPort)).map (fun e => e.limit)).getD
          ((c.opDesc k).window - 1);
        (row2 → TurnedAway c v n x (c.rd (COL_DESC_STATUS.CODE n (p.opTag % 512)))) ∧
        (¬ row2 → c.tagUnknown k p = true → TurnedAway c v n x St.NOT_FOUND ∧
          v.c.rd COL_STAT.UNKNOWN_TAG = min (c.rd COL_STAT.UNKNOWN_TAG + 1) (2 ^ COL_STAT.UNKNOWN_TAG.w - 1)) ∧
        (¬ row2 → c.tagUnknown k p = false → c.fieldsBad k p = true → TurnedAway c v n x St.BAD_PARAM) ∧
        (¬ row2 → c.tagUnknown k p = false → c.fieldsBad k p = false → c.alreadyHeld k p = true →
          v.c.ops = c.ops ∧ v.c.rd COL_STAT.DUP = min (c.rd COL_STAT.DUP + 1) (2 ^ COL_STAT.DUP.w - 1) ∧
          ∃ e ∈ v.c.flt.inflight, e.src = Src.COL_DUP) ∧
        (¬ row2 → c.tagUnknown k p = false → c.fieldsBad k p = false → c.alreadyHeld k p = false → row5 →
          v.c.ops = c.ops ∧ v.c.rd COL_STAT.LATE = min (c.rd COL_STAT.LATE + 1) (2 ^ COL_STAT.LATE.w - 1)) ∧
        (pass → (c.opOf k).sched = true → win = some none → v.c.alreadyHeld k p = true) ∧
        (pass → (c.opOf k).sched = true → win ≠ some none → (c.requestBuf (4 * n.val + 1) p.payload.length).1 = false →
          TurnedAway c v n x St.NO_SLOT ∧ ∃ e ∈ v.c.flt.inflight, e.src = Src.COL_NO_SLOT) ∧
        (pass → (c.opOf k).sched = false → p.chunk ≤ limit → v.c.alreadyHeld k p = true) ∧
        (pass → (c.opOf k).sched = false → limit < p.chunk → v.c.alreadyHeld k p = false ∧
          Offered v n (fun q => q.typ = Typ.NACK ∧ q.code = St.BUSY ∧ q.alive = p.alive))

/-- R161, R162, R164: a node of the tree whose present children are both complete, while the operation may
use the tree, becomes left + right in FP32; the hop of a chunk at a position that is not its owner leaves
the partial to be sent: the incoming partial plus the edge sum, the one there is where the other is absent,
and +0 where the start has no leaf. What may be sent then is sent.
Rests in part on the model's own choices (log entry 44). -/
def Obligations.TreeAndHop : Prop :=
  ∀ (s : State) (n : Fin 64) (i : Fin 512) (c l m : Nat),
    let k := opKey n i
    let de := s.c.opDesc k
    let st := s.c.strict (s.c.domOf n)
    let start := (de.owner c + 1) % max 1 de.ringN
    let live := s.c.opOpen k = true ∧ c < de.chunks ∧ (s.c.chunkOf k c).stuck = false;
    ∃ v : State, exec (.treeNodeComplete n i c l m) s = .next { dev := v.dev.pump n, pending := s.pending } ∧
      (¬ live → v.dev = s.dev) ∧
      (live → 1 ≤ l → l ≤ 5 → s.dev.treeFree k c = true → ∀ a b, s.c.nodeReady k c l m = some (a, b) →
        v.dev.ram = s.dev.ram ∧ (∀ x, v.c.word x = s.c.word x) ∧
        v.c.chunkOf k c = { s.c.chunkOf k c with
          nodes := tblPut (fun _ => none) (s.c.chunkOf k c).nodes (l * 32 + m) (some (List.zipWith (fadd st) a b)) }) ∧
      (live → l ≤ 5 → s.dev.treeFree k c = false ∨ s.c.nodeReady k c l m = none → v.dev = s.dev) ∧
      (live → l = 6 → s.dev.treeFree k c = true → [1, 3, 4].contains de.kind = true → (s.c.chunkOf k c).summed = false →
        1 < de.ringN → de.owner c ≠ de.ringPos → ∀ e p, s.dev.edgeSum k c = some (e, p) →
        (de.ringPos = start → v.c.opOpen k = true ∧ (v.c.chunkOf k c).summed = true ∧
          ∃ o ∈ (v.c.chunkOf k c).outs, o.kind = 0 ∧ o.done = false ∧
            o.bytes = (e.getD (List.replicate de.ce 0)).flatMap (toBytes 4)) ∧
        (∀ a, de.ringPos ≠ start → segAll (s.c.chunkOf k c).part de.ce = some a →
          v.c.opOpen k = true ∧ (v.c.chunkOf k c).summed = true ∧
          ∃ o ∈ (v.c.chunkOf k c).outs, o.kind = 0 ∧ o.done = false ∧
            o.bytes = (match e with | some b => List.zipWith (fadd st) a b | none => a).flatMap (toBytes 4)))

/-- R160, R170: an accepted ZENITH packet is held as its member's leaf, and with the last present leaf the
rounded edge sum goes to every present member; a CREDIT of the open dynamic operation raises what the slice
may send, a lower one is ignored, and the control dies ignore credits.
Rests in part on the model's own choices (log entry 44). -/
def Obligations.ZenithAndCredit : Prop :=
  ∀ (s : State) (n : Fin 64) (x : InPkt) (rest : List InPkt),
    (∀ ep, s.c.rxQ (epIndex ep) = [] → exec (.credit ep) s = .next s) ∧ (s.c.rxQ n = [] → exec (.zenith n) s = .next s) ∧
    (∀ c k, AtTable { s with dev := s.dev.onCtl (fun d => if x.inp < 48 then d.returnCredit x.inp x.pkt else d) } n Typ.ZENITH x rest c k →
      let p := x.pkt
      let d := c.opDesc k;
      c.opState k = 1 → c.tagUnknown k p = false → d.kind = 7 → p.contrib ≠ 0xFFF → c.fieldsBad k p = false →
      d.ce * (fmtOf d.inFmt).bits = 128 * p.len → c.alreadyHeld k p = false →
      ¬ ((c.opOf k).isExcluded (p.contrib - d.cbase) p.chunk = true ∧ (c.chunkOf k p.chunk).summed = true) →
      ∃ v : State, exec (.zenith n) s = .next { dev := v.dev.afterInput n p, pending := s.pending } ∧ v.dev.ram = s.dev.ram ∧
        v.c.alreadyHeld k p = true ∧
        tblGet (fun _ => none) (v.c.chunkOf k p.chunk).zsrc (p.contrib - d.cbase) = some (p.srcDev, p.srcPort, true)) ∧
    (∀ (c : Ctl) (i : Fin 512) (ch j dev port : Nat) (b : Bool) (xs : List Nat),
      let k := opKey n i;
      c.opOpen k = true → (c.opDesc k).kind = 7 → (c.chunkOf k ch).summed = false → j ∈ c.present k ch →
      c.treeSum (c.strict (c.domOf n)) k ch 5 0 = some (some xs) → tblGet (fun _ => none) (c.chunkOf k ch).zsrc j = some (dev, port, b) →
      ∃ q ∈ (c.zenithChunk k ch).inQ (48 + n.val), q.pkt.typ = Typ.ZENITH ∧ q.pkt.dstDev = dev ∧ q.pkt.dstPort = port ∧
        q.pkt.contrib = 0xFFF ∧ q.pkt.chunk = ch ∧ q.pkt.reform = c.chunkReform k ch) ∧
    (s.c.rxQ 64 = x :: rest → x.pkt.typ = Typ.CREDIT → ∃ u, exec (.credit .control) s = .next u ∧ u.dev.ram = s.dev.ram ∧
      u.c.rxQ 64 = rest ∧ u.c.ops = s.c.ops) ∧
    (s.c.rxQ n = x :: rest → x.pkt.typ = Typ.CREDIT →
      ∃ v : State, exec (.credit (.slice n)) s = .next { dev := v.dev.pump n, pending := s.pending } ∧ v.dev.ram = s.dev.ram ∧
        v.c.rxQ n = rest ∧ (∀ a, v.c.word a = s.c.word a) ∧
        let k := opKey n (x.pkt.opTag % 512)
        let its := s.c.opOpen k = true ∧ (s.c.opOf k).sched = false ∧ (s.c.opDesc k).ticket = x.pkt.ticket;
        (its → (v.c.opOf k).succCredit = max (s.c.opOf k).succCredit x.pkt.chunk) ∧ (¬ its → v.c.ops = s.c.ops))

/-- R178-R180: a slice that decides alone excludes the contributors of a chunk that it still lacks and for
which LATE_LIMIT has passed, raising COL_REFORM for each, under POLICY = REFORM; with a late partial
missing, or under POLICY = ABANDON, the operation is abandoned with TIMEOUT.
Rests in part on the model's own choices (log entries 39, 40). -/
def Obligations.MissingMembers : Prop :=
  ∀ (s : State) (n : Fin 64) (i : Fin 512) (c : Nat),
    let k := opKey n i
    let de := s.c.opDesc k
    let due := s.c.opOpen k = true ∧ [1, 3, 4, 7].contains de.kind = true ∧ c < de.chunks ∧ (s.c.chunkOf k c).summed = false
    let part := s.c.missingPart k c && s.c.partLate k c
    let leaves := (s.c.missingLeaves k c).filter (s.c.leafLate k c);
    ∃ v : State, exec (.lateLimitExpiry n i c) s = .next { dev := v.dev.pump n, pending := s.pending } ∧ v.dev.ram = s.dev.ram ∧
      (¬ due → v.dev = s.dev) ∧
      (due → leaves = [] → part = false → v.dev = s.dev) ∧
      (due → s.c.compared n = false → part = true ∨ (leaves ≠ [] ∧ de.reform = false) →
        v.c.opState k = 3 ∧ v.c.rd (COL_DESC_STATUS.CODE n i) = St.TIMEOUT ∧ v.c.opOf k = {} ∧
        ∃ e ∈ v.c.flt.inflight, e.src = Src.COL_ABANDON) ∧
      (due → s.c.compared n = false → part = false → de.reform = true → de.kind ≠ 7 →
        (∀ j l, tblGet (fun _ => none) (s.c.opOf k).linkOf j = some l → l < 48) → ∀ j ∈ leaves,
        (v.c.opOf k).isExcluded j c = true ∧ (v.c.chunkOf k c).reform = true ∧ v.c.bit (COL_DESC_STATUS.REFORMED n i) = true ∧
        ∃ e ∈ v.c.flt.inflight, e.src = Src.COL_REFORM)

/-! ## Mailboxes and management commands -/

/-- The command now executing ends with a reply, with the device otherwise as `v` has it, and the next
commands are checked (R377, R383). -/
structure Replied (s u v : State) (m : MgmtCmd) (r : Reply) : Prop where
  ends : u.c = (v.c.finishCmd m r).advanceCmds
  ram : u.dev.ram = v.dev.ram
  queue : u.pending = s.pending

/-- The same, for a command that leaves the memories as they were. -/
structure RepliedC (s u : State) (c : Ctl) (m : MgmtCmd) (r : Reply) : Prop where
  ends : u.c = (c.finishCmd m r).advanceCmds
  ram : u.dev.ram = s.dev.ram
  queue : u.pending = s.pending

/-- R378-R380, R383, R384: how commands reach their mailboxes, what the checks before an opcode's own answer,
and where replies go. A doorbell is DENIED off the host route and BUSY while its mailbox is; a fabric command
takes a mailbox of its key, or is refused NO_SLOT or BUSY; an I3C write delivers one command.
Rests in part on the model's own choices (log entries 71, 72). -/
def Obligations.Mailboxes : Prop :=
  ∀ (s : State),
    (∀ (rt : Route) (m : Fin 16) (v : W64),
      (rt.val ≠ 0 → ∃ u, exec (.mbxDoorbellGo rt m v) s = .next u ∧ Refused s u rt.val (MBX_DOORBELL.addr m.val) 8 St.DENIED) ∧
      (rt.val = 0 → s.c.bit (MBX_DOORBELL.BUSY m.val) = true → ∃ u, exec (.mbxDoorbellGo rt m v) s = .next u ∧
        u.dev.ram = s.dev.ram ∧ u.c.fw = s.c.fw ∧ u.c.bit (MBX_DOORBELL.BUSY m.val) = true ∧
        ∃ e ∈ u.c.flt.inflight, e.src = Src.REG_REFUSED ∧ e.d4 = MBX_DOORBELL.addr m.val) ∧
      (rt.val = 0 → s.c.bit (MBX_DOORBELL.BUSY m.val) = false → ∃ u, ∃ c : Ctl, exec (.mbxDoorbellGo rt m v) s = .next u ∧
        u.dev.ram = s.dev.ram ∧ c.bit (MBX_DOORBELL.BUSY m.val) = true ∧ c.bit (MBX_DOORBELL.DONE m.val) = false ∧ c.fw = s.c.fw ∧
        u.c = c.submit { route := 0, box := m.val, bytes := s.c.bytes2 (m.val * 0x8000) (getFld v 0 14) })) ∧
    (∀ (x : InPkt) (rest : List InPkt), s.c.rxQ 64 = x :: rest → x.pkt.typ = Typ.MGMT_CMD → pktOpcode x.pkt ≠ 0x60 →
      ((s.c.setRxQ 64 rest).screen 64 x).1.accepted = true → x.pkt.poison = false → x.pkt.chkGood = true →
      (∀ b ∈ s.c.fw.fabric, s.c.elapsed (s.c.mbox b).last 65536 = false) →
      let b := fabricBox x.pkt
      let known := s.c.fw.fabric.contains b;
      ∃ u, exec .mgmtCmd s = .next u ∧ u.dev.ram = s.dev.ram ∧
        (known = false → 64 ≤ s.c.fw.fabric.length →
          Offered u 64 (fun p => p.typ = Typ.NACK ∧ p.code = St.NO_SLOT ∧ p.alive = x.pkt.alive) ∧ u.c.fw = s.c.fw) ∧
        (known = true → 5 ≤ s.c.boxLoad b → Offered u 64 (fun p => p.typ = Typ.NACK ∧ p.code = St.BUSY ∧ p.alive = x.pkt.alive)) ∧
        (known = false → s.c.fw.fabric.length < 64 → s.c.boxLoad b < 5 → ∃ c : Ctl,
          c.fw.fabric = s.c.fw.fabric ++ [b] ∧ c.rd MBX_FABRIC.IN_USE = s.c.fw.fabric.length + 1 ∧ c.fw.queue = s.c.fw.queue ∧
          u.c = c.submit { route := 1, box := b, pkt := x, bytes := x.pkt.payload }) ∧
        (known = true → s.c.boxLoad b < 5 → ∃ c : Ctl, c.fw.fabric = s.c.fw.fabric ∧ c.fw.queue = s.c.fw.queue ∧
          u.c = c.submit { route := 1, box := b, pkt := x, bytes := x.pkt.payload })) ∧
    (∀ key : MboxKey, let b := 32 + key.dev.toNat * 256 + key.port.toNat
      let due := s.c.fw.fabric.contains b = true ∧ s.c.boxLoad b = 0 ∧ (s.c.mbox b).last + 65536 ≤ s.c.slots;
      ∃ u, exec (.mailboxExpiry key) s = .next u ∧ u.dev.ram = s.dev.ram ∧ (¬ due → u = s) ∧
        (due → u.c.fw.fabric = s.c.fw.fabric.filter (fun x => x != b) ∧ u.c.mbox b = {} ∧
          u.c.rd MBX_FABRIC.IN_USE = (s.c.fw.fabric.filter (fun x => x != b)).length % 128)) ∧
    (∀ data, let m : MgmtCmd := { route := 2, box := i3cBox, bytes := data }
      let hello := m.opcode = 0x01 ∨ m.opcode = 0x02
      let version := hello ∨ (m.major = 1 ∧ (s.c.mbox i3cBox).other = false)
      let known := (s.c.mbox i3cBox).cache.find? (fun e => e.1 = m.reqId);
      (s.c.i3c.addr = none → exec (.i3cPrivateWrite data) s = .next s) ∧
      (s.c.i3c.addr.isSome = true → s.c.fw.queue = [] → s.c.servable m = true →
        ∃ u, exec (.i3cPrivateWrite data) s = .next u ∧ u.dev.ram = s.dev.ram ∧ u.pending = s.pending ∧
          let answers (r : Reply) : Prop := u.c.fw.queue = [] ∧ .reply 2 i3cBox (replyBytes (s.c.mbox i3cBox).minor m r) ∈ u.c.sent;
          (m.formOk = false → answers { status := St.BAD_PARAM }) ∧
          (m.formOk = true → ¬ version → answers { status := St.BAD_VERSION }) ∧
          (m.formOk = true → version → ∀ e, known = some e → answers { status := St.DUPLICATE, cached := e.2.1, data := e.2.2 }) ∧
          (m.formOk = true → version → known = none → s.c.diesHeld = true → cirrusOps.contains m.opcode = false →
            answers { status := St.BUSY }) ∧
          (m.formOk = true → version → known = none → s.c.diesHeld = false →
            (opcodeInfo m.opcode = none → answers { status := St.BAD_OPCODE }) ∧
            ∀ cls feat since, opcodeInfo m.opcode = some (cls, feat, since) →
              ((s.c.mbox i3cBox).minor < since → answers { status := St.BAD_OPCODE }) ∧
              (since ≤ (s.c.mbox i3cBox).minor → nbit (s.c.mbox i3cBox).feats feat = false → answers { status := St.UNSUPPORTED }) ∧
              (since ≤ (s.c.mbox i3cBox).minor → nbit (s.c.mbox i3cBox).feats feat = true →
                cls ≠ 0 → nbit (s.c.rd MBX_PERM.I3C) cls = false → answers { status := St.DENIED }) ∧
              (since ≤ (s.c.mbox i3cBox).minor → nbit (s.c.mbox i3cBox).feats feat = true →
                cls = 0 ∨ nbit (s.c.rd MBX_PERM.I3C) cls = true → u.c.fw.queue = [{ m with taken := true }] ∧ u.c.sent = s.c.sent)))) ∧
    (∀ (m : MgmtCmd) (r : Reply), let u := s.c.finishCmd m r
      let bs := replyBytes (s.c.mbox m.box).minor m r;
      (u.mbox m.box).cache.getLast? = some (m.reqId, r.status, r.data.take 16) ∧
      (m.route = 0 → m.box < 16 → bs.length ≤ 0x4000 → u.bytes2 (m.box * 0x8000 + 0x4000) bs.length = bs ∧
        u.bit (MBX_DOORBELL.BUSY m.box) = false ∧ u.bit (MBX_DOORBELL.DONE m.box) = true ∧
        u.rd (MBX_DOORBELL.STATUS m.box) = r.status % 256) ∧
      (m.route = 1 → ∃ q ∈ u.inQ 112, q.pkt.typ = Typ.MGMT_RSP ∧ q.pkt.code = r.status ∧ q.pkt.alive = m.pkt.pkt.alive) ∧
      (2 ≤ m.route → .reply 2 m.box bs ∈ u.sent ∧ (nbit s.c.i3c.events 0 = true → .ibi 1 ∈ u.sent)))

/-- R34, R385-R388, R404: HELLO agrees a minor version and the features of both, or refuses another major;
GET_INFO and SENSOR_READ return their data; SENSOR_WRITE is one sample of a board sensor, from I3C only;
REG_READ and REG_WRITE are the bus access they name, BAD_PARAM where they name none or an Unsupported
Request.
Rests in part on the model's own choices (log entries 9, 85). -/
def Obligations.MgmtInfo : Prop :=
  ∀ (s : State) (m : MgmtCmd),
    (s.c.running 0x01 = some m → ∃ u, ∃ v : Ctl, ∃ r, exec .hello s = .next u ∧ RepliedC s u v m r ∧
      let minor := min 3 (m.par 1 1)
      let feats := m.par 8 8 &&& minorFeats minor;
      (m.plen < 16 → r = { status := St.BAD_PARAM } ∧ v = s.c) ∧
      (16 ≤ m.plen → m.par 0 1 ≠ 1 → r.status = St.BAD_VERSION ∧ r.data = toBytes 8 0x0301 ++ toBytes 8 0x3FF ∧ (v.mbox m.box).other = true) ∧
      (16 ≤ m.plen → m.par 0 1 = 1 → r.status = St.OK ∧ r.data = toBytes 8 (1 + minor * 256) ++ toBytes 8 feats ∧
        (v.mbox m.box).other = false ∧ (v.mbox m.box).minor = minor ∧ (v.mbox m.box).feats = feats)) ∧
    (s.c.running 0x02 = some m → ∃ u r, exec .getInfo s = .next u ∧ RepliedC s u s.c m r ∧ r.status = St.OK ∧ r.data.length = 192 ∧
      r.data.take 8 = toBytes 8 (s.c.rdWord GLB_ID.addr) ∧ (r.data.drop 56).take 8 = toBytes 8 (s.c.rdWord GLB_STATE.addr) ∧
      (s.c.diesHeld = false → ∀ k : Fin 32, r.data.getD (88 + k.val) 0 = BitVec.ofNat 8 (s.c.dieCode k.val)) ∧
      (s.c.diesHeld = false → ∀ n : Fin 64, r.data.getD (120 + n.val) 0 =
        BitVec.ofNat 8 (sliceDie s.c n.val * 4 + s.c.rd (SLC_STATE.QUARTER n.val)))) ∧
    (s.c.running 0x03 = some m → ∃ u r, exec .sensorRead s = .next u ∧ RepliedC s u s.c m r ∧
      let good := m.plen = 4 ∧ m.par 2 2 ≠ 0 ∧ m.par 0 1 + m.par 2 2 ≤ 256 ∧ 32 + 8 * m.par 2 2 ≤ routeLimit m.route;
      (¬ good → r = { status := St.BAD_PARAM }) ∧
      (good → r.status = St.OK ∧ r.data = s.c.wordBytes (CIR_SENSOR.addr (m.par 0 1)) (m.par 2 2))) ∧
    (s.c.running 0x04 = some m → ∃ u, ∃ v : State, ∃ r, exec .sensorWrite s = .next u ∧ Replied s u v m r ∧
      (m.route ≠ 2 → r = { status := St.DENIED } ∧ v.dev = s.dev) ∧
      (m.route = 2 → m.plen ≠ 4 ∨ boardSensor (m.par 0 1) = false → r = { status := St.BAD_PARAM } ∧ v.dev = s.dev) ∧
      (m.route = 2 → m.plen = 4 → boardSensor (m.par 0 1) = true →
        r = { status := St.OK } ∧ v.dev = s.dev.sample (m.par 0 1) (sext 16 (m.par 2 2)))) ∧
    (s.c.running 0x10 = some m → ∃ u, ∃ v : State, ∃ r, exec .regRead s = .next u ∧ Replied s u v m r ∧
      (m.access false = none → r = { status := St.BAD_PARAM } ∧ v.dev = s.dev) ∧
      (∀ bar a n, m.access false = some (bar, a, n) →
        (∀ bs d, s.dev.busRead m.peer bar a n = (some bs, d) → r = { data := bs } ∧ v.dev = d) ∧
        (accKind bar a n true = .unsupported → r = { status := St.BAD_PARAM } ∧
          (∃ e ∈ v.c.flt.inflight, e.src = Src.REG_UNALIGNED ∧ e.d4 = a) ∧ v.c.sent = s.c.sent))) ∧
    (s.c.running 0x11 = some m → ∃ u, ∃ v : State, ∃ r, exec .regWrite s = .next u ∧ Replied s u v m r ∧
      (m.access true = none → r = { status := St.BAD_PARAM } ∧ v.dev = s.dev) ∧
      (∀ bar a n, m.access true = some (bar, a, n) → let bs := (m.params.drop 16).take n;
        (∀ d, s.dev.busWrite m.route bar a bs = (true, d) → r = { status := St.OK } ∧ v.dev = d) ∧
        (accKind bar a bs.length true = .unsupported → r = { status := St.BAD_PARAM } ∧
          (∃ e ∈ v.c.flt.inflight, e.src = Src.REG_UNALIGNED ∧ e.d4 = a) ∧ v.c.sent = s.c.sent)))

/-- R47, R48, R155, R175, R186: BANK_LOAD stores its entries where the bank takes writes, TENSOR_LOAD its
entries while the store is OFF, BANK_CHECK answers what the checks find, DESC_OPEN opens its descriptor,
TICKET_TAKE draws the next ticket at the ticket home.
Rests in part on the model's own choices (log entries 9, 81, 99, 103, 105). -/
def Obligations.MgmtTables : Prop :=
  ∀ (s : State) (m : MgmtCmd),
    (s.c.running 0x30 = some m → ∃ u, ∃ v : Ctl, ∃ r, exec .bankLoad s = .next u ∧ RepliedC s u v m r ∧
      let k := m.par 0 1
      let obj := m.par 1 1
      let n := m.par 2 1
      let body := m.params.drop 8;
      (objectShape obj = none → r = { status := St.BAD_PARAM } ∧ v = s.c) ∧
      ∀ size cap, objectShape obj = some (size, cap) →
        let good := 8 ≤ m.plen ∧ k ≤ 1 ∧ n ≤ 63 ∧ body.length % size = 0 ∧ m.par 4 4 + body.length / size ≤ cap
        let mine := s.c.created m.domain = true ∧ (sliceObject obj = true → s.c.sliceDom n = some m.domain)
        let free := s.c.bankGate (some m.domain) k = St.OK ∧ ¬ (obj = 4 ∧ s.c.imageInUse n k = true);
        (¬ good → r = { status := St.BAD_PARAM } ∧ v = s.c) ∧
        (good → ¬ mine → r = { status := St.DENIED } ∧ v = s.c) ∧
        (good → mine → ¬ free → r = { status := St.BUSY } ∧
          v = if body = [] then s.c else s.c.logRefused m.route (objectAddr obj m.domain n k (m.par 4 4)) 8 St.BUSY) ∧
        (good → mine → free → r = { status := St.OK } ∧
          ((∃ i, i < body.length / size ∧ (obj = 4 → objectAddr obj m.domain n k (m.par 4 4 + i) - imageAddr n k < 0x2_C000)) →
            v.bankValid m.domain k = false) ∧ v.bankValid m.domain (1 - k) = s.c.bankValid m.domain (1 - k) ∧
          ∀ i j, i < body.length / size → j < size →
            (obj = 4 → objectAddr obj m.domain n k (m.par 4 4 + i) - imageAddr n k < 0x2_C000) →
            v.busByte (objectAddr obj m.domain n k (m.par 4 4 + i) + j) = (body.getD (i * size + j) 0).toNat)) ∧
    (s.c.running 0x32 = some m → ∃ u, ∃ v : Ctl, ∃ r, exec .tensorLoad s = .next u ∧ RepliedC s u v m r ∧
      let good := m.params ≠ [] ∧ m.params.length % 32 = 0 ∧ m.target + m.params.length / 32 ≤ 16384;
      (¬ good → r = { status := St.BAD_PARAM } ∧ v = s.c) ∧
      (good → s.c.storeOff m.domain = false → r = { status := St.BUSY } ∧
        v = s.c.logRefused m.route (tensorAddr m.domain m.target) 8 St.BUSY) ∧
      (good → s.c.storeOff m.domain = true → r = { status := St.OK } ∧
        ∀ i, v.busByte (tensorAddr m.domain m.target + i) =
          if i < m.params.length then (m.params.getD i 0).toNat else s.c.busByte (tensorAddr m.domain m.target + i))) ∧
    (s.c.running 0x31 = some m → ∃ u, ∃ v : Ctl, ∃ r, exec .bankCheck s = .next u ∧ RepliedC s u v m r ∧ (v.domMer m.domain).checking = none ∧
      let h : BankHdr := { kind := m.par 1 1, period := m.par 4 4, repeat_ := m.par 8 4, linkUse := m.par 16 8 }
      let wide := decide (3 < h.kind) || decide (2 ^ 24 ≤ h.period) || decide (2 ^ 48 ≤ h.linkUse)
      let c := s.c.setDomMer m.domain { s.c.domMer m.domain with checking := none };
      (m.plen ≠ 24 ∨ 1 < m.par 0 1 → r = { status := St.BAD_PARAM } ∧ v = c) ∧
      (m.plen = 24 → m.par 0 1 ≤ 1 → let q := c.bankCheck m.domain (m.par 0 1) h wide;
        r.status = q.1.status ∧ r.detail = q.1.order % 256 + q.1.slice * 256 ∧ r.detail2 = q.1.idx ∧ v = q.2)) ∧
    (s.c.running 0x40 = some m → ∃ u, ∃ v : State, ∃ r, exec .descOpen s = .next u ∧ Replied s u v m r ∧
      let n := nfld m.target 0 6
      let i := nfld m.target 6 9;
      (m.plen ≠ 64 ∨ 2 ^ 15 ≤ m.target → r = { status := St.BAD_PARAM } ∧ v.dev = s.dev) ∧
      (m.plen = 64 → m.target < 2 ^ 15 → s.c.created m.domain = false ∨ s.c.sliceDom n ≠ some m.domain →
        r = { status := St.DENIED } ∧ v.dev = s.dev) ∧
      (m.plen = 64 → m.target < 2 ^ 15 → s.c.created m.domain = true → s.c.sliceDom n = some m.domain →
        let d := Desc.of (fun w => m.par (8 * w) 8)
        r.status = s.c.openCheck n i d ∧ ∃ c : Ctl, v.dev = ({ ctl := c, ram := s.dev.ram : Dev }).pump n ∧
          (s.c.openCheck n i d ≠ St.OK → c = s.c) ∧
          (s.c.openCheck n i d = St.OK → c.opState (opKey n i) = 1 ∧ (c.opOf (opKey n i)).sched = false ∧
            c.rd (COL_DESC_STATUS.EPOCH n i) = s.c.epoch (s.c.domOf n) ∧
            ∀ w : Fin 8, c.rdWord (liveDescAddr n i w.val) = m.par (8 * w.val) 8))) ∧
    (s.c.running 0x41 = some m → ∃ u, ∃ v : Ctl, ∃ r, exec .ticketTake s = .next u ∧ RepliedC s u v m r ∧
      (s.c.bit (COL_TICKET.HOME m.domain) = false → r = { status := St.NOT_FOUND } ∧ v = s.c) ∧
      (s.c.bit (COL_TICKET.HOME m.domain) = true → r.status = St.OK ∧
        r.data = toBytes 8 (0x200_0000 + s.c.rd (COL_TICKET.NEXT m.domain)) ∧
        v.rd (COL_TICKET.NEXT m.domain) = (s.c.rd (COL_TICKET.NEXT m.domain) + 1) % 2 ^ 25))

/-! ## Members, firmware and boot -/

/-- R389: MEMBER_EXCLUDE makes a contributor missing from the operations it names and from later ones;
MEMBER_REPLACE, at once or at the step boundary, lifts the exclusion, frees the alive-screen entries of
(own device number, LINK) and zeroes the lateness histogram of LINK.
Rests in part on the model's own choices (log entry 82). -/
def Obligations.MgmtMembers : Prop :=
  ∀ (s : State) (m : MgmtCmd),
    (s.c.running 0x50 = some m →
      let tag := m.par 0 2
      let x := m.par 2 2
      let good := m.plen = 4 ∧ tag ≤ 0x7FFF ∧ x ≤ 4095;
      ∃ u, ∃ v : State, ∃ r, exec .memberExclude s = .next u ∧ Replied s u v m r ∧
        (¬ good → r = { status := St.BAD_PARAM } ∧ v.dev = s.dev) ∧
        (good → r = { status := St.OK } ∧ ∃ c : Ctl, (m.domain, x) ∈ c.opExcl ∧ (∀ e ∈ s.c.opExcl, e ∈ c.opExcl) ∧
          c.ops = s.c.ops ∧ c.bar0 = s.c.bar0 ∧
          v.dev = ((s.c.domainOps m.domain).filter (fun k => tag = 0x7FFF || k = tag)).foldl
            (fun d k => d.operExclude x k) { ctl := c, ram := s.dev.ram })) ∧
    (∀ (x k : Nat), (s.c.opDesc k).cbase ≤ x → x < (s.c.opDesc k).cbase + 32 →
      ∃ c : Ctl, s.dev.operExclude x k = ({ ctl := c, ram := s.dev.ram : Dev }).pump (k / 512) ∧
        x - (s.c.opDesc k).cbase ∈ (c.opOf k).oper) ∧
    (s.c.running 0x51 = some m →
      let r : Replace := { d := m.domain, index := m.par 0 2, link := m.par 2 1, cmd := some m }
      let good := m.plen = 3 ∧ r.link ≤ 47 ∧ r.index ≤ 4095
      let now := s.c.storeState m.domain = 0 ∨ s.c.storeState m.domain = 4 ∨ s.c.storeState m.domain = 5;
      ∃ u, exec .memberReplace s = .next u ∧ u.dev.ram = s.dev.ram ∧ u.pending = s.pending ∧
        (¬ good → u.c = (s.c.finishCmd m { status := St.BAD_PARAM }).advanceCmds) ∧
        (good → ¬ now → u.c.fw.replaces = s.c.fw.replaces ++ [r] ∧ u.c.opExcl = s.c.opExcl) ∧
        (good → now → ∃ c : Ctl, c.fw.replaces = s.c.fw.replaces.filter (fun x => x.d != m.domain) ∧ c.opExcl = s.c.opExcl ∧
          c.bar0 = s.c.bar0 ∧ c.net = s.c.net ∧
          u.c = (((s.c.fw.replaces ++ [r]).filter (fun x => x.d = m.domain)).foldl Ctl.replaceEffect c).advanceCmds)) ∧
    (∀ d : Fin 64, ∃ u, exec (.memberReplaceEffect d) s = .next u ∧ u.dev.ram = s.dev.ram ∧ u.pending = s.pending ∧
      ((∀ r ∈ s.c.fw.replaces, r.d ≠ d.val) → u = s) ∧
      ((∃ r ∈ s.c.fw.replaces, r.d = d.val) → ∃ c : Ctl, c.fw.replaces = s.c.fw.replaces.filter (fun x => x.d != d.val) ∧
        c.opExcl = s.c.opExcl ∧ c.bar0 = s.c.bar0 ∧ c.net = s.c.net ∧
        u.c = ((s.c.fw.replaces.filter (fun x => x.d = d.val)).foldl Ctl.replaceEffect c).advanceCmds)) ∧
    (∀ (r : Replace), let v := s.c.replaceEffect r;
      (r.d, r.index) ∉ v.opExcl ∧ (∀ e ∈ s.c.opExcl, e ≠ (r.d, r.index) → e ∈ v.opExcl) ∧
      (∀ n, n ∈ s.c.slicesOf r.d ∨ n = 64 → ∀ a ∈ v.aliveOf n, ¬ (a.dev = s.c.rd SWX_CTRL.DEV_NUM ∧ a.port = r.link)) ∧
      ((∀ x, r.cmd = some x → x.box < 16) → r.link < 48 → ∀ i : Fin 4, v.rdWord (COL_LATE_HIST.addr r.link i.val) = 0))

/-- R398, R399, R401, R402, R411, R446, R450: FW_STAGE programs the flash, FW_COMMIT checks what is staged
and names it for the next boot; RESET resets the device or restarts the control dies, as a missed kick does;
the boot ROM boots the image that R398 chooses; an unconfirmed image falls back once; the start-up sequence
goes from stage to stage.
Rests in part on the model's own choices (log entries 60, 75, 86, 89). -/
def Obligations.Firmware : Prop :=
  ∀ (s : State) (m : MgmtCmd),
    let running := s.c.rd GLB_BOOT.RUNNING
    let other := 1 - running;
    (s.c.running 0x70 = some m → ∃ u, ∃ v : Ctl, ∃ r, exec .fwStage s = .next u ∧ RepliedC s u v m r ∧
      let o := m.par 0 4
      let data := m.params.drop 8
      let b := if m.target = 0 then imageBase other else configBase
      let z := if m.target = 0 then 0x100_0000 else 0x4_0000
      let good := m.target ≤ 1 ∧ 8 < m.plen ∧ o + data.length ≤ z
      let was (a : Nat) : Byte := if o = 0 ∧ b ≤ a ∧ a < b + z then 0xFF else s.c.flashByte a;
      (¬ good → r = { status := St.BAD_PARAM } ∧ v = s.c) ∧
      (good → r = { status := St.OK } ∧ ∀ a, v.flashByte a =
        if b + o ≤ a ∧ a < b + o + data.length then was a &&& data.getD (a - b - o) 0 else was a)) ∧
    (s.c.running 0x71 = some m → ∃ u, ∃ v : Ctl, ∃ r, exec .fwCommit s = .next u ∧ RepliedC s u v m r ∧
      let fused := nbit m.flags 0 = true
      let min := if fused then max s.c.fuse.svnMin (s.c.hdr running 0x0C 4) else s.c.fuse.svnMin;
      v.flash = s.c.flash ∧ (r.status ≠ St.OK → v = s.c) ∧
      (1 < m.target → r = { status := St.BAD_PARAM }) ∧
      (m.target ≤ 1 → fused → s.c.bit GLB_BOOT.CONFIRM = false → r = { status := St.DENIED }) ∧
      (m.target ≤ 1 → (fused → s.c.bit GLB_BOOT.CONFIRM = true) →
        (m.target = 1 → s.c.scriptGood = false → r = { status := St.BAD_PARAM }) ∧
        (m.target = 1 → s.c.scriptGood = true → r = { status := St.OK } ∧ v.fuse.svnMin = min ∧ v.bar0 = s.c.bar0) ∧
        (m.target = 0 → s.c.imageGood other = false → r = { status := St.BAD_PARAM }) ∧
        (m.target = 0 → s.c.imageGood other = true → s.c.hdr other 0x0C 4 < s.c.fuse.svnMin → r = { status := St.DENIED }) ∧
        (m.target = 0 → s.c.imageGood other = true → s.c.fuse.svnMin ≤ s.c.hdr other 0x0C 4 →
          r = { status := St.OK } ∧ v.rd GLB_BOOT.NEXT = 2 + other ∧ v.fuse.svnMin = min))) ∧
    (s.c.running 0x72 = some m → ∃ u, exec .resetC s = .next u ∧ u.pending = s.pending ∧
      (m.target = 0 → u.dev.ram = {} ∧ u.c.pwr = Pwr.BOOT ∧ u.c.stage = Stg.RESET ∧ u.c.bit CIR_STATUS.MAIN_OK = true ∧
        u.c.ops = [] ∧ u.c.links = [] ∧ u.c.eng = [] ∧ u.c.fw = {} ∧ u.c.flash = s.c.flash ∧ u.c.fuse = s.c.fuse ∧
        (∀ l : Fin 48, u.c.linkState l.val = LanSt.OFF) ∧ ∀ n : Fin 64, u.c.sliceLife n.val = 0) ∧
      (m.target = 1 → u.dev.ram = s.dev.ram ∧ u.c.bit CIR_STATUS.FW_RESTARTING = true ∧ u.c.fw.replaces = [] ∧ m ∈ u.c.fw.cut) ∧
      (1 < m.target → u.dev.ram = s.dev.ram ∧ u.c = (s.c.finishCmd m { status := St.BAD_PARAM }).advanceCmds)) ∧
    (let runs := s.c.fw.up = true ∧ s.c.bit CIR_STATUS.FW_RESTARTING = false;
      ∃ u, exec .fwWatchdog s = .next u ∧ u.dev.ram = s.dev.ram ∧ u.pending = s.pending ∧ (¬ runs → u = s) ∧
      (runs → u.c.bit CIR_STATUS.FW_RESTARTING = true ∧ u.c.rd CIR_STATUS.FW_RESTARTS = min (s.c.rd CIR_STATUS.FW_RESTARTS + 1) 65535 ∧
        (s.c.unpowered = false → ∃ e ∈ u.c.flt.inflight, e.src = Src.FW_WATCHDOG) ∧ ∀ x ∈ u.c.fw.queue, x.taken = false)) ∧
    (∃ u, exec .restartComplete s = .next u ∧ u.dev.ram = s.dev.ram ∧ u.pending = s.pending ∧
      (s.c.bit CIR_STATUS.FW_RESTARTING = false → u = s) ∧
      (s.c.bit CIR_STATUS.FW_RESTARTING = true →
        u.c.bit CIR_STATUS.FW_RESTARTING = false ∧ u.c.fw.cut = [] ∧ u.c.fw.up = !s.c.fw.rom)) ∧
    (∃ u, exec .bootRom s = .next u ∧ u.dev.ram = s.dev.ram ∧ u.pending = s.pending ∧
      let goes := s.c.boot.choose = true ∧ s.c.diesHeld = false
      let next := s.c.rd GLB_BOOT.NEXT
      let named := 2 ≤ next ∧ s.c.imageValid (next - 2) = true
      let boots (slot : Nat) : Prop := u.c.rd GLB_BOOT.RUNNING = slot ∧ u.c.rd GLB_BOOT.VERSION = s.c.hdr slot 8 4 ∧
        u.c.rd GLB_DET_SIG.LIB_MAJOR = s.c.hdr slot 0x14 1 ∧ u.c.rd GLB_DET_SIG.LIB_MINOR = s.c.hdr slot 0x15 1 ∧
        u.c.fw.up = true ∧ u.c.fw.rom = false;
      (¬ goes → u = s) ∧
      (goes → named → boots (next - 2) ∧ u.c.rd GLB_BOOT.NEXT = 0) ∧
      (goes → ¬ named → s.c.imageValid 0 = false → s.c.imageValid 1 = false →
        u.c.stage = Stg.NO_IMAGE ∧ u.c.fw.up = false ∧ u.c.fw.rom = true) ∧
      (goes → ¬ named → s.c.imageValid 0 = true → s.c.imageValid 1 = false → boots 0) ∧
      (goes → ¬ named → s.c.imageValid 0 = false → s.c.imageValid 1 = true → boots 1) ∧
      (goes → ¬ named → s.c.imageValid 0 = true → s.c.imageValid 1 = true → s.c.boot.sel = false →
        (s.c.hdr 1 8 4 < s.c.hdr 0 8 4 → boots 0) ∧ (s.c.hdr 0 8 4 < s.c.hdr 1 8 4 → boots 1)) ∧
      (goes → ¬ named → s.c.imageValid 0 = true → s.c.imageValid 1 = true → s.c.boot.sel = true →
        (s.c.hdr 1 8 4 < s.c.hdr 0 8 4 → boots 1) ∧ (s.c.hdr 0 8 4 < s.c.hdr 1 8 4 → boots 0))) ∧
    (∀ v : W64, ∃ u, exec (.bootConfirm v) s = .next u ∧ u.dev.ram = s.dev.ram ∧ u.pending = s.pending ∧
      u.c.bit GLB_BOOT.CONFIRM = true ∧ ∀ a, a ≠ GLB_BOOT.addr → u.c.word a = s.c.word a) ∧
    (let goes := s.c.fw.up = true ∧ s.c.pwr = Pwr.BOOT ∧ s.c.bit GLB_BOOT.CONFIRM = false;
      ∃ u, exec .bootFallback s = .next u ∧ u.dev.ram = s.dev.ram ∧ u.pending = s.pending ∧ (¬ goes → u = s) ∧
      (goes → s.c.boot.fell = true ∨ s.c.imageValid other = false → u.c.stage = Stg.NO_IMAGE ∧ u.c.fw.up = false ∧ u.c.fw.rom = true) ∧
      (goes → s.c.boot.fell = false → s.c.imageValid other = true → u.c.rd GLB_BOOT.RUNNING = other ∧
        u.c.bit GLB_BOOT.FALLBACK = true ∧ u.c.stage = Stg.VERIFY ∧ u.c.boot.fell = true ∧ u.c.fw.up = true ∧
        ∃ e ∈ u.c.flt.inflight, e.src = Src.BOOT_FALLBACK)) ∧
    (∀ (rt : Route) (v : W64), ∃ u, exec (.fwKick rt v) s = .next u ∧ u.dev.ram = s.dev.ram ∧ u.pending = s.pending ∧
      (rt.val = 1 → Refused s u 1 CIR_CTRL.addr 8 St.DENIED) ∧ (rt.val ≠ 1 → (∀ a, u.c.word a = s.c.word a) ∧ u.c.fw = s.c.fw)) ∧
    (∀ sel, let goes := s.c.pwr = Pwr.BOOT ∧ s.c.stage = Stg.RESET ∧ s.c.bit CIR_STATUS.REF_OK = true ∧ s.c.sensorValid 48 = true ∧
        s.c.sensorValue 48 < sext 16 (s.c.rd (CIR_THRESH.LEVEL 1));
      ∃ u, exec (.controlDieRelease sel) s = .next u ∧ u.dev.ram = s.dev.ram ∧ u.pending = s.pending ∧ (¬ goes → u = s) ∧
        (goes → u.c.stage = Stg.VERIFY ∧ u.c.boot.choose = true ∧ u.c.boot.sel = sel)) ∧
    (∀ ok bad, let goes := s.c.pwr = Pwr.BOOT ∧ s.c.fw.up = true ∧ s.c.bit CIR_STATUS.FW_RESTARTING = false ∧ s.c.bit GLB_STATE.FAIL = false;
      ∃ u, exec (.startUpStep ok bad) s = .next u ∧ u.pending = s.pending ∧ (¬ goes → u = s) ∧
        (goes → s.c.stage = Stg.VERIFY → u.c.stage = Stg.SELF_TEST) ∧
        (goes → s.c.stage = Stg.SELF_TEST → s.c.bit GLB_BOOT.CONFIRM = false → u = s) ∧
        (goes → s.c.stage = Stg.SELF_TEST → s.c.bit GLB_BOOT.CONFIRM = true → ok = false ∨ (∃ k ∈ bad, 30 ≤ k ∧ k < 32) →
          u.c.bit GLB_STATE.FAIL = true ∧ u.c.stage = Stg.SELF_TEST) ∧
        (goes → s.c.stage = Stg.DRAM_TRAIN → u.c.stage = Stg.LINK_TRAIN) ∧
        (goes → s.c.stage = Stg.LINK_TRAIN → s.c.sw.go = false → s.c.bit SWX_CTRL.DEV_SET = false →
          u.c.bit GLB_STATE.FAIL = true ∧ u.c.stage = Stg.LINK_TRAIN ∧ u.c.sw.go = false) ∧
        (goes → s.c.stage = Stg.LINK_TRAIN → s.c.sw.go = true ∨ s.c.bit SWX_CTRL.DEV_SET = true →
          u.c.stage = Stg.MER_ALIGN ∧ u.c.sw.go = true ∧ u.c.mer.goDone = true) ∧
        (goes → s.c.stage = Stg.MER_ALIGN → s.c.alignBlocked = true → u.c.bit GLB_STATE.FAIL = true ∧ u.c.stage = Stg.MER_ALIGN) ∧
        (goes → s.c.stage = Stg.MER_ALIGN → s.c.alignBlocked = false → s.c.aligned = true → u.c.stage = Stg.TWIN_HANDSHAKE) ∧
        (goes → s.c.stage = Stg.TWIN_HANDSHAKE → u.c.stage = Stg.READY ∧ u.c.pwr = Pwr.RUN))

/-! ## Lifecycle -/

/-- What an enable of a slice answers and does (Table PRT-4): the state stays, and only the slice's status
words and its domain's status change. -/
structure SliceEnables (c v : Ctl) (n st : Nat) : Prop where
  status : v.rd (SLC_STATE.LAST_STATUS n) = st
  stays : v.sliceLife n = c.sliceLife n
  off : c.sliceLife n = 0 →
    (c.inSafe = true ∨ c.bit (SLC_DOMAIN.ASSIGNED n) = false ∨ c.flt.fenced.contains (sliceDie c n) = true →
      st = St.DENIED ∨ (st = St.BUSY ∧ c.rd PWR_STATE.STATE = 3)) ∧
    (st = St.OK → (v.lifeOf n).due = 1 ∧ c.bit (SLC_DOMAIN.ASSIGNED n) = true ∧
      c.rd (MEM_STAGE.PROG_MIB n) ≤ min 32 (c.rd (COL_SLICE.DYN_BASE n)) ∧
      (c.created (c.domOf n) = false → c.createCheck (c.domOf n) = St.OK)) ∧
    (st ≠ St.OK → v.life = c.life ∧ ∃ e ∈ v.flt.inflight, e.src = Src.LIFE_REFUSED ∧ e.subj.slice = some n)
  starting : c.sliceLife n = 1 → st = St.OK ∧ v.bit (SLC_STATE.PENDING_DIS n) = false
  on : c.sliceLife n = 2 → st = St.OK ∧ v.life = c.life
  draining : c.sliceLife n = 3 → st = St.ACCEPTED_DEFERRED ∧ v.bit (SLC_STATE.PENDING_EN n) = true
  frame : ∀ a, a ≠ SLC_STATE.addr n → a ≠ SLC_CTRL.addr n → a ≠ DOM_STATE.addr (c.domOf n) → v.word a = c.word a

/-- What a disable of a slice answers and does. -/
structure SliceDisables (c v : Ctl) (n st : Nat) : Prop where
  status : v.rd (SLC_STATE.LAST_STATUS n) = st
  stays : v.sliceLife n = c.sliceLife n
  off : c.sliceLife n = 0 → st = St.OK ∧ v.life = c.life
  starting : c.sliceLife n = 1 → st = St.ACCEPTED_DEFERRED ∧ v.bit (SLC_STATE.PENDING_DIS n) = true
  on : c.sliceLife n = 2 → st = St.OK ∧ (v.lifeOf n).due = 2
  draining : c.sliceLife n = 3 → st = St.OK ∧ v.bit (SLC_STATE.PENDING_EN n) = false
  frame : ∀ a, a ≠ SLC_STATE.addr n → a ≠ SLC_CTRL.addr n → v.word a = c.word a

/-- What an enable of a link answers and does. -/
structure LinkEnables (c v : Ctl) (l st : Nat) : Prop where
  status : v.rd (LNK_LIFE.LAST_STATUS l) = st
  stays : v.linkLife l = c.linkLife l
  off : c.linkLife l = 0 →
    let bad := c.inSafe = true ∨ c.flt.fenced.contains (linkDie l) = true ∨
      ∃ i : Fin 8, c.rd (LANE_PRBS_CFG.TX_PAT l i.val) ≠ 0 ∨ c.rd (LANE_PRBS_CFG.RX_PAT l i.val) ≠ 0;
    (bad → st = St.DENIED ∧ v.life = c.life ∧ ∃ e ∈ v.flt.inflight, e.src = Src.LIFE_REFUSED ∧ e.subj.link = some l) ∧
    (¬ bad → st = St.OK ∧ (v.lifeOf (64 + l)).due = 1)
  starting : c.linkLife l = 1 → st = St.OK ∧ v.bit (LNK_LIFE.PENDING_DIS l) = false
  on : c.linkLife l = 2 → st = St.OK ∧ v.life = c.life
  draining : c.linkLife l = 3 → st = St.ACCEPTED_DEFERRED ∧ v.bit (LNK_LIFE.PENDING_EN l) = true
  frame : ∀ a, a ≠ LNK_LIFE.addr l → v.word a = c.word a

/-- What a disable of a link answers and does; without force it is BUSY in the cases of R305. -/
structure LinkDisables (c v : Ctl) (l : Nat) (force : Bool) (st : Nat) : Prop where
  status : v.rd (LNK_LIFE.LAST_STATUS l) = st
  stays : v.linkLife l = c.linkLife l
  off : c.linkLife l = 0 → st = St.OK ∧ v.life = c.life
  busy : c.linkLife l = 1 ∨ c.linkLife l = 2 → force = false → c.linkInBanks l = true ∨ (c.twinOn = true ∧ c.isTwinLink l = true) →
    st = St.BUSY ∧ v.life = c.life
  starting : c.linkLife l = 1 → force = true ∨ (c.linkInBanks l = false ∧ c.twinOn = false) →
    st = St.ACCEPTED_DEFERRED ∧ v.bit (LNK_LIFE.PENDING_DIS l) = true
  on : c.linkLife l = 2 → force = true ∨ (c.linkInBanks l = false ∧ c.twinOn = false) →
    st = St.OK ∧ (v.lifeOf (64 + l)).due = 2
  draining : c.linkLife l = 3 → st = St.OK ∧ v.bit (LNK_LIFE.PENDING_EN l) = false
  frame : ∀ a, a ≠ LNK_LIFE.addr l → v.word a = c.word a

/-- R299, R300, R305: the lifecycle commands, by register write and by management command: the status of Table
PRT-4 at once, and what they leave for the next boundary. -/
def LifecycleCommandsRules : Prop :=
  ∀ (s : State),
    (∀ (rt : Route) (n : Fin 64), ∃ u st, exec (.slcCtrlEnable rt n) s = .next u ∧
      u.pending = s.pending ∧ u.dev.ram = s.dev.ram ∧ SliceEnables s.c u.c n.val st) ∧
    (∀ (rt : Route) (n : Fin 64), ∃ u st, exec (.slcCtrlDisable rt n) s = .next u ∧
      u.pending = s.pending ∧ u.dev.ram = s.dev.ram ∧ SliceDisables s.c u.c n.val st) ∧
    (∀ (rt : Route) (l : Fin 48), ∃ u st, exec (.lnkLifeEnable rt l) s = .next u ∧
      u.pending = s.pending ∧ u.dev.ram = s.dev.ram ∧ LinkEnables s.c u.c l.val st) ∧
    (∀ (rt : Route) (l : Fin 48) (force : Bool), ∃ u st, exec (.lnkLifeDisable rt l force) s = .next u ∧
      u.pending = s.pending ∧ u.dev.ram = s.dev.ram ∧ LinkDisables s.c u.c l.val force st) ∧
    (∀ m, s.c.running 0x20 = some m → ∃ u, ∃ v : Ctl, ∃ st, exec .sliceEnable s = .next u ∧ RepliedC s u v m { status := st } ∧
      (64 ≤ m.target → st = St.BAD_PARAM ∧ v = s.c) ∧ (m.target < 64 → SliceEnables s.c v m.target st)) ∧
    (∀ m, s.c.running 0x21 = some m → ∃ u, ∃ v : Ctl, ∃ st, exec .sliceDisable s = .next u ∧ RepliedC s u v m { status := st } ∧
      (64 ≤ m.target → st = St.BAD_PARAM ∧ v = s.c) ∧ (m.target < 64 → SliceDisables s.c v m.target st)) ∧
    (∀ m, s.c.running 0x22 = some m → ∃ u, ∃ v : Ctl, ∃ st, exec .linkEnable s = .next u ∧ RepliedC s u v m { status := st } ∧
      (48 ≤ m.target → st = St.BAD_PARAM ∧ v = s.c) ∧ (m.target < 48 → LinkEnables s.c v m.target st)) ∧
    (∀ m, s.c.running 0x23 = some m → ∃ u, ∃ v : Ctl, ∃ st, exec .linkDisable s = .next u ∧ RepliedC s u v m { status := st } ∧
      (48 ≤ m.target → st = St.BAD_PARAM ∧ v = s.c) ∧ (m.target < 48 → LinkDisables s.c v m.target (nbit m.flags 0) st))

/-- R296, R301, R302, R304: STARTING ends once cleared, DRAINING once nothing is in flight or after 3,125 slots;
with its last slice a domain ends. A slice that leaves OFF creates its domain, whose allocations read as
zero from then on. -/
def LifecycleTransitionsRules : Prop :=
  ∀ (s : State),
    (∀ n : Fin 64, ∃ u, exec (.startingDone n) s = .next u ∧ u.pending = s.pending ∧ u.dev.ram = s.dev.ram ∧
      (s.c.sliceLife n.val ≠ 1 → u = s) ∧
      (s.c.sliceLife n.val = 1 → (u.c.lifeOf n.val).ready = true ∧ (∀ a, u.c.word a = s.c.word a) ∧
        ∀ k, k ≠ n.val → u.c.lifeOf k = s.c.lifeOf k)) ∧
    (∀ n : Fin 64, let idle := (∀ t : Fin 4, (s.c.stream n.val t.val).flight = []) ∧ s.c.inQ (48 + n.val) = [] ∧
        ∀ o ∈ s.c.sw.out, ∀ x ∈ o.2.q ++ o.2.cur.toList ++ o.2.zcur.toList, x.inp ≠ 48 + n.val
      let late := s.c.elapsed (s.c.lifeOf n.val).since 3125 = true
      let off (u : State) : Prop := u.c.sliceLife n.val = 0 ∧ u.c.rxQ n.val = [] ∧
        u.c.rd (SLC_STATE.TRANSITIONS n.val) = (s.c.rd (SLC_STATE.TRANSITIONS n.val) + 1) % 2 ^ 32 ∧
        (s.c.created (s.c.domOf n.val) = true → (∀ k ∈ s.c.slicesOf (s.c.domOf n.val), k ≠ n.val → s.c.sliceLife k = 0) →
          u.c.rd (DOM_STATE.STATE (s.c.domOf n.val)) = 0 ∧ u.c.armed (s.c.domOf n.val) = false ∧
          u.c.bankValid (s.c.domOf n.val) 0 = false ∧ u.c.bankValid (s.c.domOf n.val) 1 = false ∧
          u.c.storeState (s.c.domOf n.val) = 0) ∧
        ∀ k ∈ s.c.slicesOf (s.c.domOf n.val), k ≠ n.val → s.c.sliceLife k ≠ 0 →
          u.c.rd (DOM_STATE.STATE (s.c.domOf n.val)) = s.c.rd (DOM_STATE.STATE (s.c.domOf n.val));
      (∃ u, exec (.sliceReachesOff n) s = .next u ∧ u.pending = s.pending ∧ u.dev.ram = s.dev.ram ∧
        (s.c.sliceLife n.val ≠ 3 ∨ ¬ idle → u = s) ∧ (s.c.sliceLife n.val = 3 → idle → off u)) ∧
      (∃ u, exec (.drainTimeout (.slice n)) s = .next u ∧ u.pending = s.pending ∧ u.dev.ram = s.dev.ram ∧
        (s.c.sliceLife n.val ≠ 3 ∨ ¬ late → u = s) ∧
        (s.c.sliceLife n.val = 3 → late → off u ∧ u.c.inQ (48 + n.val) = [] ∧
          (∃ e ∈ u.c.flt.inflight, e.src = Src.DRAIN_TIMEOUT ∧ e.subj.slice = some n.val)))) ∧
    (∀ l : Fin 48, let o := s.c.outSt l.val
      let idle := s.c.linkState l.val ≠ LanSt.UP ∨ (o.q = [] ∧ o.cur = none ∧ o.zcur = none ∧ (s.c.link l.val).stored = [])
      let late := s.c.elapsed (s.c.lifeOf (64 + l.val)).since 3125 = true
      let off (u : State) : Prop := u.c.linkLife l.val = 0 ∧ u.c.linkState l.val = LanSt.OFF ∧
        (u.c.link l.val).squelched = true ∧ (u.c.link l.val).stored = [];
      (∃ u, exec (.linkReachesOff l) s = .next u ∧ u.pending = s.pending ∧ u.dev.ram = s.dev.ram ∧
        (s.c.linkLife l.val ≠ 3 ∨ ¬ idle → u = s) ∧ (s.c.linkLife l.val = 3 → idle → off u)) ∧
      (∃ u, exec (.drainTimeout (.link l)) s = .next u ∧ u.pending = s.pending ∧ u.dev.ram = s.dev.ram ∧
        (s.c.linkLife l.val ≠ 3 ∨ ¬ late → u = s) ∧
        (s.c.linkLife l.val = 3 → late → off u ∧
          (∃ e ∈ u.c.flt.inflight, e.src = Src.DRAIN_TIMEOUT ∧ e.subj.link = some l.val)))) ∧
    (∀ d : Fin 64, ∃ u, exec (.zeroingDone d) s = .next u ∧ u.pending = s.pending ∧ u.dev.ram = s.dev.ram ∧
      (s.c.rd (DOM_STATE.STATE d.val) ≠ 1 → u = s) ∧
      (s.c.rd (DOM_STATE.STATE d.val) = 1 → u.c.rd (DOM_STATE.STATE d.val) = 2 ∧ u.c.rd (DOM_STATE.ZERO_LEFT d.val) = 0 ∧
        ∀ a, a ≠ DOM_STATE.addr d.val → u.c.word a = s.c.word a)) ∧
    (∀ n : Fin 64, let d := s.c.domOf n.val
      let v := s.dev.sliceLeavesOff n.val;
      s.c.sliceEnableCheck n.val = St.OK → s.c.created d = false →
        v.ctl.rd (DOM_STATE.STATE d) = 1 ∧ v.ctl.sliceLife n.val = 1 ∧
        ∀ x, (s.c.shardRange d).1 ≤ x ∧ x < (s.c.shardRange d).2 ∨ (s.c.progRange d).1 ≤ x ∧ x < (s.c.progRange d).2 →
          v.ram.dramByte x = 0)

/-- R295, R296, R299-R305: the commands of slices and links, and the transitions that follow.
Rests in part on the model's own choices (log entries 97, 101). -/
def Obligations.Lifecycle : Prop := LifecycleCommandsRules ∧ LifecycleTransitionsRules

/-! ## Parameter store -/

/-- A record goes back one copy: STAMP and PREV swap, and CUR toggles where there are two copies. -/
def backOne (two : Bool) (x : ChunkSt) : ChunkSt :=
  { stamp := x.prev, prev := x.stamp, cur := if two then !x.cur else x.cur }

/-- Every record of the domain that carries step `k` has gone back one copy, and every other one is as it was. -/
def Reverted (c v : Ctl) (d k : Nat) : Prop :=
  ∀ i, v.chunkSt d i = if (c.chunkSt d i).stamp = k then backOne (decide (c.wCopies d = 2)) (c.chunkSt d i) else c.chunkSt d i

/-- An action on the store was refused: its status, the NOTE, and nothing else. -/
structure StoreRefused (s u : State) (d st : Nat) : Prop where
  status : u.c.rd (PST_STATUS.LAST_STATUS d) = st
  state : u.c.storeState d = s.c.storeState d
  store : u.c.pst = s.c.pst
  ram : u.dev.ram = s.dev.ram
  queue : u.pending = s.pending
  words : ∀ a, a ≠ PST_CTRL.addr d → a ≠ PST_STATUS.addr d → u.c.word a = s.c.word a
  note : ∃ e ∈ u.c.flt.inflight, e.src = Src.REG_REFUSED ∧ e.d4 = PST_CTRL.addr d

/-- R187, R208-R210: GO starts a store that passes the checks of Table PST-2, PAUSE waits for a step boundary,
RESOLVE ends PAUSED and FAILED, ROLLBACK undoes the last committed step; refused, they leave the store alone.
Each with the register's other action bits written 0. -/
def StoreControlRules : Prop :=
  ∀ (s : State) (rt : Route) (d : Fin 64) (v : W64),
    let state := s.c.storeState d.val
    let rb := s.c.rd (PST_LAYOUT.ROLLBACK d.val)
    let others (is : List Nat) : Prop := ∀ i ∈ is, nbit v.toNat i = false
    let revert := nbit v.toNat 3 = true;
    (others [1, 2, 4] → ∃ u, exec (.pstGo rt d v) s = .next u ∧
      let st := s.c.startCheck d.val
      let a := (s.c.shardRange d.val).1
      let b := a + s.c.rd (PST_SHARD.LOCAL_CHUNKS d.val) * s.c.recBytes d.val;
      (state ≠ 0 → st = St.BUSY) ∧
      (state = 0 → s.c.ce d.val % 64 ≠ 0 ∨ s.c.ce d.val < 64 ∨ 65536 < s.c.ce d.val ∨ s.c.ringN d.val ≤ s.c.ringPos d.val ∨
        2048 < s.c.ringN d.val ∨ 4 < s.c.rd (PST_LAYOUT.STATE_WORDS d.val) ∨ 2 < rb ∨ 2 < s.c.rd (PST_LAYOUT.NONFINITE d.val) →
        st = St.BAD_PARAM) ∧
      (st ≠ St.OK → StoreRefused s u d.val st) ∧
      (st = St.OK → u.pending = s.pending ∧ u.c.rd (PST_STATUS.LAST_STATUS d.val) = St.OK ∧ u.c.storeState d.val = 1 ∧
        u.c.rd (PST_STEP.COMMITTED d.val) = 0 ∧ u.c.bit (PST_STEP.SHADOW_OK d.val) = false ∧ (∀ k, u.c.chunkSt d.val k = {}) ∧
        (∀ x, a ≤ x → x < b → u.dev.ram.dramByte x = 0) ∧ ∀ x, x < a ∨ b ≤ x → u.dev.ram.dramByte x = s.dev.ram.dramByte x)) ∧
    (others [0, 2, 4] → ∃ u, exec (.pause rt d v) s = .next u ∧
      (state = 1 ∨ state = 2 ∨ state = 3 → u.pending = s.pending ∧ u.dev.ram = s.dev.ram ∧
        u.c.rd (PST_STATUS.LAST_STATUS d.val) = St.OK ∧ u.c.storeState d.val = state ∧ (u.c.pstOf d.val).pauseDue = true) ∧
      (state ≠ 1 → state ≠ 2 → state ≠ 3 → StoreRefused s u d.val St.DENIED)) ∧
    (others [0, 1, 4] → ∃ u, exec (.resolve rt d v) s = .next u ∧
      (state ≠ 4 → state ≠ 5 → StoreRefused s u d.val St.DENIED) ∧
      (state = 5 → revert → StoreRefused s u d.val St.DENIED) ∧
      (state = 5 → ¬ revert → u.pending = s.pending ∧ u.dev.ram = s.dev.ram ∧ u.c.pst = s.c.pst ∧
        u.c.rd (PST_STATUS.LAST_STATUS d.val) = St.OK ∧ u.c.storeState d.val = if (s.c.pstOf d.val).acc.any then 2 else 1) ∧
      (state = 4 → revert → rb = 0 → StoreRefused s u d.val St.DENIED) ∧
      (state = 4 → (revert → rb ≠ 0) → u.pending = s.pending ∧ u.dev.ram = s.dev.ram ∧
        u.c.rd (PST_STATUS.LAST_STATUS d.val) = St.OK ∧ u.c.storeState d.val = 2 ∧
        u.c.rd (PST_STATUS.FAIL_CAUSE d.val) = s.c.rd (PST_STATUS.FAIL_CAUSE d.val) ∧
        (u.c.pstOf d.val).busy = [] ∧ (u.c.pstOf d.val).acc = {} ∧
        (∀ n : Fin 64, s.c.domOf n.val = d.val → (u.c.updOf n.val).queue = []) ∧
        (¬ revert → ∀ k, u.c.chunkSt d.val k = s.c.chunkSt d.val k) ∧
        (revert → s.c.stepNo d.val % 2 ^ 32 ≠ 0 → Reverted s.c u.c d.val (s.c.stepNo d.val % 2 ^ 32)))) ∧
    (others [0, 1, 2] → ∃ u, exec (.rollback rt d v) s = .next u ∧
      let k := s.c.rd (PST_STEP.COMMITTED d.val)
      let good := rb ≠ 0 ∧ state = 5 ∧ s.c.bit (PST_STEP.SHADOW_OK d.val) = true;
      (¬ good → StoreRefused s u d.val St.DENIED) ∧
      (good → u.pending = s.pending ∧ u.dev.ram = s.dev.ram ∧ u.c.rd (PST_STATUS.LAST_STATUS d.val) = St.OK ∧
        u.c.storeState d.val = 5 ∧ u.c.rd (PST_STEP.COMMITTED d.val) = (if k = 0 then 0 else k - 1) ∧
        u.c.bit (PST_STEP.SHADOW_OK d.val) = false ∧
        (k ≠ 0 → Reverted s.c u.c d.val k) ∧
        (rb = 1 → u.c.rd (PST_STATUS.MOM_KEPT d.val) =
          min 65535 (s.c.rd (PST_STATUS.MOM_KEPT d.val) + ((s.c.pstOf d.val).chunks.filter (fun e => decide ((s.c.chunkSt d.val e.1).stamp = k))).length))))

/-- R206-R208: the evaluation of a boundary at which a pause waits: a complete step commits, one that is not
becomes PENDING or fails at the step boundary that follows, and the pause comes after the decision. -/
def PauseEvaluationRules : Prop :=
  ∀ (s : State) (d : Fin 64),
    let p := s.c.pstOf d.val
    let state := s.c.storeState d.val
    let mark := (s.c.domMer d.val).mark = true
    let ready := s.c.stepComplete d.val = true ∧ s.c.mirrorAcked d.val = true
    let k := s.c.stepNo d.val;
    ∃ u, exec (.pauseEffect d) s = .next u ∧ u.dev.ram = s.dev.ram ∧ u.pending = s.pending ∧
      (¬ (p.pauseDue = true ∧ (mark ∨ p.pauseNow = true)) → u = s) ∧
      (p.pauseDue = true → mark ∨ p.pauseNow = true → p.nxt.lost = false →
        let commits := u.c.storeState d.val = 5 ∧ (u.c.pstOf d.val).pauseDue = false ∧ u.c.rd (PST_STEP.COMMITTED d.val) = k % 2 ^ 32 ∧
          (u.c.pstOf d.val).acc = p.nxt ∧ (1 ≤ s.c.rd (PST_LAYOUT.ROLLBACK d.val) → u.c.bit (PST_STEP.SHADOW_OK d.val) = true);
        (state = 1 → u.c.storeState d.val = 5 ∧ (u.c.pstOf d.val).pauseDue = false ∧
          u.c.rd (PST_STEP.COMMITTED d.val) = s.c.rd (PST_STEP.COMMITTED d.val)) ∧
        (state = 2 → mark → ready → commits) ∧
        (state = 2 → mark → ¬ ready → u.c.storeState d.val = 3 ∧ (u.c.pstOf d.val).pauseDue = true ∧
          ∃ e ∈ u.c.flt.inflight, e.src = Src.STEP_PENDING ∧ e.subj.domain = some d.val) ∧
        (state = 3 → ready → commits) ∧
        (state = 3 → mark → ¬ ready → u.c.storeState d.val = 4 ∧ u.c.rd (PST_STATUS.FAIL_CAUSE d.val) = 5 ∧
          ∃ e ∈ u.c.flt.inflight, e.src = Src.STEP_FAIL ∧ e.subj.domain = some d.val) ∧
        (state = 3 → ¬ mark → ¬ ready → u.c.storeState d.val = 3 ∧ (u.c.pstOf d.val).pauseDue = true))

/-- R187, R206-R210: the store's controls and the evaluation of a pause.
Rests in part on the model's own choices (log entries 30, 32, 35). -/
def Obligations.StorePause : Prop := StoreControlRules ∧ PauseEvaluationRules

/-- R193-R195, R197, R198, R200, R206: a factor latches by the clip mode or its tensor is dealt with as non-finite;
an update program that ends advances its chunk, one that faults or outlasts 65,536 slots fails the step, and the
built-in programs compute their operation sequences.
Rests in part on the model's own choices (log entries 32, 52, 95). -/
def Obligations.StoreUpdates : Prop :=
  (∀ (s : State) (d : Fin 64) (t : BitVec 14),
    let a := (s.c.pstOf d.val).acc
    let x := s.c.tensor d.val t.toNat
    let goes := (s.c.storeState d.val = 2 ∨ s.c.storeState d.val = 3) ∧ x.valid = true ∧ t.toNat ∉ a.skipped ∧
      tblGet (fun _ => none) a.factors t.toNat = none
    let mode := s.c.rd (PST_LAYOUT.NONFINITE d.val)
    let st := s.c.strict d.val
    let gs := s.c.hparam d.val x.hset 3 0
    let tau := s.c.hparam d.val x.hset 2 1;
    ∃ u, exec (.factorLatch d t) s = .next u ∧ u.dev.ram = s.dev.ram ∧ u.pending = s.pending ∧
      (¬ goes ∨ s.c.clipQ d.val t.toNat = none → u = s) ∧
      ∀ q, goes → s.c.clipQ d.val t.toNat = some q →
        (nonFinite q = true → ∃ e ∈ u.c.flt.inflight, e.src = Src.NONFINITE_GRAD ∧ e.subj.domain = some d.val ∧ e.d4 = t.toNat) ∧
        (nonFinite q = true → mode = 0 → u.c.storeState d.val = 4 ∧ u.c.rd (PST_STATUS.FAIL_CAUSE d.val) = 2 ∧
          tblGet (fun _ => none) (u.c.pstOf d.val).acc.factors t.toNat = none) ∧
        (nonFinite q = true → mode = 1 → t.toNat ∈ (u.c.pstOf d.val).acc.skipped ∧ u.c.storeState d.val = s.c.storeState d.val ∧
          u.c.upd = s.c.upd ∧ tblGet (fun _ => none) (u.c.pstOf d.val).acc.factors t.toNat = none) ∧
        (nonFinite q = false ∨ 2 ≤ mode → ∃ k, tblGet (fun _ => none) (u.c.pstOf d.val).acc.factors t.toNat = some k ∧
          (x.clip = 0 → k = fmul st gs 0x3F80_0000) ∧
          (x.clip = 1 → k = fmul st gs (fdiv st tau (fmaximum st tau (fmul st (fabs st gs) (fsqrt st q))))) ∧
          (x.clip = 2 → k = fmul st gs (fdiv st tau (fadd st (fmul st (fabs st gs) (fsqrt st q)) (s.c.hparam d.val x.hset 3 1)))) ∧
          ∀ c ∈ s.c.ownedOf d.val t.toNat, ∀ z n, tblGet (fun _ => none) a.sumsq c.g = some (z, n) → c ∈ (u.c.updOf n).queue)) ∧
  (∀ (s : State) (n : Fin 64),
    (∃ u, exec (.updateComplete n) s = .next u ∧ u.pending = s.pending ∧
      ((s.c.updOf n.val).running = none → u = s) ∧
      ∀ r, (s.c.updOf n.val).running = some r →
        (r.user = true → s.c.ctxDone n.val = false → u = s) ∧
        (∀ x, r.d < 64 → r.chunks = [x] → s.c.compared n.val = false →
          let y := s.c.chunkSt r.d x.k
          let advanced := ∃ c : Ctl, u.c = c.startUpdate n.val ∧ (c.updOf n.val).running = none ∧
            c.chunkSt r.d x.k = { stamp := s.c.stepNo r.d % 2 ^ 32, prev := y.stamp, cur := if s.c.wCopies r.d = 2 then !y.cur else y.cur } ∧
            c.gradFree r.d x.k = true ∧ c.storeState r.d = s.c.storeState r.d;
          (r.user = true → s.c.ctxDone n.val = true → advanced ∧ u.dev.ram = s.dev.ram) ∧
          (r.user = false → x = r.job → (s.c.tensor r.d r.job.t).prog ≠ 0xFFF4 →
            ((s.dev.readRecord r.d x).2.2.2 = false → advanced ∧ u.dev.ram = (s.dev.runChunk r.d x).2.ram) ∧
            ((s.dev.readRecord r.d x).2.2.2 = true → u.dev.ram = s.dev.ram ∧ ∃ c : Ctl, u.c = c.startUpdate n.val ∧
              c.chunkSt r.d x.k = y ∧ ∃ e ∈ c.flt.inflight, e.src = Src.UPDATE_FAULT ∧ e.subj.domain = some r.d)))) ∧
    (∃ u, exec (.updateTimeout n) s = .next u ∧ u.dev.ram = s.dev.ram ∧ u.pending = s.pending ∧
      ((∀ r, (s.c.updOf n.val).running = some r → s.c.elapsed r.since 65536 = false) → u = s) ∧
      ∀ r, (s.c.updOf n.val).running = some r → r.d < 64 → s.c.elapsed r.since 65536 = true →
        ∃ c : Ctl, u.c = c.startUpdate n.val ∧ (c.updOf n.val).running = none ∧ (r.user = true → c.engState n.val 2 = Eng.FENCED) ∧
          (∃ e ∈ c.flt.inflight, e.src = Src.UPDATE_FAULT ∧ e.subj.domain = some r.d) ∧
          (s.c.storeState r.d = 2 ∨ s.c.storeState r.d = 3 → c.storeState r.d = 4 ∧ c.rd (PST_STATUS.FAIL_CAUSE r.d) = 3) ∧
          ∀ k, c.chunkSt r.d k = s.c.chunkSt r.d k)) ∧
  ∀ (p : Prelude) (x : ElemIn),
    let g := fmul p.st p.k x.g
    let wd := fmul p.st x.w p.decay;
    elemStep 0xFFF0 p x = (x.w, x.s0, x.s1) ∧
    (let m := ffma p.st p.beta1 x.s0 g; elemStep 0xFFF1 p x = (ffma p.st (fneg p.st p.lr) m wd, m, x.s1)) ∧
    (let m := ffma p.st p.beta1 x.s0 (fmul p.st p.c1 g)
     let v := ffma p.st p.beta2 x.s1 (fmul p.st p.c2 (fmul p.st g g))
     elemStep 0xFFF2 p x =
      (ffma p.st (fneg p.st p.a) (fdiv p.st m (ffma p.st (fsqrt p.st v) p.rb p.eps)) wd, m, v)) ∧
    elemStep 0xFFF3 p x =
      (ffma p.st (fneg p.st p.lr) (fsign p.st (ffma p.st p.beta1 x.s0 (fmul p.st p.c1 g))) wd,
        ffma p.st p.beta2 x.s0 (fmul p.st p.c2 g), x.s1)

/-! ## Twin -/

/-- R313-R318: GO enters HANDSHAKE and sends HELLO; the conditions and checks of R315 pair the twins or refuse;
device records are taken from the twin alone and do what Table TWN-1 says; a missing heartbeat declares the twin
lost; presence is sampled. -/
def TwinPairingRules : Prop :=
  ∀ (s : State),
    (∀ (rt : Route) (v : W64), ∃ u, exec (.twnGo rt v) s = .next u ∧ u.dev.ram = s.dev.ram ∧ u.pending = s.pending ∧
      let goes := s.c.pair = Pair.ABSENT ∨ s.c.pair = Pair.UNPAIRED;
      (¬ goes → u.c.tw = s.c.tw ∧ ∀ a, a ≠ TWN_CTRL.addr → u.c.word a = s.c.word a) ∧
      (goes → ∃ c : Ctl, u.c = c.sendHello ∧ c.pair = Pair.HANDSHAKE ∧ c.rd TWN_STATUS.CAUSE = 0 ∧ c.tw = s.c.tw ∧ c.net = s.c.net ∧
        ∀ a, a ≠ TWN_CTRL.addr → a ≠ TWN_STATUS.addr → c.word a = s.c.word a)) ∧
    (∀ (c : Ctl), (c.twinDev = none → c.sendHello = c) ∧
      (∀ dev, c.twinDev = some dev → ∃ t ∈ c.sendHello.net.txns, t.ep = 64 ∧ t.req.typ = Typ.MGMT_CMD ∧ t.req.vc = 6 ∧
        t.req.dstDev = dev ∧ t.req.dstPort = 128 ∧ pktOpcode t.req = 0x60 ∧
        t.req.payload.drop 32 = toBytes 8 (1 + (c.rd TWN_CTRL.SIDE) <<< 4 + (b2n (decide (c.pair = Pair.SOLO))) <<< 5 + c.devNum <<< 16) ++
          toBytes 8 (c.rdWord GLB_DET_SIG.addr) ++ toBytes 8 0 ++ toBytes 8 0)) ∧
    (let ready := (s.c.pair = Pair.HANDSHAKE ∨ (s.c.pair = Pair.SOLO ∧ s.c.tw.solo = true)) ∧ s.c.bit TWN_STATUS.PRESENT = true ∧
        s.c.twinLinks.any s.c.linkUp = true ∧ s.c.aligned = true
      ∃ u, exec .pairing s = .next u ∧ u.dev.ram = s.dev.ram ∧ u.pending = s.pending ∧
        (s.c.tw.hello = none ∨ ¬ ready → u = s) ∧
        ∀ h, s.c.tw.hello = some h → ready →
          let refused (cause : Nat) : Prop := u.c.pair = Pair.UNPAIRED ∧ u.c.rd TWN_STATUS.CAUSE = cause ∧ u.c.tw.hello = none ∧
            ∃ e ∈ u.c.flt.inflight, e.src = Src.TWIN_UNPAIRED ∧ e.d7 = cause
          let sig := h.sig = s.c.rdWord GLB_DET_SIG.addr
          let side := h.side ≠ s.c.rd TWN_CTRL.SIDE
          let both := h.solo = true ∧ s.c.pair = Pair.SOLO;
          (¬ sig → refused 5) ∧ (sig → ¬ side → refused 6) ∧ (sig → side → both → refused 7) ∧
          (sig → side → ¬ both → u.c.rd TWN_STATUS.CAUSE = 0 ∧ u.c.tw.lastHb = s.c.slots ∧ u.c.tw.lost = none ∧
            u.c.tw.tellDoms = (List.range 64).filter s.c.created ∧
            u.c.pair = if (h.solo = true ∨ s.c.pair = Pair.SOLO) ∧ (∃ d : Fin 64, s.c.created d.val = true) then Pair.RESILVER else Pair.PAIRED)) ∧
    (let goes := s.c.twinOn = true ∧ s.c.pair ≠ Pair.HANDSHAKE ∧ s.c.tw.lost = none ∧ s.c.tw.presMiss < 2 ∧
        s.c.elapsed s.c.tw.lastHb (max 2 (s.c.rd TWN_CTRL.HB_LIMIT)) = true
      ∃ u, exec .heartbeatTimeout s = .next u ∧ u.dev.ram = s.dev.ram ∧ u.pending = s.pending ∧ (¬ goes → u = s) ∧
        (goes → u.c.pair = Pair.SOLO ∧ u.c.rd TWN_STATUS.CAUSE = 3 ∧ u.c.rd TWN_COUNT.LOSSES = min 65535 (s.c.rd TWN_COUNT.LOSSES + 1) ∧
          u.c.tw.hello = none ∧ u.c.tw.silver = [] ∧ u.c.tw.takeover = s.c.tw.takeover ∧
          (∃ e ∈ u.c.flt.inflight, e.src = Src.TWIN_LOST ∧ e.d7 = 3) ∧
          ∀ d : Fin 64, s.c.created d.val = true → s.c.rd (TWN_MODE.MODE d.val) = 1 → s.c.bit (TWN_MODE.ACTING d.val) = false →
            ∃ e ∈ u.c.flt.inflight, e.src = Src.MIRROR_HOLD ∧ e.subj.domain = some d.val)) ∧
    (∀ away, ∃ u, exec (.presenceLoss away) s = .next u ∧ u.dev.ram = s.dev.ram ∧ u.pending = s.pending ∧
      u.c.bit TWN_STATUS.PRESENT = !away ∧ u.c.tw.presMiss = (if away then s.c.tw.presMiss + 1 else 0) ∧
      ∀ a, a ≠ TWN_STATUS.addr → u.c.word a = s.c.word a)

/-- R313, R316, R318, R381: a TWIN_RECORD is taken from the twin over a twin link only, and answered; what each
KIND of device record does. -/
def TwinRecordsRules : Prop :=
  (∀ (s : State) (x : InPkt) (rest : List InPkt) (c : Ctl),
    (s.c.rxQ 64 = [] → exec .twinRecord s = .next s) ∧
    (s.c.rxQ 64 = x :: rest → x.pkt.typ ≠ Typ.MGMT_CMD ∨ pktOpcode x.pkt ≠ 0x60 → exec .twinRecord s = .next s) ∧
    (Taken s 64 Typ.MGMT_CMD x rest c → x.pkt.chkGood = true → pktOpcode x.pkt = 0x60 →
      let m : MgmtCmd := { route := 1, box := fabricBox x.pkt, pkt := x, bytes := x.pkt.payload }
      let good := m.formOk = true ∧ m.plen = 32
      let twin := c.twinLinks.contains x.inp = true ∧
        (c.twinDev = some x.pkt.srcDev ∨ (c.pair = Pair.SOLO ∧ c.rd (LNK_PARTNER.DEV x.inp) = x.pkt.srcDev))
      let may := nbit (c.rd MBX_PERM.FABRIC) 7 = true;
      ∃ u, exec .twinRecord s = .next u ∧ u.dev.ram = s.dev.ram ∧ u.pending = s.pending ∧
        (¬ good → u.c = c.sendReply m { status := St.BAD_PARAM }) ∧
        (good → ¬ (twin ∧ may) → u.c = c.sendReply m { status := St.DENIED }) ∧
        (good → twin → may → u.c = (c.takeDevRec m.params).sendReply m {}))) ∧
  (∀ (c : Ctl) (bs : List Byte), let v := c.takeDevRec bs
    let w0 := leAt bs 0 8
    let a1 := leAt bs 8 8
    let kind := nfld w0 0 4
    let d := nfld a1 0 6
    let rec_ : TwinDom := { mode := nfld a1 6 1, primary := nbit a1 7, shard := leAt bs 16 8, prog := leAt bs 24 8 }
    let differs := c.rd (TWN_MODE.MODE d) ≠ rec_.mode ∨ (c.rd (TWN_MODE.MODE d) = 1 ∧ c.bit (TWN_MODE.PRIMARY d) = rec_.primary) ∨
      c.rdWord (MEM_DOM_SHARD.addr d) ≠ rec_.shard ∨ c.rdWord (MEM_DOM_PROG.addr d) ≠ rec_.prog;
    (kind = 1 → c.pair ≠ Pair.SOLO → v.rd TWN_STATUS.TWIN_DEV = nfld w0 16 12 ∧
      v.tw = { c.tw with hello := some { dev := nfld w0 16 12, side := nfld w0 4 1, solo := nbit w0 5, sig := a1 } }) ∧
    (kind = 2 → v = { c with tw := { c.tw with lastHb := c.slots } }) ∧
    (kind = 3 → v = if c.twinOn then { c with tw := { c.tw with lost := some (nfld a1 0 4) } } else c) ∧
    (kind = 4 → v.tw.links = a1 % 2 ^ 48) ∧
    (kind = 5 → v.tw.slices = a1) ∧
    (kind = 6 → nbit a1 8 = false → tblGet (fun _ => none) v.tw.doms d = none ∧ d ∉ v.tw.diff) ∧
    (kind = 6 → nbit a1 8 = true → tblGet (fun _ => none) v.tw.doms d = some rec_ ∧
      (c.created d = true → differs → d ∈ v.tw.diff ∧
        (d ∉ c.tw.diff → ∃ e ∈ v.flt.inflight, e.src = Src.TWIN_MODE_DIFF ∧ e.subj.domain = some d)) ∧
      (c.created d = true → ¬ differs → d ∉ v.tw.diff)) ∧
    (kind = 0 ∨ 7 ≤ kind → v = c))

/-- R313-R318, R381: pairing with the twin, and the records of the two devices.
Rests in part on the model's own choices (log entries 42, 70). -/
def Obligations.TwinLink : Prop := TwinPairingRules ∧ TwinRecordsRules

/-- What one of the twin's slice records does: an EXCL record waits for the boundary; a RELEASE or UPDATE record
meets what the slice holds, or waits for it. -/
def RecordNoted (c v : Ctl) (n : Nat) (r : TwinRec) : Prop :=
  let hit (h : HeldObj) : Bool := h.meets n r
  (r.kind = 2 ∨ ((r.kind = 1 ∨ r.kind = 3) ∧ c.held.any hit = false) → v.twinRecs = c.twinRecs ++ [(n, r)] ∧ v.held = c.held) ∧
  ((r.kind = 1 ∨ r.kind = 3) → c.held.any hit = true → v.twinRecs = c.twinRecs ∧ v.held.length = c.held.length ∧
    ∃ h ∈ c.held, hit h = true ∧
      (r.attempt = 0 → { h with twin0 := some (r.value, r.checks) } ∈ v.held) ∧
      (r.attempt ≠ 0 → { h with twin1 := some (r.value, r.checks) } ∈ v.held))

/-- R321-R323, R325-R327: a good slice record or mirror write reaches what it belongs to; a re-run ends with its
record; what waits too long leaves uncompared; a follower leaves FOLLOW when its causes and its stream have ended.
Rests in part on the model's own choices (log entries 41, 57, 95). -/
def Obligations.TwinSlices : Prop :=
  ∀ (s : State) (n : Fin 64),
    (∀ i kind, (i, kind) ∈ [(Instr.releaseRecord n, 1), (Instr.updateRecord n, 3), (Instr.exclRecord n, 2)] →
      (s.c.rxQ n.val = [] → exec i s = .next s) ∧
      ∀ x rest, s.c.rxQ n.val = x :: rest →
        (x.pkt.typ ≠ Typ.WRITE ∨ isSliceRec kind x.pkt = false → exec i s = .next s) ∧
        ∀ c : Ctl, Taken s n Typ.WRITE x rest c → isSliceRec kind x.pkt = true →
          ∃ v : State, exec i s = .next { dev := v.dev.pump n.val, pending := s.pending } ∧ v.dev.ram = s.dev.ram ∧
            RecordNoted c v.c n.val (TwinRec.of x.pkt.payload) ∧
            (x.pkt.ackReq = true → Offered v n.val (fun p => p.typ = Typ.READ_RSP ∧ p.alive = x.pkt.alive))) ∧
    (∀ x rest, s.c.rxQ n.val = x :: rest →
      (x.pkt.typ ≠ Typ.WRITE ∨ x.pkt.addr ≠ mirrorAddr → exec (.mirrorWrite n) s = .next s) ∧
      ∀ c : Ctl, Taken s n Typ.WRITE x rest c → x.pkt.addr = mirrorAddr → c.inSafe = false →
        let e := ({ ctl := c, ram := s.dev.ram : Dev }).takeMirror n.val x.pkt.payload;
        ∃ v : State, exec (.mirrorWrite n) s = .next { dev := v.dev.pump n.val, pending := s.pending } ∧ v.dev.ram = e.ram ∧
          v.c.pst = e.ctl.pst ∧ v.c.tw = e.ctl.tw ∧ v.c.bar0 = e.ctl.bar0) ∧
    (∀ (dv : Dev) (bs : List Byte), let e := dv.takeMirror n.val bs
      let c := dv.ctl
      let d := c.domOf n.val
      let w0 := leAt bs 0 8
      let kind := nfld w0 48 4
      let w1 := leAt bs 8 4
      let data := bs.drop 16
      let takes := (c.twinState n.val = Tws.FOLLOW ∨ c.twinState n.val = Tws.STANDBY) ∧ c.bit TWN_STATUS.DEGRADED = false;
      (¬ takes → e = dv) ∧
      (takes → kind = 1 → nfld w0 0 41 < c.dataBase d → e.ram = dv.ram ∧ e.ctl.pst = c.pst ∧
        e.ctl.tw.collect = c.tw.collect ++ [(d, nfld w0 0 41, data)]) ∧
      (takes → kind = 2 → e.ctl.chunkSt d w1 = { stamp := leAt data 0 4, prev := leAt data 4 4, cur := decide ((data.getD 8 0).toNat % 2 = 1) } ∧
        e.ctl.tw.collect = c.tw.collect.filter (fun x =>
          !(decide (x.1 = d) && decide (w1 * c.recBytes d ≤ x.2.1) && decide (x.2.1 < w1 * c.recBytes d + c.recBytes d)))) ∧
      (takes → kind = 3 → e.ram = dv.ram ∧ e.ctl.rd (PST_STEP.COMMITTED d) = w1 ∧ (e.ctl.pstOf d).acc = {} ∧ (e.ctl.pstOf d).busy = []) ∧
      (takes → kind = 0 ∨ 5 ≤ kind → e = dv)) ∧
    (let due := s.c.held.find? (fun h => decide (h.n = n.val) && decide (h.attempt = 1))
      ∃ u, exec (.rerunDone n) s = .next u ∧ u.pending = s.pending ∧ (due = none → u = s) ∧
        ∀ h, due = some h → (h.update = false → u.dev.ram = s.dev.ram) ∧ u.c.held.length = s.c.held.length ∧
          ∃ k ∈ u.c.held, k.n = n.val ∧ k.attempt = 2 ∧ k.since = s.c.slots ∧ k.job = h.job ∧ k.opTag = h.opTag ∧ k.chunk = h.chunk ∧
            k.sig = h.sig ∧ (h.update = false → k.sig1 = h.sig)) ∧
    (let waits (h : HeldObj) : Prop := h.left = false ∧
        ((h.attempt = 0 ∧ h.twin0 = none) ∨ (h.attempt = 2 ∧ h.twin1 = none)) ∧ s.c.elapsed h.since (max 1 (s.c.rd TWN_CTRL.SIG_WAIT)) = true
      let excl := (∃ x ∈ s.c.twinRecs, x.1 = n.val ∧ x.2.kind = 2) ∨
        ∃ k ∈ s.c.openOps n.val, ∃ x ∈ (s.c.opOf k).chunks, x.2.exclSent.isSome = true
      ¬ excl → ∃ u, exec (.sigWaitExpiry n) s = .next u ∧ u.dev.ram = s.dev.ram ∧ u.pending = s.pending ∧
        ((∀ h ∈ s.c.held, h.n = n.val → ¬ waits h) → u = s) ∧
        ∀ h, s.c.held.filter (fun x => x.n = n.val) = [h] → waits h →
          u.c.rd (TWN_SLICE.HELD n.val) = 0 ∧ { h with left := true } ∈ u.c.held ∧
          ∃ e ∈ u.c.flt.inflight, e.src = Src.CMP_LATE ∧ e.subj.slice = some n.val) ∧
    (let goes := s.c.followOf n.val = 16 ∧ s.c.sliceOn n.val = true ∧ ∀ x ∈ s.c.tw.collect, x.1 ≠ s.c.domOf n.val
      ∃ u, exec (.followExit n) s = .next u ∧ u.dev.ram = s.dev.ram ∧ u.pending = s.pending ∧
        u.c.twinState n.val = u.c.twinStateNow n.val ∧
        (¬ goes → u.c.tw.follow = s.c.tw.follow) ∧ (goes → u.c.followOf n.val = 0))

/-- R328-R330: takeover waits for a period boundary and makes the standby act; a copy that is whole ends; a slice of
a fenced die is remapped to the lowest unused spare, or SPARE_NONE is raised.
Rests in part on the model's own choices (log entries 58, 98). -/
def Obligations.TwinRecovery : Prop :=
  ∀ (s : State),
    (∀ (rt : Route) (d : Fin 64) (v : W64), ∃ u, exec (.takeoverRequest rt d v) s = .next u ∧ u.dev.ram = s.dev.ram ∧
      u.pending = s.pending ∧ (∀ a, a ≠ TWN_MODE.addr d.val → u.c.word a = s.c.word a) ∧
      let stands := s.c.created d.val = true ∧ s.c.rd (TWN_MODE.MODE d.val) = 1 ∧ s.c.bit (TWN_MODE.ACTING d.val) = false ∧
        d.val ∉ s.c.tw.takeover;
      u.c.tw.takeover = if stands then s.c.tw.takeover ++ [d.val] else s.c.tw.takeover) ∧
    (∀ d : Fin 64, let goes := d.val ∈ s.c.tw.takeover ∧ s.c.periodEdge d.val = true;
      ∃ u, exec (.mirrorTakeover d) s = .next u ∧ u.dev.ram = s.dev.ram ∧ u.pending = s.pending ∧ (¬ goes → u = s) ∧
        (goes → u.c.bit (TWN_MODE.ACTING d.val) = true ∧ u.c.tw.takeover = s.c.tw.takeover.filter (fun x => x != d.val) ∧
          (∀ x ∈ u.c.tw.collect, x.1 ≠ d.val) ∧ (u.c.pstOf d.val).acc = {} ∧ (u.c.pstOf d.val).busy = [] ∧
          (∀ k, u.c.chunkSt d.val k = s.c.chunkSt d.val k) ∧ (∀ n ∈ s.c.slicesOf d.val, (u.c.updOf n).queue = []) ∧
          (s.c.storeState d.val ≠ 0 → u.c.storeState d.val = 2) ∧
          (s.c.storeState d.val = 0 → u.c.storeState d.val = 0) ∧
          ∃ e ∈ u.c.flt.inflight, e.src = Src.MIRROR_TAKEOVER ∧ e.subj.domain = some d.val)) ∧
    (∀ d : Fin 64, ∃ u, exec (.resilverDone d) s = .next u ∧ u.dev.ram = s.dev.ram ∧ u.pending = s.pending ∧
      (s.c.tw.silver.find? (fun x => decide (x.d = d.val)) = none → u = s) ∧
      ∀ x, s.c.tw.silver.find? (fun x => decide (x.d = d.val)) = some x →
        let atEnd := (x.source = true → x.rec_ = s.c.recCount d.val ∧ x.total ≤ x.byte ∧
            ∀ t ∈ s.c.net.txns, ¬ (t.req.addr = mirrorAddr ∧ t.req.domain = d.val)) ∧
          (x.source = false → x.total ≤ x.done ∧ ∀ y ∈ s.c.tw.collect, y.1 ≠ d.val);
        (¬ atEnd → u = s) ∧
        (atEnd → u.c.tw.silver = s.c.tw.silver.filter (fun y => y.d != d.val) ∧
          (∃ e ∈ u.c.flt.inflight, e.src = Src.RESILVER_DONE ∧ e.subj.domain = some d.val) ∧
          (x.source = false → ∀ n ∈ s.c.slicesOf d.val, u.c.followOf n = s.c.followOf n / 2 * 2) ∧
          ((∀ y ∈ s.c.tw.silver, y.d = d.val) → s.c.pair = Pair.RESILVER → u.c.pair = Pair.PAIRED ∧ u.c.tw.revive = none) ∧
          ((∃ y ∈ s.c.tw.silver, y.d ≠ d.val) → u.c.pair = s.c.pair))) ∧
    (∀ n : Fin 64, let goes := n.val ∈ s.c.tw.remap ∧ s.c.sliceLife n.val = 0
      let die := sliceDie s.c n.val
      let d := s.c.domOf n.val
      let spare (k : Nat) : Prop := k < 18 ∧ (∀ m : Fin 64, sliceDie s.c m.val ≠ k) ∧ k ∉ s.c.fuse.retired ∧ k ∉ s.c.flt.fenced ∧
        k ∉ s.c.flt.fencing ∧ ∀ x ∈ s.c.tw.spares, x.1 ≠ k ∧ x.2 ≠ k
      let first := ∀ x ∈ s.c.tw.spares, x.1 ≠ die;
      ∃ u, exec (.spareRemap n) s = .next u ∧ u.dev.ram = s.dev.ram ∧ u.pending = s.pending ∧ (¬ goes → u = s) ∧
        (goes → n.val ∉ u.c.tw.remap) ∧
        (goes → first → (∀ k, ¬ spare k) → (∃ e ∈ u.c.flt.inflight, e.src = Src.SPARE_NONE ∧ e.subj.slice = some n.val) ∧
          ∀ a, u.c.word a = s.c.word a) ∧
        (goes → first → ∀ k, spare k → (∀ j, j < k → ¬ spare j) → sliceDie u.c n.val = k ∧ u.c.rd (SLC_STATE.QUARTER n.val) = n.val % 4 ∧
          (die, k) ∈ u.c.tw.spares ∧ (∃ e ∈ u.c.flt.inflight, e.src = Src.SPARE_REMAP ∧ e.subj.slice = some n.val ∧ e.subj.die = some k) ∧
          (let twin := s.c.pairOn = true ∧ s.c.bit (SLC_DOMAIN.ASSIGNED n.val) = true ∧
              (tblGet (fun _ => none) s.c.tw.doms d).isSome = true ∧ d ∉ s.c.tw.diff;
            (twin → u.c.followOf n.val = 16) ∧ (¬ twin → n.val ∈ u.c.tw.bare))) ∧
        (goes → ∀ x, s.c.tw.spares.find? (fun y => decide (y.1 = die)) = some x → x.2 < 32 → sliceDie u.c n.val = x.2))

/-! ## Fault registers -/

/-- R337, R348, R352-R354, R356, R358, R360, R363: the writes of the collector's registers: forced events, reaction
entries, the four clears, the ring's tail, the parity test and the check counters. Each clear with the other clears
of FLT_CLEAR written 0. -/
def Obligations.FaultRegisters : Prop :=
  ∀ (s : State) (rt : Route) (v : W64),
    let frame (u : State) : Prop := u.pending = s.pending ∧ u.dev.ram = s.dev.ram
    let others (is : List Nat) : Prop := ∀ i ∈ is, nbit v.toNat i = false;
    (∀ i : Fin 16, ∃ u new, exec (.fltForce rt i v) s = .next u ∧ frame u ∧ u.c.flt.inflight = s.c.flt.inflight ++ new ∧
      (∀ a, a ≠ FLT_FORCE.addr i.val → u.c.word a = s.c.word a) ∧
      new.map (fun e => e.src) = ((bitsOf 64 v.toNat).map (fun j => 64 * i.val + j)).filter (fun k => (srcSev k).isSome) ∧
      ∀ e ∈ new, e = { src := e.src, forced := true, slot := s.c.now, cyc := s.c.cyc, subj := s.c.forceSubj }) ∧
    (∀ src : Fin 1024, let lock := s.c.bit (FLT_ACTION.LOCK src.val) = true
      let bad := 6 ≤ getFld v 12 4;
      ∃ u, exec (.fltActionWrite rt src v) s = .next u ∧ frame u ∧
        (lock → Refused s u rt.val (FLT_ACTION.addr src.val) 8 St.DENIED) ∧
        (¬ lock → bad → Refused s u rt.val (FLT_ACTION.addr src.val) 8 St.BAD_PARAM) ∧
        (¬ lock → ¬ bad → u.c.rd (FLT_ACTION.SEV src.val) = getFld v 0 2 ∧ u.c.bit (FLT_ACTION.PIN src.val) = nbit v.toNat 2 ∧
          u.c.bit (FLT_ACTION.IRQ src.val) = nbit v.toNat 3 ∧ u.c.rd (FLT_ACTION.VECTOR src.val) = getFld v 4 6 ∧
          u.c.rd (FLT_ACTION.REACT src.val) = getFld v 12 4 ∧ u.c.bit (FLT_ACTION.MASK src.val) = nbit v.toNat 17 ∧
          ∀ a, a ≠ FLT_ACTION.addr src.val → a ≠ FLT_STATUS.addr → u.c.word a = s.c.word a)) ∧
    (others [17, 18, 19] → let src := getFld v 0 10;
      ∃ u, exec (.clearSource rt v) s = .next u ∧ frame u ∧ u.c.bit (FLT_SRC.ACTIVE src) = false ∧ u.c.rd (FLT_SRC.COUNT src) = 0 ∧
        u.c.bit (FLT_SRC.PENDING src) = s.c.bit (FLT_SRC.PENDING src) ∧
        ((∃ k : Fin 1024, k.val ≠ src ∧ s.c.bit (FLT_SRC.ACTIVE k.val) = true) → u.c.bit FLT_STATUS.ANY_ACTIVE = true) ∧
        ((∀ k : Fin 1024, k.val ≠ src → s.c.bit (FLT_SRC.ACTIVE k.val) = false) → u.c.bit FLT_STATUS.ANY_ACTIVE = false) ∧
        ∀ a, a ≠ FLT_SRC.addr src → a ≠ FLT_STATUS.addr → a ≠ FLT_CLEAR.addr → u.c.word a = s.c.word a) ∧
    (others [16, 18, 19] → ∃ u, exec (.clearAll rt v) s = .next u ∧ frame u ∧
      (∀ k : Fin 1024, u.c.bit (FLT_SRC.ACTIVE k.val) = false ∧ u.c.rd (FLT_SRC.COUNT k.val) = 0 ∧
        u.c.bit (FLT_SRC.PENDING k.val) = s.c.bit (FLT_SRC.PENDING k.val)) ∧
      (u.c.bit FLT_STATUS.ANY_ACTIVE = false ∧ u.c.rd FLT_STATUS.ACTIVE_COUNT = 0 ∧ u.c.rd FLT_STATUS.HIGHEST = 0 ∧
        u.c.bit FLT_STATUS.FAULT_N = (s.c.inSafe || s.c.bit FLT_STATUS.ORDERLY))) ∧
    (others [16, 17, 19] → ∃ u, exec (.clearFirst rt v) s = .next u ∧ frame u ∧
      (∀ a, a ∈ [FLT_FIRST.addr, FLT_FIRST_TIME.addr, FLT_NEXT.addr, FLT_NEXT_TIME.addr] → u.c.word a = 0) ∧
      ∀ a, a ∉ [FLT_FIRST.addr, FLT_FIRST_TIME.addr, FLT_NEXT.addr, FLT_NEXT_TIME.addr, FLT_CLEAR.addr] → u.c.word a = s.c.word a) ∧
    (others [16, 17, 18] → ∃ u, exec (.clearDropped rt v) s = .next u ∧ frame u ∧ u.c.word FLT_DROPPED.addr = 0 ∧
      ∀ a, a ≠ FLT_DROPPED.addr → a ≠ FLT_CLEAR.addr → u.c.word a = s.c.word a) ∧
    (let tail := getFld v 0 9
      let past := 256 < (s.c.rd FLT_RING_HEAD.HEAD + 512 - tail) % 512;
      ∃ u, exec (.ringTailWrite rt v) s = .next u ∧ frame u ∧
        (past → Refused s u rt.val FLT_RING_TAIL.addr 8 St.BAD_PARAM) ∧
        (¬ past → u.c.rd FLT_RING_TAIL.TAIL = tail ∧ ∀ a, a ≠ FLT_RING_TAIL.addr → u.c.word a = s.c.word a)) ∧
    (∃ u, exec (.parityTest rt v) s = .next u ∧ frame u ∧ u.c.flt.parityTest = true ∧
      u.c.rd FLT_CTRL.FIRST_MIN = getFld v 0 2 ∧ ∀ a, a ≠ FLT_CTRL.addr → u.c.word a = s.c.word a) ∧
    (∃ u, exec (.chkCountClear rt v) s = .next u ∧ frame u ∧ u.c.word FLT_CHK_COUNT.addr = 0 ∧
      ∀ a, a ≠ FLT_CHK_COUNT.addr → u.c.word a = s.c.word a)

/-- R263, R266, R267, R280, R355, R361, R362: a stop is armed and resumed, a record of non-finite tiles zeroed, a frame
retired by software; a die that is being fenced is fenced by its answer or by the lack of one; an orderly stop ends in
the safe state, and a request for the safe state enters it.
Rests in part on the model's own choices (log entries 15, 92). -/
def Obligations.StopsAndFences : Prop :=
  ∀ (s : State),
    (∀ (rt : Route) (n : Fin 64) (v : W64), let t := getFld v 32 2;
      (nbit v.toNat 37 = false → ∃ u, exec (.stopArm rt n v) s = .next u ∧ u.pending = s.pending ∧ u.dev.ram = s.dev.ram ∧
        u.c.bit (SLC_STOP_AT.ARM n.val) = true ∧ u.c.rd (SLC_STOP_AT.STREAM n.val) = t ∧
        u.c.rd (SLC_STOP_AT.COUNT n.val) = getFld v 0 32 ∧ u.c.bit (SLC_STOP_AT.STOPPED n.val) = s.c.bit (SLC_STOP_AT.STOPPED n.val) ∧
        (∀ k : Fin 4, (u.c.stream n.val k.val).skip = if k.val = t then some (getFld v 40 8) else none) ∧
        ∀ a, a ≠ SLC_STOP_AT.addr n.val → u.c.word a = s.c.word a) ∧
      (nbit v.toNat 34 = false → ∃ u, exec (.resume rt n v) s = .next u ∧ u.pending = s.pending ∧ u.dev.ram = s.dev.ram ∧
        u.c.bit (SLC_STOP_AT.STOPPED n.val) = false ∧ u.c.bit (SLC_STOP_AT.HALTED n.val) = false ∧
        u.c.bit (SLC_STOP_AT.ARM n.val) = false ∧ (u.c.engOf n.val).idleFrom = none ∧
        (∀ k : Fin 4, (u.c.stream n.val k.val).skip = none ∧
          (s.c.engState n.val k.val ≠ Eng.HALTED → u.c.engState n.val k.val = s.c.engState n.val k.val)) ∧
        ((s.c.engOf n.val).idleFrom.isSome = true → (u.c.seqOf n.val).joined = false ∧ (u.c.seqOf n.val).active = []))) ∧
    (∀ (rt : Route) (n : Fin 64) (e : Fin 2) (v : W64), ∃ u, exec (.nonfiniteClear rt n e v) s = .next u ∧
      u.pending = s.pending ∧ u.dev.ram = s.dev.ram ∧ u.c.word (SLC_NONFINITE.addr n.val e.val) = 0 ∧
      ∀ a, a ≠ SLC_NONFINITE.addr n.val e.val → u.c.word a = s.c.word a) ∧
    (∀ (rt : Route) (v : W64), let f := getFld v 0 25
      let left := s.c.rd MEM_SPARES.SPARES_LEFT
      let goes := f < spareFrame ∧ tblGet (fun _ => none) s.c.mem.retired f = none;
      ∃ u, exec (.memRetire rt v) s = .next u ∧ u.pending = s.pending ∧ u.dev.ram = s.dev.ram ∧
        (¬ goes → u.c.mem = s.c.mem ∧ u.c.flt = s.c.flt) ∧
        (goes → left = 0 → u.c.mem = s.c.mem ∧ ∃ e ∈ u.c.flt.inflight, e.src = Src.FRAME_RETIRE 0 ∧ e.d5 = f + 2 ^ 32) ∧
        (goes → left ≠ 0 → u.c.rd MEM_SPARES.SPARES_LEFT = left - 1 ∧
          tblGet (fun _ => none) u.c.mem.retired f = some (spareFrame + 16384 - left) ∧
          (∀ g, g ≠ f → tblGet (fun _ => none) u.c.mem.retired g = tblGet (fun _ => none) s.c.mem.retired g) ∧
          u.c.rd MEM_ECC.RETIRED = (s.c.rd MEM_ECC.RETIRED + 1) % 2 ^ MEM_ECC.RETIRED.w ∧
          ∃ e ∈ u.c.flt.inflight, e.src = Src.FRAME_RETIRE 0 ∧ e.d5 = f)) ∧
    (∀ (die : Fin 32), ∀ i src, (i, src) ∈ [(Instr.dieFenced die, Src.DIE_FENCED), (Instr.dieFenceFail die, Src.DIE_FENCE_FAIL)] →
      (die.val ∉ s.c.flt.fencing → exec i s = .next s) ∧
      (die.val ∈ s.c.flt.fencing → ∃ u, exec i s = .next u ∧ u.pending = s.pending ∧ u.dev.ram = s.dev.ram ∧
        u.c.flt.fencing = s.c.flt.fencing.filter (fun x => x != die.val) ∧ u.c.flt.fenced = s.c.flt.fenced ++ [die.val] ∧
        (∀ a, u.c.word a = s.c.word a) ∧ ∃ e ∈ u.c.flt.inflight, e.src = src ∧ e.subj.die = some die.val)) ∧
    (let safe (u : State) (src cut at_ : Nat) : Prop := u.c.inSafe = true ∧ u.c.bit FLT_STATUS.ORDERLY = false ∧ u.c.bit FLT_STATUS.FAULT_N = true ∧
        u.c.stage = Stg.SAFE ∧ u.c.pwr = Pwr.SAFE ∧ u.c.flt.safeAt = some at_ ∧ u.c.flt.due = s.c.flt.due ∧
        ∃ e ∈ u.c.flt.inflight, e.src = Src.SAFE_ENTERED ∧ e.d4 = src % 1024 + (b2n s.c.flt.orderlyAt.isSome) <<< 16 ∧ e.d5 = cut % 2 ^ 32;
      (∃ u, exec .safeEntry s = .next u ∧ u.pending = s.pending ∧ u.dev.ram = s.dev.ram ∧
        (s.c.flt.safeReq = none → u = s) ∧
        (∀ src, s.c.flt.safeReq = some src → s.c.flt.safeAt = none → safe u src 0 s.c.slots) ∧
        (∀ src x, s.c.flt.safeReq = some src → s.c.flt.safeAt = some x → u.c.flt.safeReq = none ∧ ∀ a, u.c.word a = s.c.word a)) ∧
      (let running := (List.range 64).filter (fun n => (s.c.updOf n).running.isSome)
        ∃ u, exec .orderlyStopEnd s = .next u ∧ u.pending = s.pending ∧
          (s.c.flt.orderlyAt = none → u = s) ∧
          ∀ b, s.c.flt.orderlyAt = some b →
            let due := b ≤ s.c.slots ∧ (running = [] ∨ b + 3124 ≤ s.c.slots);
            (¬ due → u = s) ∧
            (due → running = [] → u.dev.ram = s.dev.ram) ∧
            (due → s.c.flt.safeAt = none → safe u s.c.flt.orderlySrc running.length (s.c.slots + 1) ∧
              ∀ n : Fin 64, (u.c.updOf n.val).running = none)))

/-! ## Cirrus -/

/-- A command changed nothing but registers, and of these only the words listed. -/
def OnlyWords (s u : State) (as : List Nat) : Prop :=
  u.pending = s.pending ∧ u.dev.ram = s.dev.ram ∧ ∀ a, a ∉ as → u.c.word a = s.c.word a

/-- A threshold entry as a write leaves it: its fields, evaluated from inactive (R406). -/
def EntryWritten (u : State) (i : Nat) (v : W64) : Prop :=
  u.c.rd (CIR_THRESH.SENSOR i) = getFld v 0 8 ∧ u.c.bit (CIR_THRESH.ENABLE i) = nbit v.toNat 8 ∧
  u.c.bit (CIR_THRESH.DIR i) = nbit v.toNat 9 ∧ u.c.rd (CIR_THRESH.ACTION i) = (if 6 ≤ getFld v 10 3 then 0 else getFld v 10 3) ∧
  u.c.rd (CIR_THRESH.TLEVEL i) = getFld v 13 3 ∧ u.c.rd (CIR_THRESH.HOLD i) = max 1 (getFld v 16 8) ∧
  u.c.rd (CIR_THRESH.LEVEL i) = getFld v 32 16 ∧ u.c.rd (CIR_THRESH.HYST i) = getFld v 48 16 ∧
  u.c.bit (CIR_THRESH.ACTIVE i) = false ∧ (u.c.thr i).count = 0

/-- R403, R404: what a sample is for each sensor: a value measured or none, the device's own value, or the board
controller's write; what fails is reported. Which sensors compute their own value is read in log entry 67. -/
def Obligations.Sensors : Prop :=
  ∀ (s : State) (i : Fin 256),
    let sampled (u : State) (x : Int) : Prop := u.dev = s.dev.sample i.val x
    let failed (u : State) : Prop := OnlyWords s u [CIR_SENSOR.addr i.val] ∧ u.c.bit (CIR_SENSOR.FAIL i.val) = true ∧
      u.c.bit (CIR_SENSOR.VALID i.val) = s.c.bit (CIR_SENSOR.VALID i.val) ∧
      (s.c.unpowered = false → ∃ e ∈ u.c.flt.inflight, e.src = Src.SENSOR_FAIL)
    let board := i.val = 48 ∨ 240 ≤ i.val
    let own := i.val = 53 ∨ i.val = 81 ∨ i.val = 82 ∨ (96 ≤ i.val ∧ i.val ≤ 191);
    (∀ x, ∃ u, exec (.sensorSample i x) s = .next u ∧ u.pending = s.pending ∧
      (board ∨ (83 ≤ i.val ∧ i.val ≤ 95) → u = s) ∧
      (own → (s.c.ownSample i.val = none → u = s) ∧ ∀ y, s.c.ownSample i.val = some y → sampled u y) ∧
      (¬ board → ¬ own → ¬ (83 ≤ i.val ∧ i.val ≤ 95) → (x = none → failed u) ∧ ∀ v, x = some v → sampled u v.toInt)) ∧
    (∃ u, exec (.sensorFail i) s = .next u ∧ (¬ board → u = s) ∧ (board → failed u)) ∧
    (∀ raw : BitVec 16, ∃ u, exec (.sensorRawWrite i raw) s = .next u ∧ u.pending = s.pending ∧
      (¬ board → OnlyWords s u [CIR_SENSOR.addr i.val] ∧ u.c.rd (CIR_SENSOR.RAW i.val) = s.c.rd (CIR_SENSOR.RAW i.val)) ∧
      (board → ∃ c : Ctl, (∀ a, c.word a = s.c.word a) ∧ c.cir = s.c.cir ∧
        u.dev = ({ ctl := c, ram := s.dev.ram : Dev }).sample i.val raw.toInt))

/-- R405: the filter of every sensor: below five samples VALID stays clear and nothing but the sensor's own
register changes; the fifth and later ones give the median m of the last five, y = m << 8 on the first and
y + ((m << 8) - y >> K) after it, MEDIAN = m, VALUE = y >> 8 and VALID; then the limits see them: the fused one of a
die's sensor acts on m at 115 degrees (R410). -/
def Obligations.SensorFilter : Prop :=
  ∀ (s : State) (i : Fin 256) (x : Int),
    let d := s.dev.sample i.val x
    let h := (x :: tblGet (fun _ => []) s.c.cir.hist i.val).take 5;
    (h.length < 5 → d.ram = s.dev.ram ∧ d.ctl.rd (CIR_SENSOR.RAW i.val) = ofInt 16 x ∧ d.ctl.bit (CIR_SENSOR.FAIL i.val) = false ∧
      tblGet (fun _ => []) d.ctl.cir.hist i.val = h ∧ d.ctl.bit (CIR_SENSOR.VALID i.val) = false ∧
      ∀ a, a ≠ CIR_SENSOR.addr i.val → d.ctl.word a = s.c.word a) ∧
    (h.length = 5 → ∃ (c : Ctl) (m : Int), d = ({ ctl := c, ram := s.dev.ram : Dev }).sensorUpdated i.val ∧
        m ∈ h ∧ (h.filter (fun y => decide (y < m))).length ≤ 2 ∧ (h.filter (fun y => decide (m < y))).length ≤ 2 ∧
        (let old := tblGet (fun _ => 0) s.c.cir.y i.val
         let y := if s.c.sensorValid i.val then old + (m * 256 - old) / 2 ^ s.c.rd (CIR_SENSOR.K i.val) else m * 256
         c.rd (CIR_SENSOR.VALUE i.val) = ofInt 16 (y / 256) ∧ tblGet (fun _ => 0) c.cir.y i.val = y) ∧
        c.rd (CIR_SENSOR.MEDIAN i.val) = ofInt 16 m ∧ c.sensorValid i.val = true ∧ c.rd (CIR_SENSOR.RAW i.val) = ofInt 16 x ∧
        c.bit (CIR_SENSOR.FAIL i.val) = false ∧ (∀ a, a ≠ CIR_SENSOR.addr i.val → c.word a = s.c.word a) ∧
        (i.val < 32 → 1840 ≤ m → m < 32768 → s.c.unpowered = false →
          d.ctl.pwr = Pwr.SHUTDOWN ∧ d.ram = {} ∧ d.ctl.bit CIR_STATUS.LAST_SHUTDOWN = true ∧ d.ctl.boot.tempRec = true))

/-- R406, R407, R409, R415, R439: threshold entries are written by any route that may write the register and are
evaluated as R406 says; a set point is clamped; the reference comes and goes; reasons to wake are cleared. -/
def LimitsRules : Prop :=
  ∀ (s : State),
    (∀ (rt : Route) (i : Fin 48) (v : W64), ∃ u, exec (.thresholdEntryWrite rt i v) s = .next u ∧
      (rt.val = 1 → Refused s u 1 (CIR_THRESH.addr i.val) 8 St.DENIED) ∧
      (rt.val ≠ 1 → EntryWritten u i.val v ∧
        (getFld v 10 3 ≠ 2 → OnlyWords s u [CIR_THRESH.addr i.val]) ∧
        (getFld v 10 3 = 2 → OnlyWords s u [CIR_THRESH.addr i.val, FLT_ACTION.addr (912 + i.val), FLT_STATUS.addr] ∧
          u.c.bit (FLT_ACTION.PIN (912 + i.val)) = true))) ∧
    (∀ m, s.c.running 0x83 = some m →
      let first := m.par 0 1
      let count := m.par 1 1
      let good := count ≠ 0 ∧ first + count ≤ 48 ∧ m.plen = 8 + 8 * count;
      ∃ u, ∃ v : State, ∃ r, exec .threshWrite s = .next u ∧ Replied s u v m r ∧
        (¬ good → r = { status := St.BAD_PARAM } ∧ v.dev = s.dev) ∧
        (good → r = { status := St.OK } ∧ v.dev.ram = s.dev.ram ∧
          ∀ j, j < count → EntryWritten v (first + j) (BitVec.ofNat 64 (m.par (8 + 8 * j) 8)))) ∧
    (∀ (i : Fin 48) (v : Int), let c := s.c
      let u := c.thrEval i.val v
      let level := sext 16 (c.rd (CIR_THRESH.LEVEL i.val))
      let hyst : Int := c.rd (CIR_THRESH.HYST i.val)
      let below := c.bit (CIR_THRESH.DIR i.val) = true
      let beyond := (below → v < level) ∧ (¬ below → level < v)
      let inside := (below → level + hyst ≤ v) ∧ (¬ below → v ≤ level - hyst)
      let active := c.bit (CIR_THRESH.ACTIVE i.val) = true
      let n := (c.thr i.val).count + 1
      let hold := max 1 (c.rd (CIR_THRESH.HOLD i.val));
      (active → inside → u.bit (CIR_THRESH.ACTIVE i.val) = false ∧ u.flt = c.flt) ∧
      (active → ¬ inside → u = c) ∧
      (¬ active → ¬ beyond → (u.thr i.val).count = 0 ∧ ∀ a, u.word a = c.word a) ∧
      (¬ active → beyond → n < hold → (u.thr i.val).count = n ∧ ∀ a, u.word a = c.word a) ∧
      (¬ active → beyond → hold ≤ n → u.bit (CIR_THRESH.ACTIVE i.val) = true ∧ (u.thr i.val).count = 0 ∧
        (c.unpowered = false → (∃ e ∈ u.flt.inflight, e.src = 912 + i.val) ∧
          (c.rd (CIR_THRESH.ACTION i.val) = 3 → u.bit PWR_WAKE_REASON.CIRRUS = true) ∧
          (c.rd (CIR_THRESH.ACTION i.val) = 4 → c.inSafe = false → ∃ e ∈ u.flt.due, e.1 = 4 ∧ e.2.src = 912 + i.val) ∧
          (c.rd (CIR_THRESH.ACTION i.val) = 5 → c.inSafe = false → u.flt.safeReq.isSome = true)))) ∧
    (∀ (rt : Route) (g : Fin 8) (v : W64), let mv := getFld v 0 10
      ∃ u, exec (.pwrVsetWrite rt g v) s = .next u ∧
        (rt.val = 1 → Refused s u 1 (PWR_VSET.addr g.val) 8 St.DENIED) ∧
        (rt.val ≠ 1 → OnlyWords s u [PWR_VSET.addr g.val] ∧
          u.c.rd (PWR_VSET.MV g.val) = (if mv < 650 then 650 else if 850 < mv then 850 else mv) ∧
          ((mv < 650 ∨ 850 < mv) → s.c.unpowered = false → ∃ e ∈ u.c.flt.inflight, e.src = Src.VOLT_CLAMP) ∧
          (650 ≤ mv → mv ≤ 850 → u.c.flt = s.c.flt))) ∧
    (∃ u, exec .refOkSet s = .next u ∧ OnlyWords s u [CIR_STATUS.addr] ∧ u.c.bit CIR_STATUS.REF_OK = true) ∧
    (∃ u, exec .refLoss s = .next u ∧ u.pending = s.pending ∧ u.dev.ram = s.dev.ram ∧ u.c.bit CIR_STATUS.REF_OK = false ∧
      ((∀ l : Fin 48, s.c.linkUp l.val = false) → OnlyWords s u [CIR_STATUS.addr] ∧ u.c.flt = s.c.flt) ∧
      ((∃ l : Fin 48, s.c.linkUp l.val = true) → ∀ (l : Fin 48) (k : Fin 8), u.c.bit (LANE_STATUS.PLL_LOL l.val k.val) = true)) ∧
    (∀ (rt : Route) (v : W64), let gone (k : Nat) := nbit v.toNat k = true
      ∃ u, exec (.wakeReasonClear rt v) s = .next u ∧
        (rt.val = 1 → Refused s u 1 PWR_WAKE_REASON.addr 8 St.DENIED) ∧
        (rt.val ≠ 1 → OnlyWords s u [PWR_WAKE_REASON.addr] ∧
          (u.c.bit PWR_WAKE_REASON.FAULT = true ↔ s.c.bit PWR_WAKE_REASON.FAULT = true ∧ ¬ gone 0) ∧
          (u.c.bit PWR_WAKE_REASON.CIRRUS = true ↔ s.c.bit PWR_WAKE_REASON.CIRRUS = true ∧ ¬ gone 1) ∧
          (u.c.bit PWR_WAKE_REASON.MGMT = true ↔ s.c.bit PWR_WAKE_REASON.MGMT = true ∧ ¬ gone 2) ∧
          (u.c.bit PWR_WAKE_REASON.WAKE_N = true ↔ s.c.bit PWR_WAKE_REASON.WAKE_N = true ∧
            (u.c.bit PWR_WAKE_REASON.FAULT = true ∨ u.c.bit PWR_WAKE_REASON.CIRRUS = true ∨ u.c.bit PWR_WAKE_REASON.MGMT = true))))

/-- R417, R418: one sample of the fabric stop's channels, and a count that has reached tDISC. -/
def FabricStopRules : Prop :=
  State.reset.c.rd CIR_FSTOP_CFG.TDISC_MS = 10 ∧ ∀ (s : State),
    let tdisc := min 100 (max 1 (s.c.rd CIR_FSTOP_CFG.TDISC_MS)) * 1000
    let n := s.c.rd CIR_FSTOP_STATUS.COUNT_US
    let disc := s.c.bit CIR_FSTOP_STATUS.DISC = true
    let on := s.c.unpowered = false
    let faulted (u : State) : Prop := u.c.bit CIR_FSTOP_STATUS.DISC_FAULT = true ∧
      (on → ∃ e ∈ u.c.flt.inflight, e.src = Src.FSTOP_DISC_FAULT) ∧
      (on → s.c.inSafe = false → ∃ e ∈ u.c.flt.due, e.1 = 4 ∧ e.2.src = Src.FSTOP_DISC_FAULT);
    (∀ a b, ∃ u, exec (.fstopSample a b) s = .next u ∧ OnlyWords s u [CIR_FSTOP_STATUS.addr, GLB_STATE.addr] ∧
      u.c.bit CIR_FSTOP_STATUS.A = a ∧ u.c.bit CIR_FSTOP_STATUS.B = b ∧
      (let held := s.c.cir.hold = true ∧ (a = true ∨ b = true)
       u.c.bit GLB_STATE.FSTOP_HOLD = decide held ∧
       (held → u.c.cir = s.c.cir ∧ u.c.flt = s.c.flt) ∧
       (¬ held → u.c.cir.hold = false ∧
        (a ≠ b → u.c.bit CIR_FSTOP_STATUS.DISC = true ∧ u.c.rd CIR_FSTOP_STATUS.COUNT_US = min 131071 (n + 1) ∧
          (n + 1 < tdisc → u.c.flt = s.c.flt) ∧
          (tdisc ≤ n + 1 → s.c.bit CIR_FSTOP_STATUS.DISC_FAULT = false → faulted u)) ∧
        (a = b → u.c.bit CIR_FSTOP_STATUS.DISC = false ∧
          (disc → u.c.rd CIR_FSTOP_STATUS.COUNT_US = 0 ∧ u.c.rd CIR_FSTOP_STATUS.LAST_US = n ∧
            (n < tdisc → on → ∃ e ∈ u.c.flt.inflight, e.src = Src.FSTOP_DISC ∧ e.d4 = n)) ∧
          (a = true → u.c.bit CIR_FSTOP_STATUS.STOPPED = true ∧
            (s.c.bit CIR_FSTOP_STATUS.STOPPED = false → on → (∃ e ∈ u.c.flt.inflight, e.src = Src.FSTOP_STOP) ∧
              (s.c.inSafe = false → ∃ e ∈ u.c.flt.due, e.1 = 4 ∧ e.2.src = Src.FSTOP_STOP))))))) ∧
    (let goes := disc ∧ tdisc ≤ n ∧ s.c.bit CIR_FSTOP_STATUS.DISC_FAULT = false
     ∃ u, exec .fstopDiscFault s = .next u ∧ u.pending = s.pending ∧ u.dev.ram = s.dev.ram ∧ (¬ goes → u = s) ∧ (goes → faulted u))

/-- R406, R407, R409, R415, R417, R418, R439: what Cirrus watches and what it does then.
Rests in part on the model's own choices (log entries 66, 68, 96). -/
def Obligations.CirrusLimits : Prop := LimitsRules ∧ FabricStopRules

/-! ## Power states, resets and the board's ports -/

/-- A device reset into a power state (Table MAP-2): DRAM and staging are lost, the fields that VAUX keeps
hold, every other field of a register but some has its reset value, and all other state is new but for
the fuses, the flash, the TAP and the I3C target, the port's pins and the remaps made in service. -/
structure DeviceReset (s u : State) (p : Nat) (but : List FRef) : Prop where
  state : u.c.pwr = p
  kept : ∀ f ∈ vauxFields, u.c.rd f = s.c.rd f
  others : ∀ f : FRef, ApartFrom f (PWR_STATE.STATE :: but ++ vauxFields) → u.c.rd f = getFld (resetWord s.c.fuse f.addr) f.lo f.w
  ram : u.dev.ram = {}
  queue : u.pending = s.pending
  fused : u.c.fuse = s.c.fuse ∧ u.c.flash = s.c.flash ∧ u.c.jtag = s.c.jtag ∧ u.c.i3c = s.c.i3c
  spares : u.c.tw = { spares := s.c.tw.spares }
  empty : u.c.links = [] ∧ u.c.banks = [] ∧ u.c.ops = [] ∧ u.c.eng = [] ∧ u.c.pst = [] ∧ u.c.upd = [] ∧ u.c.life = [] ∧
    u.c.bar2 = [] ∧ u.c.sw = {} ∧ u.c.net = {} ∧ u.c.mem = {} ∧ u.c.flt = {} ∧ u.c.fw = {} ∧ u.c.cir = {}

/-- A reset of the host port (Table MAP-2): the host doorbells, the MSI-X table and the PBA hold their reset
values, the host mailboxes' commands in execution end without replies, and nothing of the data plane or of
the other routes changes. -/
structure HostReset (s u : State) (d : Nat) : Prop where
  bells : ∀ m : Fin 16, u.c.word (MBX_DOORBELL.addr m.val) = resetWord s.c.fuse (MBX_DOORBELL.addr m.val)
  port : u.c.rd PWR_STATE.HOST_D = d
  words : ∀ a, (a < MBX_DOORBELL.addr 0 ∨ MBX_DOORBELL.addr 16 ≤ a) → a ≠ PWR_STATE.addr → u.c.word a = s.c.word a
  fields : ∀ f : FRef, f.addr = PWR_STATE.addr → ApartFrom f [PWR_STATE.HOST_D] → u.c.rd f = s.c.rd f
  msix : ∀ a, 0x8_0000 ≤ a → u.c.byte2 a = resetBar2 a
  queue : u.c.fw.queue = s.c.fw.queue.filter (fun m => m.route != 0)
  sent : u.c.sent = s.c.sent
  rest : u.dev.ram = s.dev.ram ∧ u.pending = s.pending ∧ u.c.eng = s.c.eng ∧ u.c.links = s.c.links ∧ u.c.sw = s.c.sw ∧
    u.c.ops = s.c.ops ∧ u.c.flt = s.c.flt

/-- R393, R410, R411, R415, R422, R438: what each supply event and each reset keeps and where it leads; the
host port's resets touch the host port only; a reason to wake asserts WAKE_N in D3cold before training. -/
def SupplyAndResetsRules : Prop :=
  ∀ (s : State),
    let aux := s.c.pwr = Pwr.AUX
    let reasons := s.c.bit PWR_WAKE_REASON.FAULT = true ∨ s.c.bit PWR_WAKE_REASON.CIRRUS = true ∨ s.c.bit PWR_WAKE_REASON.MGMT = true;
    (∃ u, exec .vauxPowerUp s = .next u ∧ u.dev.ram = {} ∧ u.pending = s.pending ∧ u.c.pwr = Pwr.AUX ∧
      (∀ a, u.c.word a = resetWord s.c.fuse a) ∧ u.c.fuse = s.c.fuse ∧ u.c.flash = s.c.flash ∧ u.c.jtag = {} ∧
      u.c.i3c.addr = none ∧ u.c.i3cPid = 0x1E5C * 2 ^ 33 + 2 ^ 32 + (Config.i3cRandom s.c.freeN).toNat ∧
      u.c.tw = {} ∧ u.c.eng = [] ∧ u.c.links = [] ∧ u.c.ops = [] ∧ u.c.fw = {}) ∧
    (∃ u, exec .porstNAssert s = .next u ∧ DeviceReset s u Pwr.AUX []) ∧
    (∃ u, exec .vauxUndervoltage s = .next u ∧ DeviceReset s u Pwr.AUX [CIR_STATUS.VAUX_OK] ∧ u.c.bit CIR_STATUS.VAUX_OK = false) ∧
    (∃ u, exec .vinMainUndervoltage s = .next u ∧ u.c.bit CIR_STATUS.MAIN_OK = false ∧ u.c.presenceOut = false ∧ u.c.faultPin = true ∧
      (aux → OnlyWords s u [CIR_STATUS.addr]) ∧ (¬ aux → DeviceReset s u Pwr.AUX [])) ∧
    (∃ u, exec .vinMainOvervoltage s = .next u ∧ u.c.bit CIR_STATUS.MAIN_OK = false ∧ u.c.boot.voltRec = true ∧
      (aux → OnlyWords s u [CIR_STATUS.addr]) ∧ (¬ aux → DeviceReset s u Pwr.AUX [])) ∧
    (∀ mv : BitVec 16, let held := ∃ k : Fin 32, s.c.sensorValid k.val = true ∧ 1600 ≤ s.c.sensorMedian k.val
      let goes := aux ∧ 10800 ≤ mv.toNat ∧ mv.toNat ≤ 13200 ∧ ¬ held ∧ s.c.bit CIR_STATUS.VAUX_OK = true;
      ∃ u, exec (.vinMainInRange mv) s = .next u ∧ (¬ goes → u = s) ∧
        (goes → OnlyWords s u [PWR_STATE.addr, CIR_STATUS.addr] ∧ u.c.pwr = Pwr.BOOT ∧ u.c.bit CIR_STATUS.MAIN_OK = true)) ∧
    (∃ u, exec (.perstN true) s = .next u ∧ HostReset s u 3 ∧ u.c.host.perst = true ∧ u.c.host.training = false ∧
      (u.c.cir.again = true ↔ reasons)) ∧
    (∃ u, exec (.perstN false) s = .next u ∧ OnlyWords s u [] ∧ u.c.host = { s.c.host with perst := false } ∧ u.c.fw = s.c.fw) ∧
    (∃ u, exec .functionLevelReset s = .next u ∧ HostReset s u 0 ∧ u.c.host = s.c.host) ∧
    (∃ u, exec .hostLinkTrainingStart s = .next u ∧ (s.c.host.perst = true → u = s) ∧
      (s.c.host.perst = false → OnlyWords s u [PWR_STATE.addr, PWR_WAKE_REASON.addr] ∧ u.c.host.training = true ∧
        u.c.rd PWR_STATE.HOST_D = 0 ∧ u.c.bit PWR_WAKE_REASON.WAKE_N = false ∧
        u.c.bit PWR_WAKE_REASON.COALESCED = (s.c.bit PWR_WAKE_REASON.WAKE_N || s.c.bit PWR_WAKE_REASON.COALESCED) ∧
        (reasons ↔ u.c.bit PWR_WAKE_REASON.FAULT = true ∨ u.c.bit PWR_WAKE_REASON.CIRRUS = true ∨ u.c.bit PWR_WAKE_REASON.MGMT = true))) ∧
    (let goes := s.c.cir.again = true ∧ reasons ∧ s.c.rd PWR_STATE.HOST_D = 3 ∧ s.c.host.connected = true ∧ s.c.host.training = false
     ∃ u, exec .wakeNReassert s = .next u ∧ (¬ goes → OnlyWords s u []) ∧
      (goes → OnlyWords s u [PWR_WAKE_REASON.addr] ∧ u.c.bit PWR_WAKE_REASON.WAKE_N = true))

/-- R413, R415: SLEEP idles the links, gates the engines' stacks into self-refresh and is BUSY unless every
slice is OFF; a wake ends both and RUN follows; WAKE_HOST is a wake reason on every route but the host's. -/
def SleepAndWakeRules : Prop :=
  ∀ (s : State),
    (∀ m, s.c.running 0x80 = some m → ∃ u, ∃ v : Ctl, ∃ r, exec .sleep s = .next u ∧ RepliedC s u v m r ∧
      let off := ∀ n : Fin 64, s.c.sliceLife n.val = Life.OFF
      let sleeps (l : Fin 48) : Prop := s.c.linkUp l.val = true ∧ ¬ (s.c.isTwinLink l.val = true ∧ s.c.twinOn = true) ∧
        s.c.bit (LNK_CTRL.STAY_AWAKE l.val) = false;
      (¬ off ∨ s.c.pwr ≠ Pwr.RUN → r = { status := St.BUSY } ∧ v = s.c) ∧
      (off → s.c.pwr = Pwr.RUN → r = { status := St.OK } ∧ v.pwr = Pwr.SLEEP ∧ v.stage = Stg.SLEEP ∧ v.mem.selfRefresh = true ∧
        ∀ l : Fin 48, (sleeps l → v.linkState l.val = LanSt.IDLE) ∧ (¬ sleeps l → v.linkState l.val = s.c.linkState l.val))) ∧
    (∀ m, s.c.running 0x81 = some m → ∃ u, ∃ v : Ctl, exec .wake s = .next u ∧ RepliedC s u v m { status := St.OK } ∧
      (s.c.pwr ≠ Pwr.SLEEP ∨ s.c.cir.waking.isSome = true → v = s.c) ∧
      (s.c.pwr = Pwr.SLEEP → s.c.cir.waking = none → v.mem.selfRefresh = false ∧ v.pwr = Pwr.SLEEP ∧ v.cir.waking.isSome = true ∧
        ∀ l : Fin 48, (s.c.linkState l.val = LanSt.IDLE →
            v.linkState l.val = if s.c.slots - (s.c.link l.val).idleSince ≤ 31250 then LanSt.WAKE else LanSt.RETUNE) ∧
          (s.c.linkState l.val ≠ LanSt.IDLE → v.linkState l.val = s.c.linkState l.val))) ∧
    (let atEnd := s.c.pwr = Pwr.SLEEP ∧ ∃ ls, s.c.cir.waking = some ls ∧
        ∀ l ∈ ls, s.c.linkState l ≠ LanSt.IDLE ∧ s.c.linkState l ≠ LanSt.WAKE ∧ s.c.linkState l ≠ LanSt.RETUNE
     ∃ u, exec .wakeComplete s = .next u ∧ (¬ atEnd → u = s) ∧
      (atEnd → OnlyWords s u [PWR_STATE.addr, GLB_STATE.addr] ∧ u.c.pwr = Pwr.RUN ∧ u.c.stage = Stg.READY ∧ u.c.cir.waking = none)) ∧
    (∀ m, s.c.running 0x82 = some m → ∃ u, ∃ v : Ctl, exec .wakeHost s = .next u ∧ RepliedC s u v m { status := St.OK } ∧
      (m.route = 0 → v = s.c) ∧
      (m.route ≠ 0 → (∀ a, a ≠ PWR_WAKE_REASON.addr → v.word a = s.c.word a) ∧ v.bit PWR_WAKE_REASON.MGMT = true ∧
        v.rd PWR_WAKE_REASON.LAST_SLOT = s.c.now % 2 ^ 32 ∧
        (s.c.rd PWR_STATE.HOST_D = 3 → s.c.host.training = false → s.c.host.connected = true → v.bit PWR_WAKE_REASON.WAKE_N = true) ∧
        (s.c.host.training = true → v.bit PWR_WAKE_REASON.WAKE_N = s.c.bit PWR_WAKE_REASON.WAKE_N)))

/-- R393, R410, R411, R413, R415, R422, R438: resets, supplies, sleep and wake.
Rests in part on the model's own choices (log entries 13, 66, 69). -/
def Obligations.PowerStates : Prop := SupplyAndResetsRules ∧ SleepAndWakeRules

/-! ## Register writes and the board's ports -/

/-- Registers whose write does more than set their fields, reads back as another value, or may be refused
whole: their own statements say what it does. -/
def ownRules : List RegId :=
  [.MER_CTRL, .FLT_CLEAR, .FLT_CTRL, .FLT_CHK_COUNT, .FLT_FORCE, .FLT_ACTION, .FLT_PIN_EN, .FLT_SRC, .TWN_CTRL, .TWN_MODE,
   .CIR_THRESH, .CIR_SENSOR, .PWR_WAKE_REASON, .PWR_VSET, .MBX_DOORBELL, .LNK_LIFE, .LANE_PRBS_CFG, .LANE_INJECT,
   .LANE_MARGIN, .SWX_CTRL, .SWX_ZENITH, .COL_TICKET, .SLC_CTRL, .SLC_STOP_AT, .SLC_NONFINITE, .MEM_RETIRE, .PST_CTRL,
   .CIR_FSTOP_CFG, .SWX_VC_WEIGHT, .LNK_REPLAY_CFG, .SLC_DBG_PAGE, .MEM_SCRUB, .SLC_QUOTA, .DOM_RESV, .COL_SLICE,
   .MER_SLOT_CFG, .FLT_FW_REPORT, .MBX_PERM, .CIR_STATUS, .CIR_FSTOP_STATUS, .CIR_CTRL, .PWR_STATE, .PWR_LIMITS,
   .PWR_THROTTLE, .LANE_PRBS_USER, .MER_PHASE_NEXT, .MER_SWAP_AT, .FLT_RING_TAIL, .DOM_ARITH]

/-- Bit `k` of a field after a write (Table SCP-4), from its old value and the bit written to it, if any. -/
def writtenBit (acc : Acc) (locked old : Bool) (x : Option Bool) : Bool :=
  match acc, x with
  | .rw, some b => b
  | .rwl, some b => if locked then old else b
  | .w1c, some b => old && !b
  | .w1s, some b => old || b
  | _, _ => old

/-- R7, R391, R392: an access of a register or window is normal, narrow, or an Unsupported Request by Table
MGT-6; a normal write sets each field of the half or the whole it covers by the field's access type, a locked
field keeps its value and is reported; a longer access of a window is its aligned pieces in ascending order.
R368: a write of DOM_ARITH also leaves the domain's signature as GLB_DET_SIG with its mode replaced. -/
def Obligations.RegisterWrites : Prop :=
  ∀ (s : State) (x : Access),
    let n := x.data.length
    let top := match x.bar with | .bar0 => 0x1000_0000 | .bar2 => 0x10_0000
    let control := x.bar = .bar0 ∧ x.addr < 0x0100_0000
    let aligned := x.contiguous = true ∧ x.addr % n = 0
    let inside := 0 < n ∧ x.addr + n ≤ top;
    (inside → aligned → n = 1 ∨ n = 2 →
      ∃ u, exec (.registerWrite x) s = .next u ∧ Raised s u Src.REG_NARROW x.addr (n % 16 + x.route.val * 65536)) ∧
    (¬ inside ∨ (control ∧ ¬ (aligned ∧ (n = 1 ∨ n = 2 ∨ n = 4 ∨ n = 8))) ∨
        (¬ control ∧ ¬ (aligned ∧ (n = 1 ∨ n = 2)) ∧ (x.contiguous = false ∨ x.addr % 4 ≠ 0 ∨ n % 4 ≠ 0)) →
      ∃ u, exec (.registerWrite x) s = .next u ∧ Raised s u Src.REG_UNALIGNED x.addr (n % 16 + x.route.val * 65536) ∧
        u.c.sent = .unsupported x.route.val x.addr :: s.c.sent) ∧
    (control → aligned → n = 4 ∨ n = 8 → regAt (x.addr / 8 * 8) = none →
      ∃ u, exec (.registerWrite x) s = .next u ∧ Refused s u x.route.val x.addr n St.NOT_FOUND) ∧
    (∀ id i j, control → aligned → n = 4 ∨ n = 8 → regAt (x.addr / 8 * 8) = some (id, i, j) → id ∉ ownRules →
      let a := x.addr / 8 * 8
      let from_ := 8 * (x.addr % 8)
      let locked := s.c.regLocked id i
      let put (k : Nat) : Option Bool := if from_ ≤ k ∧ k < from_ + 8 * n then some (nbit (ofBytes x.data) (k - from_)) else none
      let told := locked = true ∧ ∃ f ∈ regFields id, f.acc = .rwl ∧ ∃ k, f.lo ≤ k ∧ k < f.lo + f.w ∧
        writtenBit .rw false ((s.c.word a).getLsbD k) (put k) ≠ (s.c.word a).getLsbD k;
      ∃ u, exec (.registerWrite x) s = .next u ∧ OnlyWords s u [a] ∧
        (∀ f ∈ regFields id, ∀ k, f.lo ≤ k → k < f.lo + f.w →
          (u.c.word a).getLsbD k = writtenBit f.acc locked ((s.c.word a).getLsbD k) (put k)) ∧
        (∀ k, (∀ f ∈ regFields id, ¬ (f.lo ≤ k ∧ k < f.lo + f.w)) → (u.c.word a).getLsbD k = (s.c.word a).getLsbD k) ∧
        (told → ∃ e ∈ u.c.flt.inflight, e.src = Src.REG_REFUSED ∧ e.d4 = x.addr ∧ e.d5 = n % 16 + St.BUSY * 256 + x.route.val * 65536) ∧
        (¬ told → u.c.flt = s.c.flt)) ∧
    (∀ d j, control → aligned → n = 4 ∨ n = 8 → regAt (x.addr / 8 * 8) = some (.DOM_ARITH, d, j) →
      ∃ u, exec (.registerWrite x) s = .next u ∧ OnlyWords s u [DOM_ARITH.addr d, DOM_DET_SIG.addr d] ∧
        u.c.bit (DOM_ARITH.STRICT d) = (if x.addr % 8 = 0 ∧ s.c.regLocked .DOM_ARITH d = false
          then nbit (ofBytes x.data) 0 else s.c.bit (DOM_ARITH.STRICT d)) ∧
        (∀ k, 0 < k → k < 64 → (u.c.word (DOM_ARITH.addr d)).getLsbD k = (s.c.word (DOM_ARITH.addr d)).getLsbD k) ∧
        u.c.rdWord (DOM_DET_SIG.addr d) =
          s.c.rdWord GLB_DET_SIG.addr % 2 ^ 56 + u.c.rdWord (DOM_ARITH.addr d) % 256 * 2 ^ 56) ∧
    (¬ control → inside → x.contiguous = true → x.addr % 4 = 0 → n % 4 = 0 → 8 < n →
      (x.bar = .bar0 → (winAt x.addr).1 = (winAt (x.addr + n - 1)).1 ∧ ∀ b, (winAt x.addr).1 ≠ .unused b) →
      (x.bar = .bar2 → unit2 x.addr = unit2 (x.addr + n - 1)) →
      let k := if x.addr % 8 = 0 then 8 else 4;
      ∃ v, exec (.registerWrite { x with data := x.data.take k }) s = .next v ∧
        exec (.registerWrite x) s = exec (.registerWrite { x with addr := x.addr + k, data := x.data.drop k }) v ∧
        ∀ p : Peer, ∃ bs d, s.dev.busRead p x.bar x.addr k = (some bs, d) ∧ s.dev.busRead p x.bar x.addr n =
          ((d.busRead p x.bar (x.addr + k) (n - k)).1.map (fun cs => bs ++ cs), (d.busRead p x.bar (x.addr + k) (n - k)).2)) ∧
    (x.bar = .bar2 → oneAccess x.addr n → x.contiguous = true → x.addr < 0x8_0000 →
      let box := x.addr / 0x8000
      let bad := if x.route.val ≠ 0 ∨ 0x4000 ≤ x.addr % 0x8000 then some St.DENIED
        else if s.c.bit (MBX_DOORBELL.BUSY box) = true then some St.BUSY else none;
      ∃ u, exec (.registerWrite x) s = .next u ∧
        (∀ st, bad = some st → Refused s u x.route.val x.addr n st) ∧
        (bad = none → OnlyWords s u [] ∧ ∀ b, u.c.byte2 b =
          if x.addr ≤ b ∧ b < x.addr + n then x.data.getD (b - x.addr) 0 else s.c.byte2 b))

/-- What the I3C target answers on the bus, while it has an address. -/
def I3cAnswers (s : State) (i : Instr) (bs : List Byte) : Prop :=
  (s.c.i3c.addr = none → exec i s = .next s) ∧
  (s.c.i3c.addr.isSome = true → exec i s = .next (s.withC (s.c.emit (.i3c bs))))

/-- A JTAG instruction that selects the bypass register: it captures 0. -/
def TapBypass (s : State) (i : Instr) (ir : Nat) : Prop :=
  exec i s = .next (s.withC ((s.c.setIr ir).emit (.jtag 0)))

/-- A boundary scan: 87 cells are captured, each input cell from its pin, and the 87 bits shifted in wait in
the update latches; a pin that the model does not hold captures a free value. -/
def TapScan (s : State) (i : Instr) (ir : Nat) (cells : List Bool) : Prop :=
  ∃ u, ∃ out : Nat, exec i s = .next u ∧ u.pending = s.pending ∧ u.dev.ram = s.dev.ram ∧ u.c.bar0 = s.c.bar0 ∧
    u.c.jtag = { ir := ir, cells := cells } ∧ u.c.sent = .jtag out :: s.c.sent ∧ out < 2 ^ 87 ∧
    nbit out 1 = !s.c.host.perst ∧ nbit out 2 = !s.c.bit CIR_FSTOP_STATUS.A ∧ nbit out 3 = !s.c.bit CIR_FSTOP_STATUS.B ∧
    nbit out 4 = !s.c.bit TWN_STATUS.PRESENT ∧ nbit out 8 = s.c.faultPin ∧ nbit out 11 = s.c.bit PWR_WAKE_REASON.WAKE_N ∧
    nbit out 14 = s.c.presenceOut

/-- R443, R445: the I3C target's identity, addresses and answers, and the TAP's instructions. Values leave the
I3C target most significant byte first, which is the model's own convention (log entry 61).
Rests in part on the model's own choices (log entries 12, 90, 91). -/
def Obligations.BoardPorts : Prop :=
  ∀ (s : State),
    let pid := 0x1E5C * 2 ^ 33 + 2 ^ 32 + (Config.i3cRandom s.c.i3c.pid).toNat
    let msb (n v : Nat) : List Byte := (toBytes n v).reverse
    let addressed := s.c.i3c.addr.isSome = true
    let set (i : Instr) (f : I3c) : Prop := (¬ addressed → exec i s = .next s) ∧
      (addressed → exec i s = .next (s.withC { s.c with i3c := f }));
    (∀ da : BitVec 7, (addressed → exec (.entdaa da) s = .next s) ∧
      (¬ addressed → ∃ u, exec (.entdaa da) s = .next u ∧ OnlyWords s u [] ∧ u.c.i3c = { s.c.i3c with addr := some da.toNat } ∧
        u.c.sent = .i3c (msb 6 pid ++ [0x06, 0x00]) :: s.c.sent)) ∧
    set .rstdaa { s.c.i3c with addr := none } ∧
    (∀ da : BitVec 7, set (.setnewda da) { s.c.i3c with addr := some da.toNat }) ∧
    (∀ ev : Byte, set (.enec ev) { s.c.i3c with events := s.c.i3c.events ||| (ev.toNat % 2) }) ∧
    (∀ ev : Byte, set (.disec ev) { s.c.i3c with events := if ev.toNat % 2 = 1 then 0 else s.c.i3c.events }) ∧
    I3cAnswers s .getpid (msb 6 pid) ∧ I3cAnswers s .getbcr [0x06] ∧ I3cAnswers s .getdcr [0x00] ∧
    I3cAnswers s .getmrl (msb 2 1056) ∧ I3cAnswers s .getmwl (msb 2 1056) ∧
    (¬ addressed → exec .getstatus s = .next s) ∧
    (addressed → ∃ u bs, exec .getstatus s = .next u ∧ OnlyWords s u [] ∧ bs.length = 2 ∧ u.c.sent = .i3c bs :: s.c.sent) ∧
    (exec .idcode s = .next (s.withC ((s.c.setIr 0x01).emit (.jtag (if s.c.fuse.stepA1 = true then 0x148320E7 else 0x248320E7))))) ∧
    (∀ cells : List Bool, cells.length = 87 → TapScan s (.samplePreload cells) 0x02 cells ∧
      (s.c.pwr = Pwr.AUX → TapScan s (.extest cells) 0x00 cells) ∧
      (s.c.pwr ≠ Pwr.AUX → TapBypass s (.extest cells) 0x00)) ∧
    TapBypass s .clamp 0x04 ∧ TapBypass s .highz 0x05 ∧
    (∀ ir : BitVec 8, ir.toNat ∉ [0x00, 0x01, 0x02, 0x04, 0x05] → TapBypass s (.bypass ir) ir.toNat) ∧
    (∀ ir cell, let c := s.c.setIr ir
      let on := s.c.pwr = Pwr.AUX;
      (ir = 0x00 ∨ ir = 0x04 → on → c.scanDrive cell = some (if s.c.jtag.cells.getD (cell + 1) false = true
        then some (s.c.jtag.cells.getD cell false) else none)) ∧
      (ir = 0x05 → on → c.scanDrive cell = some none) ∧
      (¬ on ∨ (ir ≠ 0x00 ∧ ir ≠ 0x04 ∧ ir ≠ 0x05) → c.scanDrive cell = none))

/-! ## The block as a whole -/

/-- A step carries out the command at the front of the queue with the queue's rest; with none waiting one core
cycle passes, up to the last of the slot (the model's own choice, log entry 3). -/
def Obligations.StepRunsCommand : Prop :=
  ∀ (s : State) (c : Instr), step { s with pending := c :: s.pending } = exec c s ∧
    (s.pending = [] → ∃ u, step s = .next u ∧ u.pending = [] ∧ u.dev.ram = s.dev.ram ∧
      u.c = { s.c with cyc := min (s.c.cyc + 1) (s.c.slotCycles - 1) })

/-- Every command completes, whatever the state, and only the queue's front is taken: the commands behind it wait
as they did. -/
def Obligations.EveryCommandCompletes : Prop :=
  ∀ (s : State) (c : Instr), ∃ u, exec c s = .next u ∧ u.pending = s.pending

/-- R411, R422: after VAUX power-up no command waits, the device is in AUX, nothing is up, every register and
window word has its reset value and the memories list nothing; what the memories then read as is the model's own
choice (log entry 6). -/
def Obligations.ResetState : Prop :=
  State.reset.pending = [] ∧ State.reset.memWf ∧ State.reset.c.pwr = Pwr.AUX ∧ State.reset.dev.ram = {} ∧
    (∀ a, State.reset.c.word a = resetWord State.reset.c.fuse a) ∧
    (∀ n : Fin 64, State.reset.c.sliceLife n.val = Life.OFF) ∧ (∀ l : Fin 48, State.reset.c.linkLife l.val = Life.OFF) ∧
    State.reset.c.rd MER_SLOT_CFG.CORE_CYCLES = 512 ∧ State.reset.c.inSafe = false ∧ State.reset.c.faultPin = true ∧
    State.reset.c.eng = [] ∧ State.reset.c.links = [] ∧ State.reset.c.ops = [] ∧ State.reset.c.flt.inflight = []

/-- Whatever a step does, DRAM and staging SRAM stay in canonical form: addresses strictly rising, and no entry equal
to what an unlisted address reads as. -/
def Obligations.MemoryKept : Prop :=
  ∀ s t : State, s.memWf → step s = .next t → t.memWf
end

