-- ==== Sys2Proof/Laws/Dispatch.lean ====
section
/-!
SUPPORT. Which meaning carries out each command: one equation per constructor.
-/

namespace Sys2Proof.Machine

theorem exec_registerWrite (a : Access) (s : State) : exec (.registerWrite a) s = execRegisterWrite a s := by rfl
theorem exec_slotBoundary (s : State) : exec (.slotBoundary) s = execSlotBoundary s := by rfl
theorem exec_alignGo (rt : Route) (v : W64) (s : State) : exec (.alignGo rt v) s = execAlignGo rt v s := by rfl
theorem exec_syncReq (l : Fin 48) (t2 : W64) (t3 : W64) (s : State) : exec (.syncReq l t2 t3) s = execSyncReq l t2 t3 s := by rfl
theorem exec_syncRsp (l : Fin 48) (t4 : W64) (s : State) : exec (.syncRsp l t4) s = execSyncRsp l t4 s := by rfl
theorem exec_announce (l : Fin 48) (s : State) : exec (.announce l) s = execAnnounce l s := by rfl
theorem exec_syncIntervalExpiry (s : State) : exec (.syncIntervalExpiry) s = execSyncIntervalExpiry s := by rfl
theorem exec_scheduleWindowWrite (rt : Route) (n : Fin 64) (off : BitVec 20) (data : List Byte) (s : State) : exec (.scheduleWindowWrite rt n off data) s = execScheduleWindowWrite rt n off data s := by rfl
theorem exec_bankLoad (s : State) : exec (.bankLoad) s = execBankLoad s := by rfl
theorem exec_bankCheck (s : State) : exec (.bankCheck) s = execBankCheck s := by rfl
theorem exec_phaseNextWrite (rt : Route) (d : Fin 64) (v : W64) (s : State) : exec (.phaseNextWrite rt d v) s = execPhaseNextWrite rt d v s := by rfl
theorem exec_swapArm (rt : Route) (d : Fin 64) (slot : BitVec 56) (s : State) : exec (.swapArm rt d slot) s = execSwapArm rt d slot s := by rfl
theorem exec_swapDisarm (rt : Route) (d : Fin 64) (s : State) : exec (.swapDisarm rt d) s = execSwapDisarm rt d s := by rfl
theorem exec_swapWakeStart (d : Fin 64) (s : State) : exec (.swapWakeStart d) s = execSwapWakeStart d s := by rfl
theorem exec_phaseSwap (d : Fin 64) (s : State) : exec (.phaseSwap d) s = execPhaseSwap d s := by rfl
theorem exec_linkIdleEntry (l : Fin 48) (s : State) : exec (.linkIdleEntry l) s = execLinkIdleEntry l s := by rfl
theorem exec_trainingFrame (l : Fin 48) (words : List W64) (obs : TrainObs) (s : State) : exec (.trainingFrame l words obs) s = execTrainingFrame l words obs s := by rfl
theorem exec_eqTimeout (l : Fin 48) (s : State) : exec (.eqTimeout l) s = execEqTimeout l s := by rfl
theorem exec_trainTimeout (l : Fin 48) (s : State) : exec (.trainTimeout l) s = execTrainTimeout l s := by rfl
theorem exec_losAssert (l : Fin 48) (ln : Fin 8) (s : State) : exec (.losAssert l ln) s = execLosAssert l ln s := by rfl
theorem exec_losDeassert (l : Fin 48) (ln : Fin 8) (s : State) : exec (.losDeassert l ln) s = execLosDeassert l ln s := by rfl
theorem exec_cdrLol (l : Fin 48) (ln : Fin 8) (on : Bool) (s : State) : exec (.cdrLol l ln on) s = execCdrLol l ln on s := by rfl
theorem exec_pllLol (l : Fin 48) (ln : Fin 8) (on : Bool) (s : State) : exec (.pllLol l ln on) s = execPllLol l ln on s := by rfl
theorem exec_fecSym (l : Fin 48) (ln : Fin 8) (s : State) : exec (.fecSym l ln) s = execFecSym l ln s := by rfl
theorem exec_refTrack (l : Fin 48) (ln : Fin 8) (ppm : BitVec 8) (s : State) : exec (.refTrack l ln ppm) s = execRefTrack l ln ppm s := by rfl
theorem exec_idleEnter (l : Fin 48) (s : State) : exec (.idleEnter l) s = execIdleEnter l s := by rfl
theorem exec_wakeFail (l : Fin 48) (s : State) : exec (.wakeFail l) s = execWakeFail l s := by rfl
theorem exec_patternSelect (rt : Route) (l : Fin 48) (ln : Fin 8) (v : W64) (s : State) : exec (.patternSelect rt l ln v) s = execPatternSelect rt l ln v s := by rfl
theorem exec_prbsClear (rt : Route) (l : Fin 48) (ln : Fin 8) (v : W64) (s : State) : exec (.prbsClear rt l ln v) s = execPrbsClear rt l ln v s := by rfl
theorem exec_prbsSync (l : Fin 48) (ln : Fin 8) (bits : List Bool) (s : State) : exec (.prbsSync l ln bits) s = execPrbsSync l ln bits s := by rfl
theorem exec_injectGo (rt : Route) (l : Fin 48) (ln : Fin 8) (v : W64) (s : State) : exec (.injectGo rt l ln v) s = execInjectGo rt l ln v s := by rfl
theorem exec_periodicInjection (l : Fin 48) (ln : Fin 8) (s : State) : exec (.periodicInjection l ln) s = execPeriodicInjection l ln s := by rfl
theorem exec_autoMarginScan (l : Fin 48) (ln : Fin 8) (height : BitVec 8) (width : BitVec 6) (s : State) : exec (.autoMarginScan l ln height width) s = execAutoMarginScan l ln height width s := by rfl
theorem exec_marginGo (rt : Route) (l : Fin 48) (ln : Fin 8) (v : W64) (s : State) : exec (.marginGo rt l ln v) s = execMarginGo rt l ln v s := by rfl
theorem exec_marginDone (l : Fin 48) (ln : Fin 8) (errors : Nat) (s : State) : exec (.marginDone l ln errors) s = execMarginDone l ln errors s := by rfl
theorem exec_blockReceive (l : Fin 48) (lanes : List (List Byte)) (s : State) : exec (.blockReceive l lanes) s = execBlockReceive l lanes s := by rfl
theorem exec_replayTimeout (l : Fin 48) (s : State) : exec (.replayTimeout l) s = execReplayTimeout l s := by rfl
theorem exec_linkDown (l : Fin 48) (s : State) : exec (.linkDown l) s = execLinkDown l s := by rfl
theorem exec_linkRetrain (l : Fin 48) (s : State) : exec (.linkRetrain l) s = execLinkRetrain l s := by rfl
theorem exec_capsRecord (l : Fin 48) (sentNs : Nat) (rxNs : Nat) (s : State) : exec (.capsRecord l sentNs rxNs) s = execCapsRecord l sentNs rxNs s := by rfl
theorem exec_capsTimeout (l : Fin 48) (s : State) : exec (.capsTimeout l) s = execCapsTimeout l s := by rfl
theorem exec_packetIngress (inp : Fin 113) (s : State) : exec (.packetIngress inp) s = execPacketIngress inp s := by rfl
theorem exec_egressStart (l : Fin 48) (err : MemErr) (s : State) : exec (.egressStart l err) s = execEgressStart l err s := by rfl
theorem exec_outputArbitration (l : Fin 48) (s : State) : exec (.outputArbitration l) s = execOutputArbitration l s := by rfl
theorem exec_drainEnd (d : Fin 64) (s : State) : exec (.drainEnd d) s = execDrainEnd d s := by rfl
theorem exec_drainStuck (d : Fin 64) (s : State) : exec (.drainStuck d) s = execDrainStuck d s := by rfl
theorem exec_swxGo (rt : Route) (v : W64) (s : State) : exec (.swxGo rt v) s = execSwxGo rt v s := by rfl
theorem exec_zenithClear (rt : Route) (v : W64) (s : State) : exec (.zenithClear rt v) s = execZenithClear rt v s := by rfl
theorem exec_routingTableWrite (rt : Route) (d : Fin 64) (off : BitVec 17) (data : List Byte) (s : State) : exec (.routingTableWrite rt d off data) s = execRoutingTableWrite rt d off data s := by rfl
theorem exec_mgmtRouteWrite (rt : Route) (off : BitVec 15) (data : List Byte) (s : State) : exec (.mgmtRouteWrite rt off data) s = execMgmtRouteWrite rt off data s := by rfl
theorem exec_writeC (ep : Endpoint) (s : State) : exec (.writeC ep) s = execWriteC ep s := by rfl
theorem exec_readReq (ep : Endpoint) (s : State) : exec (.readReq ep) s = execReadReq ep s := by rfl
theorem exec_readRsp (ep : Endpoint) (s : State) : exec (.readRsp ep) s = execReadRsp ep s := by rfl
theorem exec_contrib (n : Fin 64) (s : State) : exec (.contrib n) s = execContrib n s := by rfl
theorem exec_mcast (n : Fin 64) (s : State) : exec (.mcast n) s = execMcast n s := by rfl
theorem exec_zenith (n : Fin 64) (s : State) : exec (.zenith n) s = execZenith n s := by rfl
theorem exec_mgmtCmd (s : State) : exec (.mgmtCmd) s = execMgmtCmd s := by rfl
theorem exec_mgmtRsp (ep : Endpoint) (s : State) : exec (.mgmtRsp ep) s = execMgmtRsp ep s := by rfl
theorem exec_nack (ep : Endpoint) (s : State) : exec (.nack ep) s = execNack ep s := by rfl
theorem exec_credit (ep : Endpoint) (s : State) : exec (.credit ep) s = execCredit ep s := by rfl
theorem exec_e2eTimeout (ep : Endpoint) (txn : Nat) (s : State) : exec (.e2eTimeout ep txn) s = execE2eTimeout ep txn s := by rfl
theorem exec_streamEntryExpiry (ep : Endpoint) (key : StreamKey) (s : State) : exec (.streamEntryExpiry ep key) s = execStreamEntryExpiry ep key s := by rfl
theorem exec_descOpen (s : State) : exec (.descOpen) s = execDescOpen s := by rfl
theorem exec_descriptorWindowWrite (rt : Route) (n : Fin 64) (off : BitVec 17) (data : List Byte) (s : State) : exec (.descriptorWindowWrite rt n off data) s = execDescriptorWindowWrite rt n off data s := by rfl
theorem exec_groupEntryWrite (rt : Route) (d : Fin 64) (off : BitVec 11) (data : List Byte) (s : State) : exec (.groupEntryWrite rt d off data) s = execGroupEntryWrite rt d off data s := by rfl
theorem exec_ticketTake (s : State) : exec (.ticketTake) s = execTicketTake s := by rfl
theorem exec_treeNodeComplete (n : Fin 64) (desc : Fin 512) (chunk : Nat) (level : Nat) (node : Nat) (s : State) : exec (.treeNodeComplete n desc chunk level node) s = execTreeNodeComplete n desc chunk level node s := by rfl
theorem exec_lateLimitExpiry (n : Fin 64) (desc : Fin 512) (chunk : Nat) (s : State) : exec (.lateLimitExpiry n desc chunk) s = execLateLimitExpiry n desc chunk s := by rfl
theorem exec_memberExclude (s : State) : exec (.memberExclude) s = execMemberExclude s := by rfl
theorem exec_memberReplace (s : State) : exec (.memberReplace) s = execMemberReplace s := by rfl
theorem exec_memberReplaceEffect (d : Fin 64) (s : State) : exec (.memberReplaceEffect d) s = execMemberReplaceEffect d s := by rfl
theorem exec_tensorTableWrite (rt : Route) (d : Fin 64) (off : BitVec 19) (data : List Byte) (s : State) : exec (.tensorTableWrite rt d off data) s = execTensorTableWrite rt d off data s := by rfl
theorem exec_tensorLoad (s : State) : exec (.tensorLoad) s = execTensorLoad s := by rfl
theorem exec_pstGo (rt : Route) (d : Fin 64) (v : W64) (s : State) : exec (.pstGo rt d v) s = execPstGo rt d v s := by rfl
theorem exec_pause (rt : Route) (d : Fin 64) (v : W64) (s : State) : exec (.pause rt d v) s = execPause rt d v s := by rfl
theorem exec_pauseEffect (d : Fin 64) (s : State) : exec (.pauseEffect d) s = execPauseEffect d s := by rfl
theorem exec_resolve (rt : Route) (d : Fin 64) (v : W64) (s : State) : exec (.resolve rt d v) s = execResolve rt d v s := by rfl
theorem exec_rollback (rt : Route) (d : Fin 64) (v : W64) (s : State) : exec (.rollback rt d v) s = execRollback rt d v s := by rfl
theorem exec_hsetWordWrite (rt : Route) (d : Fin 64) (h : Fin 256) (w : Fin 8) (v : W64) (s : State) : exec (.hsetWordWrite rt d h w v) s = execHsetWordWrite rt d h w v s := by rfl
theorem exec_outputFormatWrite (rt : Route) (d : Fin 64) (w : Fin 12) (v : W64) (s : State) : exec (.outputFormatWrite rt d w v) s = execOutputFormatWrite rt d w v s := by rfl
theorem exec_factorLatch (d : Fin 64) (t : BitVec 14) (s : State) : exec (.factorLatch d t) s = execFactorLatch d t s := by rfl
theorem exec_updateComplete (n : Fin 64) (s : State) : exec (.updateComplete n) s = execUpdateComplete n s := by rfl
theorem exec_updateTimeout (n : Fin 64) (s : State) : exec (.updateTimeout n) s = execUpdateTimeout n s := by rfl
theorem exec_streamStart (n : Fin 64) (st : Fin 4) (s : State) : exec (.streamStart n st) s = execStreamStart n st s := by rfl
theorem exec_instructionComplete (n : Fin 64) (st : Fin 4) (s : State) : exec (.instructionComplete n st) s = execInstructionComplete n st s := by rfl
theorem exec_semaphoreWaitPass (n : Fin 64) (st : Fin 4) (s : State) : exec (.semaphoreWaitPass n st) s = execSemaphoreWaitPass n st s := by rfl
theorem exec_meridianWaitPass (n : Fin 64) (st : Fin 4) (s : State) : exec (.meridianWaitPass n st) s = execMeridianWaitPass n st s := by rfl
theorem exec_programWatchdog (n : Fin 64) (st : Fin 4) (s : State) : exec (.programWatchdog n st) s = execProgramWatchdog n st s := by rfl
theorem exec_nop (n : Fin 64) (st : Fin 4) (s : State) : exec (.nop n st) s = execNop n st s := by rfl
theorem exec_endC (n : Fin 64) (st : Fin 4) (s : State) : exec (.endC n st) s = execEndC n st s := by rfl
theorem exec_swait (n : Fin 64) (st : Fin 4) (s : State) : exec (.swait n st) s = execSwait n st s := by rfl
theorem exec_sadd (n : Fin 64) (st : Fin 4) (s : State) : exec (.sadd n st) s = execSadd n st s := by rfl
theorem exec_mwait (n : Fin 64) (st : Fin 4) (s : State) : exec (.mwait n st) s = execMwait n st s := by rfl
theorem exec_fence (n : Fin 64) (st : Fin 4) (s : State) : exec (.fence n st) s = execFence n st s := by rfl
theorem exec_nfsig (n : Fin 64) (st : Fin 4) (s : State) : exec (.nfsig n st) s = execNfsig n st s := by rfl
theorem exec_lar (n : Fin 64) (st : Fin 4) (s : State) : exec (.lar n st) s = execLar n st s := by rfl
theorem exec_aadd (n : Fin 64) (st : Fin 4) (s : State) : exec (.aadd n st) s = execAadd n st s := by rfl
theorem exec_loop (n : Fin 64) (st : Fin 4) (s : State) : exec (.loop n st) s = execLoop n st s := by rfl
theorem exec_addC (n : Fin 64) (s : State) : exec (.addC n) s = execAddC n s := by rfl
theorem exec_subC (n : Fin 64) (s : State) : exec (.subC n) s = execSubC n s := by rfl
theorem exec_andC (n : Fin 64) (s : State) : exec (.andC n) s = execAndC n s := by rfl
theorem exec_orC (n : Fin 64) (s : State) : exec (.orC n) s = execOrC n s := by rfl
theorem exec_xorC (n : Fin 64) (s : State) : exec (.xorC n) s = execXorC n s := by rfl
theorem exec_shl (n : Fin 64) (s : State) : exec (.shl n) s = execShl n s := by rfl
theorem exec_shr (n : Fin 64) (s : State) : exec (.shr n) s = execShr n s := by rfl
theorem exec_sar (n : Fin 64) (s : State) : exec (.sar n) s = execSar n s := by rfl
theorem exec_mulC (n : Fin 64) (s : State) : exec (.mulC n) s = execMulC n s := by rfl
theorem exec_mulhu (n : Fin 64) (s : State) : exec (.mulhu n) s = execMulhu n s := by rfl
theorem exec_divu (n : Fin 64) (s : State) : exec (.divu n) s = execDivu n s := by rfl
theorem exec_remu (n : Fin 64) (s : State) : exec (.remu n) s = execRemu n s := by rfl
theorem exec_slt (n : Fin 64) (s : State) : exec (.slt n) s = execSlt n s := by rfl
theorem exec_sltu (n : Fin 64) (s : State) : exec (.sltu n) s = execSltu n s := by rfl
theorem exec_addi (n : Fin 64) (s : State) : exec (.addi n) s = execAddi n s := by rfl
theorem exec_andi (n : Fin 64) (s : State) : exec (.andi n) s = execAndi n s := by rfl
theorem exec_ori (n : Fin 64) (s : State) : exec (.ori n) s = execOri n s := by rfl
theorem exec_xori (n : Fin 64) (s : State) : exec (.xori n) s = execXori n s := by rfl
theorem exec_shli (n : Fin 64) (s : State) : exec (.shli n) s = execShli n s := by rfl
theorem exec_shri (n : Fin 64) (s : State) : exec (.shri n) s = execShri n s := by rfl
theorem exec_li (n : Fin 64) (s : State) : exec (.li n) s = execLi n s := by rfl
theorem exec_lui (n : Fin 64) (s : State) : exec (.lui n) s = execLui n s := by rfl
theorem exec_ld8 (n : Fin 64) (s : State) : exec (.ld8 n) s = execLd8 n s := by rfl
theorem exec_ld16 (n : Fin 64) (s : State) : exec (.ld16 n) s = execLd16 n s := by rfl
theorem exec_ld32 (n : Fin 64) (s : State) : exec (.ld32 n) s = execLd32 n s := by rfl
theorem exec_ld64 (n : Fin 64) (s : State) : exec (.ld64 n) s = execLd64 n s := by rfl
theorem exec_st8 (n : Fin 64) (s : State) : exec (.st8 n) s = execSt8 n s := by rfl
theorem exec_st16 (n : Fin 64) (s : State) : exec (.st16 n) s = execSt16 n s := by rfl
theorem exec_st32 (n : Fin 64) (s : State) : exec (.st32 n) s = execSt32 n s := by rfl
theorem exec_st64 (n : Fin 64) (s : State) : exec (.st64 n) s = execSt64 n s := by rfl
theorem exec_ldf (n : Fin 64) (s : State) : exec (.ldf n) s = execLdf n s := by rfl
theorem exec_stf (n : Fin 64) (s : State) : exec (.stf n) s = execStf n s := by rfl
theorem exec_beq (n : Fin 64) (s : State) : exec (.beq n) s = execBeq n s := by rfl
theorem exec_bne (n : Fin 64) (s : State) : exec (.bne n) s = execBne n s := by rfl
theorem exec_blt (n : Fin 64) (s : State) : exec (.blt n) s = execBlt n s := by rfl
theorem exec_bge (n : Fin 64) (s : State) : exec (.bge n) s = execBge n s := by rfl
theorem exec_bltu (n : Fin 64) (s : State) : exec (.bltu n) s = execBltu n s := by rfl
theorem exec_bgeu (n : Fin 64) (s : State) : exec (.bgeu n) s = execBgeu n s := by rfl
theorem exec_jal (n : Fin 64) (s : State) : exec (.jal n) s = execJal n s := by rfl
theorem exec_jalr (n : Fin 64) (s : State) : exec (.jalr n) s = execJalr n s := by rfl
theorem exec_post (n : Fin 64) (s : State) : exec (.post n) s = execPost n s := by rfl
theorem exec_rdfeat (n : Fin 64) (s : State) : exec (.rdfeat n) s = execRdfeat n s := by rfl
theorem exec_rdsys (n : Fin 64) (s : State) : exec (.rdsys n) s = execRdsys n s := by rfl
theorem exec_mwaitr (n : Fin 64) (s : State) : exec (.mwaitr n) s = execMwaitr n s := by rfl
theorem exec_draw (n : Fin 64) (s : State) : exec (.draw n) s = execDraw n s := by rfl
theorem exec_rdsem (n : Fin 64) (s : State) : exec (.rdsem n) s = execRdsem n s := by rfl
theorem exec_fadd (n : Fin 64) (s : State) : exec (.fadd n) s = execFadd n s := by rfl
theorem exec_fsub (n : Fin 64) (s : State) : exec (.fsub n) s = execFsub n s := by rfl
theorem exec_fmul (n : Fin 64) (s : State) : exec (.fmul n) s = execFmul n s := by rfl
theorem exec_fdiv (n : Fin 64) (s : State) : exec (.fdiv n) s = execFdiv n s := by rfl
theorem exec_fsqrt (n : Fin 64) (s : State) : exec (.fsqrt n) s = execFsqrt n s := by rfl
theorem exec_fma (n : Fin 64) (s : State) : exec (.fma n) s = execFma n s := by rfl
theorem exec_fmin (n : Fin 64) (s : State) : exec (.fmin n) s = execFmin n s := by rfl
theorem exec_fmax (n : Fin 64) (s : State) : exec (.fmax n) s = execFmax n s := by rfl
theorem exec_i2f (n : Fin 64) (s : State) : exec (.i2f n) s = execI2f n s := by rfl
theorem exec_f2i (n : Fin 64) (s : State) : exec (.f2i n) s = execF2i n s := by rfl
theorem exec_feq (n : Fin 64) (s : State) : exec (.feq n) s = execFeq n s := by rfl
theorem exec_flt (n : Fin 64) (s : State) : exec (.flt n) s = execFlt n s := by rfl
theorem exec_fle (n : Fin 64) (s : State) : exec (.fle n) s = execFle n s := by rfl
theorem exec_tload (n : Fin 64) (s : State) : exec (.tload n) s = execTload n s := by rfl
theorem exec_cload (n : Fin 64) (s : State) : exec (.cload n) s = execCload n s := by rfl
theorem exec_czero (n : Fin 64) (s : State) : exec (.czero n) s = execCzero n s := by rfl
theorem exec_mma (n : Fin 64) (check : MmaCheck) (s : State) : exec (.mma n check) s = execMma n check s := by rfl
theorem exec_cstore (n : Fin 64) (s : State) : exec (.cstore n) s = execCstore n s := by rfl
theorem exec_vld (n : Fin 64) (s : State) : exec (.vld n) s = execVld n s := by rfl
theorem exec_vst (n : Fin 64) (s : State) : exec (.vst n) s = execVst n s := by rfl
theorem exec_vbcast (n : Fin 64) (s : State) : exec (.vbcast n) s = execVbcast n s := by rfl
theorem exec_vrng (n : Fin 64) (s : State) : exec (.vrng n) s = execVrng n s := by rfl
theorem exec_vadd (n : Fin 64) (s : State) : exec (.vadd n) s = execVadd n s := by rfl
theorem exec_vsub (n : Fin 64) (s : State) : exec (.vsub n) s = execVsub n s := by rfl
theorem exec_vmul (n : Fin 64) (s : State) : exec (.vmul n) s = execVmul n s := by rfl
theorem exec_vfma (n : Fin 64) (s : State) : exec (.vfma n) s = execVfma n s := by rfl
theorem exec_vdiv (n : Fin 64) (s : State) : exec (.vdiv n) s = execVdiv n s := by rfl
theorem exec_vsqrt (n : Fin 64) (s : State) : exec (.vsqrt n) s = execVsqrt n s := by rfl
theorem exec_vmin (n : Fin 64) (s : State) : exec (.vmin n) s = execVmin n s := by rfl
theorem exec_vmax (n : Fin 64) (s : State) : exec (.vmax n) s = execVmax n s := by rfl
theorem exec_vabs (n : Fin 64) (s : State) : exec (.vabs n) s = execVabs n s := by rfl
theorem exec_vneg (n : Fin 64) (s : State) : exec (.vneg n) s = execVneg n s := by rfl
theorem exec_vsign (n : Fin 64) (s : State) : exec (.vsign n) s = execVsign n s := by rfl
theorem exec_vcmplt (n : Fin 64) (s : State) : exec (.vcmplt n) s = execVcmplt n s := by rfl
theorem exec_vcmpeq (n : Fin 64) (s : State) : exec (.vcmpeq n) s = execVcmpeq n s := by rfl
theorem exec_vsel (n : Fin 64) (s : State) : exec (.vsel n) s = execVsel n s := by rfl
theorem exec_vtid (n : Fin 64) (s : State) : exec (.vtid n) s = execVtid n s := by rfl
theorem exec_viadd (n : Fin 64) (s : State) : exec (.viadd n) s = execViadd n s := by rfl
theorem exec_vand (n : Fin 64) (s : State) : exec (.vand n) s = execVand n s := by rfl
theorem exec_vor (n : Fin 64) (s : State) : exec (.vor n) s = execVor n s := by rfl
theorem exec_vxor (n : Fin 64) (s : State) : exec (.vxor n) s = execVxor n s := by rfl
theorem exec_vshl (n : Fin 64) (s : State) : exec (.vshl n) s = execVshl n s := by rfl
theorem exec_vshr (n : Fin 64) (s : State) : exec (.vshr n) s = execVshr n s := by rfl
theorem exec_vi2f (n : Fin 64) (s : State) : exec (.vi2f n) s = execVi2f n s := by rfl
theorem exec_vf2i (n : Fin 64) (s : State) : exec (.vf2i n) s = execVf2i n s := by rfl
theorem exec_vred (n : Fin 64) (s : State) : exec (.vred n) s = execVred n s := by rfl
theorem exec_vmask (n : Fin 64) (s : State) : exec (.vmask n) s = execVmask n s := by rfl
theorem exec_vstu (n : Fin 64) (s : State) : exec (.vstu n) s = execVstu n s := by rfl
theorem exec_copy (n : Fin 64) (s : State) : exec (.copy n) s = execCopy n s := by rfl
theorem exec_copy2d (n : Fin 64) (s : State) : exec (.copy2d n) s = execCopy2d n s := by rfl
theorem exec_fill (n : Fin 64) (s : State) : exec (.fill n) s = execFill n s := by rfl
theorem exec_ckfeed (n : Fin 64) (s : State) : exec (.ckfeed n) s = execCkfeed n s := by rfl
theorem exec_ckget (n : Fin 64) (s : State) : exec (.ckget n) s = execCkget n s := by rfl
theorem exec_ckput (n : Fin 64) (s : State) : exec (.ckput n) s = execCkput n s := by rfl
theorem exec_tree (n : Fin 64) (s : State) : exec (.tree n) s = execTree n s := by rfl
theorem exec_stopArm (rt : Route) (n : Fin 64) (v : W64) (s : State) : exec (.stopArm rt n v) s = execStopArm rt n v s := by rfl
theorem exec_sliceHalt (n : Fin 64) (s : State) : exec (.sliceHalt n) s = execSliceHalt n s := by rfl
theorem exec_resume (rt : Route) (n : Fin 64) (v : W64) (s : State) : exec (.resume rt n v) s = execResume rt n v s := by rfl
theorem exec_nonfiniteClear (rt : Route) (n : Fin 64) (e : Fin 2) (v : W64) (s : State) : exec (.nonfiniteClear rt n e v) s = execNonfiniteClear rt n e v s := by rfl
theorem exec_debugWindowAccess (rt : Route) (n : Fin 64) (off : BitVec 20) (write : Option (List Byte)) (size : Nat) (s : State) : exec (.debugWindowAccess rt n off write size) s = execDebugWindowAccess rt n off write size s := by rfl
theorem exec_programImageWrite (rt : Route) (n : Fin 64) (off : BitVec 19) (data : List Byte) (s : State) : exec (.programImageWrite rt n off data) s = execProgramImageWrite rt n off data s := by rfl
theorem exec_dramAccess (rq : DramReq) (s : State) : exec (.dramAccess rq) s = execDramAccess rq s := by rfl
theorem exec_patrolScrub (h : Fin 4) (err : MemErr) (s : State) : exec (.patrolScrub h err) s = execPatrolScrub h err s := by rfl
theorem exec_memRetire (rt : Route) (v : W64) (s : State) : exec (.memRetire rt v) s = execMemRetire rt v s := by rfl
theorem exec_relocationDone (stack : Fin 16) (s : State) : exec (.relocationDone stack) s = execRelocationDone stack s := by rfl
theorem exec_refreshWindow (group : Fin 16) (s : State) : exec (.refreshWindow group) s = execRefreshWindow group s := by rfl
theorem exec_stagingScrub (n : Fin 64) (addr : BitVec 26) (err : MemErr) (s : State) : exec (.stagingScrub n addr err) s = execStagingScrub n addr err s := by rfl
theorem exec_bufferRequest (owner : Fin 259) (size : Nat) (s : State) : exec (.bufferRequest owner size) s = execBufferRequest owner size s := by rfl
theorem exec_bufferRelease (owner : Fin 259) (pool : Fin 65) (cls : Fin 4) (buf : Nat) (s : State) : exec (.bufferRelease owner pool cls buf) s = execBufferRelease owner pool cls buf s := by rfl
theorem exec_poolStarved (owner : Fin 259) (s : State) : exec (.poolStarved owner) s = execPoolStarved owner s := by rfl
theorem exec_poolLeak (owner : Fin 259) (s : State) : exec (.poolLeak owner) s = execPoolLeak owner s := by rfl
theorem exec_zeroingDone (d : Fin 64) (s : State) : exec (.zeroingDone d) s = execZeroingDone d s := by rfl
theorem exec_slcCtrlEnable (rt : Route) (n : Fin 64) (s : State) : exec (.slcCtrlEnable rt n) s = execSlcCtrlEnable rt n s := by rfl
theorem exec_slcCtrlDisable (rt : Route) (n : Fin 64) (s : State) : exec (.slcCtrlDisable rt n) s = execSlcCtrlDisable rt n s := by rfl
theorem exec_lnkLifeEnable (rt : Route) (l : Fin 48) (s : State) : exec (.lnkLifeEnable rt l) s = execLnkLifeEnable rt l s := by rfl
theorem exec_lnkLifeDisable (rt : Route) (l : Fin 48) (force : Bool) (s : State) : exec (.lnkLifeDisable rt l force) s = execLnkLifeDisable rt l force s := by rfl
theorem exec_sliceEnable (s : State) : exec (.sliceEnable) s = execSliceEnable s := by rfl
theorem exec_sliceDisable (s : State) : exec (.sliceDisable) s = execSliceDisable s := by rfl
theorem exec_linkEnable (s : State) : exec (.linkEnable) s = execLinkEnable s := by rfl
theorem exec_linkDisable (s : State) : exec (.linkDisable) s = execLinkDisable s := by rfl
theorem exec_startingDone (n : Fin 64) (s : State) : exec (.startingDone n) s = execStartingDone n s := by rfl
theorem exec_sliceReachesOff (n : Fin 64) (s : State) : exec (.sliceReachesOff n) s = execSliceReachesOff n s := by rfl
theorem exec_linkReachesOff (l : Fin 48) (s : State) : exec (.linkReachesOff l) s = execLinkReachesOff l s := by rfl
theorem exec_drainTimeout (unit : LifeUnit) (s : State) : exec (.drainTimeout unit) s = execDrainTimeout unit s := by rfl
theorem exec_twnGo (rt : Route) (v : W64) (s : State) : exec (.twnGo rt v) s = execTwnGo rt v s := by rfl
theorem exec_pairing (s : State) : exec (.pairing) s = execPairing s := by rfl
theorem exec_twinRecord (s : State) : exec (.twinRecord) s = execTwinRecord s := by rfl
theorem exec_heartbeatTimeout (s : State) : exec (.heartbeatTimeout) s = execHeartbeatTimeout s := by rfl
theorem exec_presenceLoss (deasserted : Bool) (s : State) : exec (.presenceLoss deasserted) s = execPresenceLoss deasserted s := by rfl
theorem exec_releaseRecord (n : Fin 64) (s : State) : exec (.releaseRecord n) s = execReleaseRecord n s := by rfl
theorem exec_updateRecord (n : Fin 64) (s : State) : exec (.updateRecord n) s = execUpdateRecord n s := by rfl
theorem exec_exclRecord (n : Fin 64) (s : State) : exec (.exclRecord n) s = execExclRecord n s := by rfl
theorem exec_rerunDone (n : Fin 64) (s : State) : exec (.rerunDone n) s = execRerunDone n s := by rfl
theorem exec_sigWaitExpiry (n : Fin 64) (s : State) : exec (.sigWaitExpiry n) s = execSigWaitExpiry n s := by rfl
theorem exec_mirrorWrite (n : Fin 64) (s : State) : exec (.mirrorWrite n) s = execMirrorWrite n s := by rfl
theorem exec_takeoverRequest (rt : Route) (d : Fin 64) (v : W64) (s : State) : exec (.takeoverRequest rt d v) s = execTakeoverRequest rt d v s := by rfl
theorem exec_mirrorTakeover (d : Fin 64) (s : State) : exec (.mirrorTakeover d) s = execMirrorTakeover d s := by rfl
theorem exec_resilverDone (d : Fin 64) (s : State) : exec (.resilverDone d) s = execResilverDone d s := by rfl
theorem exec_followExit (n : Fin 64) (s : State) : exec (.followExit n) s = execFollowExit n s := by rfl
theorem exec_spareRemap (n : Fin 64) (s : State) : exec (.spareRemap n) s = execSpareRemap n s := by rfl
theorem exec_faultEvent (evs : List HwEvent) (s : State) : exec (.faultEvent evs) s = execFaultEvent evs s := by rfl
theorem exec_recordWrite (s : State) : exec (.recordWrite) s = execRecordWrite s := by rfl
theorem exec_dieFenced (die : Fin 32) (s : State) : exec (.dieFenced die) s = execDieFenced die s := by rfl
theorem exec_dieFenceFail (die : Fin 32) (s : State) : exec (.dieFenceFail die) s = execDieFenceFail die s := by rfl
theorem exec_orderlyStopEnd (s : State) : exec (.orderlyStopEnd) s = execOrderlyStopEnd s := by rfl
theorem exec_safeEntry (s : State) : exec (.safeEntry) s = execSafeEntry s := by rfl
theorem exec_collectorParity (off : BitVec 16) (s : State) : exec (.collectorParity off) s = execCollectorParity off s := by rfl
theorem exec_fltForce (rt : Route) (i : Fin 16) (v : W64) (s : State) : exec (.fltForce rt i v) s = execFltForce rt i v s := by rfl
theorem exec_fltFwReport (v : W64) (s : State) : exec (.fltFwReport v) s = execFltFwReport v s := by rfl
theorem exec_fltActionWrite (rt : Route) (src : Fin 1024) (v : W64) (s : State) : exec (.fltActionWrite rt src v) s = execFltActionWrite rt src v s := by rfl
theorem exec_clearSource (rt : Route) (v : W64) (s : State) : exec (.clearSource rt v) s = execClearSource rt v s := by rfl
theorem exec_clearAll (rt : Route) (v : W64) (s : State) : exec (.clearAll rt v) s = execClearAll rt v s := by rfl
theorem exec_clearFirst (rt : Route) (v : W64) (s : State) : exec (.clearFirst rt v) s = execClearFirst rt v s := by rfl
theorem exec_clearDropped (rt : Route) (v : W64) (s : State) : exec (.clearDropped rt v) s = execClearDropped rt v s := by rfl
theorem exec_ringTailWrite (rt : Route) (v : W64) (s : State) : exec (.ringTailWrite rt v) s = execRingTailWrite rt v s := by rfl
theorem exec_parityTest (rt : Route) (v : W64) (s : State) : exec (.parityTest rt v) s = execParityTest rt v s := by rfl
theorem exec_chkCountClear (rt : Route) (v : W64) (s : State) : exec (.chkCountClear rt v) s = execChkCountClear rt v s := by rfl
theorem exec_mbxDoorbellGo (rt : Route) (m : Fin 16) (v : W64) (s : State) : exec (.mbxDoorbellGo rt m v) s = execMbxDoorbellGo rt m v s := by rfl
theorem exec_hello (s : State) : exec (.hello) s = execHello s := by rfl
theorem exec_getInfo (s : State) : exec (.getInfo) s = execGetInfo s := by rfl
theorem exec_sensorRead (s : State) : exec (.sensorRead) s = execSensorRead s := by rfl
theorem exec_sensorWrite (s : State) : exec (.sensorWrite) s = execSensorWrite s := by rfl
theorem exec_regRead (s : State) : exec (.regRead) s = execRegRead s := by rfl
theorem exec_regWrite (s : State) : exec (.regWrite) s = execRegWrite s := by rfl
theorem exec_fwStage (s : State) : exec (.fwStage) s = execFwStage s := by rfl
theorem exec_fwCommit (s : State) : exec (.fwCommit) s = execFwCommit s := by rfl
theorem exec_resetC (s : State) : exec (.resetC) s = execResetC s := by rfl
theorem exec_sleep (s : State) : exec (.sleep) s = execSleep s := by rfl
theorem exec_wake (s : State) : exec (.wake) s = execWake s := by rfl
theorem exec_wakeComplete (s : State) : exec (.wakeComplete) s = execWakeComplete s := by rfl
theorem exec_wakeHost (s : State) : exec (.wakeHost) s = execWakeHost s := by rfl
theorem exec_threshWrite (s : State) : exec (.threshWrite) s = execThreshWrite s := by rfl
theorem exec_thresholdEntryWrite (rt : Route) (i : Fin 48) (v : W64) (s : State) : exec (.thresholdEntryWrite rt i v) s = execThresholdEntryWrite rt i v s := by rfl
theorem exec_mailboxExpiry (key : MboxKey) (s : State) : exec (.mailboxExpiry key) s = execMailboxExpiry key s := by rfl
theorem exec_bootRom (s : State) : exec (.bootRom) s = execBootRom s := by rfl
theorem exec_bootConfirm (v : W64) (s : State) : exec (.bootConfirm v) s = execBootConfirm v s := by rfl
theorem exec_bootFallback (s : State) : exec (.bootFallback) s = execBootFallback s := by rfl
theorem exec_fwKick (rt : Route) (v : W64) (s : State) : exec (.fwKick rt v) s = execFwKick rt v s := by rfl
theorem exec_fwWatchdog (s : State) : exec (.fwWatchdog) s = execFwWatchdog s := by rfl
theorem exec_restartComplete (s : State) : exec (.restartComplete) s = execRestartComplete s := by rfl
theorem exec_sensorSample (i : Fin 256) (x : Option (BitVec 16)) (s : State) : exec (.sensorSample i x) s = execSensorSample i x s := by rfl
theorem exec_sensorRawWrite (i : Fin 256) (raw : BitVec 16) (s : State) : exec (.sensorRawWrite i raw) s = execSensorRawWrite i raw s := by rfl
theorem exec_sensorFail (i : Fin 256) (s : State) : exec (.sensorFail i) s = execSensorFail i s := by rfl
theorem exec_pwrVsetWrite (rt : Route) (g : Fin 8) (v : W64) (s : State) : exec (.pwrVsetWrite rt g v) s = execPwrVsetWrite rt g v s := by rfl
theorem exec_wakeReasonClear (rt : Route) (v : W64) (s : State) : exec (.wakeReasonClear rt v) s = execWakeReasonClear rt v s := by rfl
theorem exec_wakeNReassert (s : State) : exec (.wakeNReassert) s = execWakeNReassert s := by rfl
theorem exec_hostLinkTrainingStart (s : State) : exec (.hostLinkTrainingStart) s = execHostLinkTrainingStart s := by rfl
theorem exec_fstopSample (a : Bool) (b : Bool) (s : State) : exec (.fstopSample a b) s = execFstopSample a b s := by rfl
theorem exec_fstopDiscFault (s : State) : exec (.fstopDiscFault) s = execFstopDiscFault s := by rfl
theorem exec_refOkSet (s : State) : exec (.refOkSet) s = execRefOkSet s := by rfl
theorem exec_refLoss (s : State) : exec (.refLoss) s = execRefLoss s := by rfl
theorem exec_domainApertureAccess (rt : Route) (off : BitVec 22) (write : Option (List Byte)) (size : Nat) (s : State) : exec (.domainApertureAccess rt off write size) s = execDomainApertureAccess rt off write size s := by rfl
theorem exec_stagingApertureAccess (rt : Route) (off : BitVec 22) (write : Option (List Byte)) (size : Nat) (s : State) : exec (.stagingApertureAccess rt off write size) s = execStagingApertureAccess rt off write size s := by rfl
theorem exec_vauxPowerUp (s : State) : exec (.vauxPowerUp) s = execVauxPowerUp s := by rfl
theorem exec_vauxUndervoltage (s : State) : exec (.vauxUndervoltage) s = execVauxUndervoltage s := by rfl
theorem exec_vinMainUndervoltage (s : State) : exec (.vinMainUndervoltage) s = execVinMainUndervoltage s := by rfl
theorem exec_vinMainOvervoltage (s : State) : exec (.vinMainOvervoltage) s = execVinMainOvervoltage s := by rfl
theorem exec_porstNAssert (s : State) : exec (.porstNAssert) s = execPorstNAssert s := by rfl
theorem exec_controlDieRelease (bootSel : Bool) (s : State) : exec (.controlDieRelease bootSel) s = execControlDieRelease bootSel s := by rfl
theorem exec_startUpStep (ok : Bool) (bad : List Nat) (s : State) : exec (.startUpStep ok bad) s = execStartUpStep ok bad s := by rfl
theorem exec_perstN (asserted : Bool) (s : State) : exec (.perstN asserted) s = execPerstN asserted s := by rfl
theorem exec_functionLevelReset (s : State) : exec (.functionLevelReset) s = execFunctionLevelReset s := by rfl
theorem exec_entdaa (da : BitVec 7) (s : State) : exec (.entdaa da) s = execEntdaa da s := by rfl
theorem exec_rstdaa (s : State) : exec (.rstdaa) s = execRstdaa s := by rfl
theorem exec_setnewda (da : BitVec 7) (s : State) : exec (.setnewda da) s = execSetnewda da s := by rfl
theorem exec_getpid (s : State) : exec (.getpid) s = execGetpid s := by rfl
theorem exec_getbcr (s : State) : exec (.getbcr) s = execGetbcr s := by rfl
theorem exec_getdcr (s : State) : exec (.getdcr) s = execGetdcr s := by rfl
theorem exec_getmrl (s : State) : exec (.getmrl) s = execGetmrl s := by rfl
theorem exec_getmwl (s : State) : exec (.getmwl) s = execGetmwl s := by rfl
theorem exec_enec (events : Byte) (s : State) : exec (.enec events) s = execEnec events s := by rfl
theorem exec_disec (events : Byte) (s : State) : exec (.disec events) s = execDisec events s := by rfl
theorem exec_getstatus (s : State) : exec (.getstatus) s = execGetstatus s := by rfl
theorem exec_extest (cells : List Bool) (s : State) : exec (.extest cells) s = execExtest cells s := by rfl
theorem exec_idcode (s : State) : exec (.idcode) s = execIdcode s := by rfl
theorem exec_samplePreload (cells : List Bool) (s : State) : exec (.samplePreload cells) s = execSamplePreload cells s := by rfl
theorem exec_clamp (s : State) : exec (.clamp) s = execClamp s := by rfl
theorem exec_highz (s : State) : exec (.highz) s = execHighz s := by rfl
theorem exec_bypass (ir : BitVec 8) (s : State) : exec (.bypass ir) s = execBypass ir s := by rfl
theorem exec_vinMainInRange (mv : BitVec 16) (s : State) : exec (.vinMainInRange mv) s = execVinMainInRange mv s := by rfl
theorem exec_i3cPrivateWrite (data : List Byte) (s : State) : exec (.i3cPrivateWrite data) s = execI3cPrivateWrite data s := by rfl
theorem exec_channelInterfaceLost (stack : Fin 16) (chan : Nat) (s : State) : exec (.channelInterfaceLost stack chan) s = execChannelInterfaceLost stack chan s := by rfl
theorem exec_merNowRead (rt : Route) (peer : MboxKey) (half : Option Bool) (s : State) : exec (.merNowRead rt peer half) s = execMerNowRead rt peer half s := by rfl

end Sys2Proof.Machine
end

