-- ==== Sys2Proof/Laws/Table.lean ====
section
/-!
SUPPORT. The laws of the sparse tables and of bit fields: a read after a write, and the canonical form
that every table operation keeps.
-/

namespace Sys2Proof.Machine

/-! ## Read after write -/

theorem tblGet_tblIns {α : Type} (d : Nat → α) (t : Tbl α) (k : Nat) (x : α) (i : Nat) :
    tblGet d (tblIns t k x) i = if i = k then x else tblGet d t i := by
  induction t with
  | nil => rfl
  | cons e t ih =>
    obtain ⟨j, v⟩ := e
    simp only [tblIns]
    split
    · subst_vars; simp only [tblGet]; split <;> rfl
    · split
      · rfl
      · simp only [tblGet, ih]
        split
        · subst_vars; split
          · omega
          · rfl
        · rfl

theorem tblGet_filter {α : Type} (d : Nat → α) (t : Tbl α) (p : Nat → Bool) (i : Nat) :
    tblGet d (t.filter (fun e => p e.1)) i = if p i then tblGet d t i else d i := by
  induction t with
  | nil => simp [tblGet]
  | cons e t ih =>
    obtain ⟨j, v⟩ := e
    by_cases h : p j
    · simp only [List.filter_cons, h, if_true, tblGet, ih]
      by_cases hi : i = j
      · subst hi; simp [h]
      · simp [hi]
    · simp only [List.filter_cons, h, tblGet]
      by_cases hi : i = j
      · subst hi; simp [h, ih]
      · simp [hi, ih]

theorem tblGet_tblDel {α : Type} (d : Nat → α) (t : Tbl α) (k i : Nat) :
    tblGet d (tblDel t k) i = if i = k then d i else tblGet d t i := by
  have := tblGet_filter d t (fun j => decide (j ≠ k)) i
  simp only [tblDel]
  rw [this]
  by_cases h : i = k <;> simp [h]

/-- A read of a sparse table after a write: the value written at its key, the old reading elsewhere. -/
theorem tblGet_tblPut {α : Type} [DecidableEq α] (d : Nat → α) (t : Tbl α) (k : Nat) (x : α) (i : Nat) :
    tblGet d (tblPut d t k x) i = if i = k then x else tblGet d t i := by
  unfold tblPut
  split
  · subst_vars
    rw [tblGet_tblDel]
    split
    · subst_vars; rfl
    · rfl
  · exact tblGet_tblIns d t k x i

@[simp] theorem tblGet_tblPut_same {α : Type} [DecidableEq α] (d : Nat → α) (t : Tbl α) (k : Nat) (x : α) :
    tblGet d (tblPut d t k x) k = x := by simp [tblGet_tblPut]

theorem tblGet_tblPut_ne {α : Type} [DecidableEq α] (d : Nat → α) (t : Tbl α) {k i : Nat} (x : α) (h : i ≠ k) :
    tblGet d (tblPut d t k x) i = tblGet d t i := by simp [tblGet_tblPut, h]

/-! ## The canonical form -/

/-- Every key of a table lies above a bound. -/
def aboveAll {α : Type} : Option Nat → Tbl α → Prop
  | none, _ => True
  | some i, t => ∀ e ∈ t, i < e.1

theorem tblWfFrom_above {α : Type} [DecidableEq α] (d : Nat → α) (t : Tbl α) (b : Option Nat)
    (h : tblWfFrom d b t = true) : aboveAll b t := by
  induction t generalizing b with
  | nil => cases b <;> simp [aboveAll]
  | cons e t ih =>
    obtain ⟨j, v⟩ := e
    cases b with
    | none => trivial
    | some i =>
      simp only [tblWfFrom, Bool.and_eq_true, decide_eq_true_eq] at h
      have h2 := ih _ h.2
      intro e he
      rcases List.mem_cons.mp he with rfl | he
      · exact h.1.1
      · exact Nat.lt_trans h.1.1 (h2 e he)

theorem tblWfFrom_weaken {α : Type} [DecidableEq α] (d : Nat → α) (t : Tbl α) (b c : Option Nat)
    (h : tblWfFrom d b t = true) (hc : aboveAll c t) : tblWfFrom d c t = true := by
  cases t with
  | nil => rfl
  | cons e t =>
    obtain ⟨j, v⟩ := e
    simp only [tblWfFrom, Bool.and_eq_true] at h ⊢
    refine ⟨⟨?_, h.1.2⟩, h.2⟩
    cases c with
    | none => rfl
    | some i => simpa using hc (j, v) (by simp)

theorem tblWfFrom_filter {α : Type} [DecidableEq α] (d : Nat → α) (p : Nat × α → Bool) (t : Tbl α) (b : Option Nat)
    (h : tblWfFrom d b t = true) : tblWfFrom d b (t.filter p) = true := by
  induction t generalizing b with
  | nil => rfl
  | cons e t ih =>
    have ha := tblWfFrom_above d _ b h
    obtain ⟨j, v⟩ := e
    simp only [tblWfFrom, Bool.and_eq_true] at h
    have h2 := ih _ h.2
    simp only [List.filter_cons]
    split
    · simp only [tblWfFrom, Bool.and_eq_true]
      exact ⟨h.1, h2⟩
    · refine tblWfFrom_weaken d _ _ _ h2 ?_
      cases b with
      | none => trivial
      | some i =>
        intro e he
        exact ha e (List.mem_cons_of_mem _ (List.mem_filter.mp he).1)

theorem tblWfFrom_tblIns {α : Type} [DecidableEq α] (d : Nat → α) (t : Tbl α) (b : Option Nat) (k : Nat) (x : α)
    (h : tblWfFrom d b t = true) (hx : x ≠ d k) (hb : ∀ i, b = some i → i < k) :
    tblWfFrom d b (tblIns t k x) = true := by
  induction t generalizing b with
  | nil =>
    simp only [tblIns, tblWfFrom, Bool.and_true, Bool.and_eq_true, decide_eq_true_eq]
    exact ⟨by cases b <;> simp_all, hx⟩
  | cons e t ih =>
    obtain ⟨j, v⟩ := e
    simp only [tblWfFrom, Bool.and_eq_true, decide_eq_true_eq] at h
    simp only [tblIns]
    split
    · subst_vars
      simp only [tblWfFrom, Bool.and_eq_true, decide_eq_true_eq]
      exact ⟨⟨h.1.1, hx⟩, h.2⟩
    · split
      · simp only [tblWfFrom, Bool.and_eq_true, decide_eq_true_eq]
        exact ⟨⟨by cases b <;> simp_all, hx⟩, ⟨by assumption, h.1.2⟩, h.2⟩
      · simp only [tblWfFrom, Bool.and_eq_true, decide_eq_true_eq]
        exact ⟨⟨h.1.1, h.1.2⟩, ih _ h.2 (by intro i hi; cases hi; omega)⟩

/-- Removing entries keeps the canonical form. -/
theorem tblWf_filter {α : Type} [DecidableEq α] (d : Nat → α) (p : Nat × α → Bool) (t : Tbl α)
    (h : tblWf d t = true) : tblWf d (t.filter p) = true := tblWfFrom_filter d p t none h

/-- A write keeps the canonical form. -/
theorem tblWf_tblPut {α : Type} [DecidableEq α] (d : Nat → α) (t : Tbl α) (k : Nat) (x : α)
    (h : tblWf d t = true) : tblWf d (tblPut d t k x) = true := by
  unfold tblPut
  split
  · exact tblWf_filter d _ t h
  · exact tblWfFrom_tblIns d t none k x h (by assumption) (by simp)

/-! ## Bit fields -/

theorem getFld_testBit (x : W64) (lo w i : Nat) :
    (getFld x lo w).testBit i = (decide (i < w) && x.getLsbD (lo + i)) := by
  simp [getFld, Nat.testBit_mod_two_pow, Nat.testBit_shiftRight, BitVec.getLsbD]

theorem setFld_getLsbD (x : W64) (lo w v i : Nat) (h : i < 64) :
    (setFld x lo w v).getLsbD i = if lo ≤ i ∧ i < lo + w then v.testBit (i - lo) else x.getLsbD i := by
  simp only [setFld, BitVec.getLsbD_or, BitVec.getLsbD_and, BitVec.getLsbD_not, BitVec.getLsbD_ofNat,
    Nat.testBit_shiftLeft, Nat.testBit_two_pow_sub_one, Nat.testBit_mod_two_pow, h, decide_true, Bool.true_and]
  by_cases h1 : lo ≤ i <;> by_cases h2 : i < lo + w
  · have : i - lo < w := by omega
    simp [h1, h2, this]
  · have : ¬ i - lo < w := by omega
    simp [h1, h2, this]
  · simp [h1]
  · simp [h1]

/-- A field reads back what was written to it, modulo its width. -/
theorem getFld_setFld_same (x : W64) (lo w v : Nat) (h : lo + w ≤ 64) : getFld (setFld x lo w v) lo w = v % 2 ^ w := by
  apply Nat.eq_of_testBit_eq
  intro i
  rw [getFld_testBit, Nat.testBit_mod_two_pow]
  by_cases hi : i < w
  · rw [setFld_getLsbD _ _ _ _ _ (by omega)]
    simp [hi]
  · simp [hi]

/-- A write of a field leaves every field apart from it. -/
theorem getFld_setFld_apart (x : W64) (lo w v lo' w' : Nat) (h : lo + w ≤ lo' ∨ lo' + w' ≤ lo) :
    getFld (setFld x lo w v) lo' w' = getFld x lo' w' := by
  apply Nat.eq_of_testBit_eq
  intro i
  rw [getFld_testBit, getFld_testBit]
  by_cases hi : i < w'
  · by_cases h64 : lo' + i < 64
    · rw [setFld_getLsbD _ _ _ _ _ h64]
      have : ¬ (lo ≤ lo' + i ∧ lo' + i < lo + w) := by omega
      simp [this]
    · rw [BitVec.getLsbD_of_ge _ _ (by omega), BitVec.getLsbD_of_ge _ _ (by omega)]
  · simp [hi]

theorem getFld_lt (x : W64) (lo w : Nat) : getFld x lo w < 2 ^ w := Nat.mod_lt _ (Nat.two_pow_pos w)

end Sys2Proof.Machine
end

