-- ==== Sys2Proof/Laws/State.lean ====
section
/-!
SUPPORT. What each update of the state leaves as it was: one lemma per field per update.
-/

namespace Sys2Proof.Machine

/-! ## Lifting -/

@[simp] theorem Dev.onCtl_ctl (d : Dev) (f : Ctl → Ctl) : (d.onCtl f).ctl = f d.ctl := by rfl
@[simp] theorem Dev.onCtl_ram (d : Dev) (f : Ctl → Ctl) : (d.onCtl f).ram = d.ram := by rfl
@[simp] theorem Dev.onRam_ctl (d : Dev) (f : Ram → Ram) : (d.onRam f).ctl = d.ctl := by rfl
@[simp] theorem Dev.onRam_ram (d : Dev) (f : Ram → Ram) : (d.onRam f).ram = f d.ram := by rfl

/-! ## setWord -/

@[simp] theorem Ctl.setWord_fuse (s : Ctl) (a : Nat) (v : W64) : (s.setWord a v).fuse = s.fuse := by rfl
@[simp] theorem Ctl.setWord_cyc (s : Ctl) (a : Nat) (v : W64) : (s.setWord a v).cyc = s.cyc := by rfl
@[simp] theorem Ctl.setWord_flt (s : Ctl) (a : Nat) (v : W64) : (s.setWord a v).flt = s.flt := by rfl
@[simp] theorem Ctl.setWord_mer (s : Ctl) (a : Nat) (v : W64) : (s.setWord a v).mer = s.mer := by rfl
@[simp] theorem Ctl.setWord_links (s : Ctl) (a : Nat) (v : W64) : (s.setWord a v).links = s.links := by rfl
@[simp] theorem Ctl.setWord_sw (s : Ctl) (a : Nat) (v : W64) : (s.setWord a v).sw = s.sw := by rfl
@[simp] theorem Ctl.setWord_host (s : Ctl) (a : Nat) (v : W64) : (s.setWord a v).host = s.host := by rfl
@[simp] theorem Ctl.setWord_bar2 (s : Ctl) (a : Nat) (v : W64) : (s.setWord a v).bar2 = s.bar2 := by rfl
@[simp] theorem Ctl.setWord_banks (s : Ctl) (a : Nat) (v : W64) : (s.setWord a v).banks = s.banks := by rfl
@[simp] theorem Ctl.setWord_dom (s : Ctl) (a : Nat) (v : W64) : (s.setWord a v).dom = s.dom := by rfl
@[simp] theorem Ctl.setWord_net (s : Ctl) (a : Nat) (v : W64) : (s.setWord a v).net = s.net := by rfl
@[simp] theorem Ctl.setWord_mem (s : Ctl) (a : Nat) (v : W64) : (s.setWord a v).mem = s.mem := by rfl
@[simp] theorem Ctl.setWord_pools (s : Ctl) (a : Nat) (v : W64) : (s.setWord a v).pools = s.pools := by rfl
@[simp] theorem Ctl.setWord_pst (s : Ctl) (a : Nat) (v : W64) : (s.setWord a v).pst = s.pst := by rfl
@[simp] theorem Ctl.setWord_upd (s : Ctl) (a : Nat) (v : W64) : (s.setWord a v).upd = s.upd := by rfl
@[simp] theorem Ctl.setWord_ops (s : Ctl) (a : Nat) (v : W64) : (s.setWord a v).ops = s.ops := by rfl
@[simp] theorem Ctl.setWord_opCount (s : Ctl) (a : Nat) (v : W64) : (s.setWord a v).opCount = s.opCount := by rfl
@[simp] theorem Ctl.setWord_seq (s : Ctl) (a : Nat) (v : W64) : (s.setWord a v).seq = s.seq := by rfl
@[simp] theorem Ctl.setWord_held (s : Ctl) (a : Nat) (v : W64) : (s.setWord a v).held = s.held := by rfl
@[simp] theorem Ctl.setWord_twinRecs (s : Ctl) (a : Nat) (v : W64) : (s.setWord a v).twinRecs = s.twinRecs := by rfl
@[simp] theorem Ctl.setWord_tw (s : Ctl) (a : Nat) (v : W64) : (s.setWord a v).tw = s.tw := by rfl
@[simp] theorem Ctl.setWord_eng (s : Ctl) (a : Nat) (v : W64) : (s.setWord a v).eng = s.eng := by rfl
@[simp] theorem Ctl.setWord_life (s : Ctl) (a : Nat) (v : W64) : (s.setWord a v).life = s.life := by rfl
@[simp] theorem Ctl.setWord_fw (s : Ctl) (a : Nat) (v : W64) : (s.setWord a v).fw = s.fw := by rfl
@[simp] theorem Ctl.setWord_boot (s : Ctl) (a : Nat) (v : W64) : (s.setWord a v).boot = s.boot := by rfl
@[simp] theorem Ctl.setWord_cir (s : Ctl) (a : Nat) (v : W64) : (s.setWord a v).cir = s.cir := by rfl
@[simp] theorem Ctl.setWord_i3c (s : Ctl) (a : Nat) (v : W64) : (s.setWord a v).i3c = s.i3c := by rfl
@[simp] theorem Ctl.setWord_jtag (s : Ctl) (a : Nat) (v : W64) : (s.setWord a v).jtag = s.jtag := by rfl
@[simp] theorem Ctl.setWord_opExcl (s : Ctl) (a : Nat) (v : W64) : (s.setWord a v).opExcl = s.opExcl := by rfl
@[simp] theorem Ctl.setWord_routeLow (s : Ctl) (a : Nat) (v : W64) : (s.setWord a v).routeLow = s.routeLow := by rfl
@[simp] theorem Ctl.setWord_flash (s : Ctl) (a : Nat) (v : W64) : (s.setWord a v).flash = s.flash := by rfl
@[simp] theorem Ctl.setWord_sent (s : Ctl) (a : Nat) (v : W64) : (s.setWord a v).sent = s.sent := by rfl
@[simp] theorem Ctl.setWord_freeN (s : Ctl) (a : Nat) (v : W64) : (s.setWord a v).freeN = s.freeN := by rfl

/-! ## wr -/

@[simp] theorem Ctl.wr_fuse (s : Ctl) (f : FRef) (v : Nat) : (s.wr f v).fuse = s.fuse := by rfl
@[simp] theorem Ctl.wr_cyc (s : Ctl) (f : FRef) (v : Nat) : (s.wr f v).cyc = s.cyc := by rfl
@[simp] theorem Ctl.wr_flt (s : Ctl) (f : FRef) (v : Nat) : (s.wr f v).flt = s.flt := by rfl
@[simp] theorem Ctl.wr_mer (s : Ctl) (f : FRef) (v : Nat) : (s.wr f v).mer = s.mer := by rfl
@[simp] theorem Ctl.wr_links (s : Ctl) (f : FRef) (v : Nat) : (s.wr f v).links = s.links := by rfl
@[simp] theorem Ctl.wr_sw (s : Ctl) (f : FRef) (v : Nat) : (s.wr f v).sw = s.sw := by rfl
@[simp] theorem Ctl.wr_host (s : Ctl) (f : FRef) (v : Nat) : (s.wr f v).host = s.host := by rfl
@[simp] theorem Ctl.wr_bar2 (s : Ctl) (f : FRef) (v : Nat) : (s.wr f v).bar2 = s.bar2 := by rfl
@[simp] theorem Ctl.wr_banks (s : Ctl) (f : FRef) (v : Nat) : (s.wr f v).banks = s.banks := by rfl
@[simp] theorem Ctl.wr_dom (s : Ctl) (f : FRef) (v : Nat) : (s.wr f v).dom = s.dom := by rfl
@[simp] theorem Ctl.wr_net (s : Ctl) (f : FRef) (v : Nat) : (s.wr f v).net = s.net := by rfl
@[simp] theorem Ctl.wr_mem (s : Ctl) (f : FRef) (v : Nat) : (s.wr f v).mem = s.mem := by rfl
@[simp] theorem Ctl.wr_pools (s : Ctl) (f : FRef) (v : Nat) : (s.wr f v).pools = s.pools := by rfl
@[simp] theorem Ctl.wr_pst (s : Ctl) (f : FRef) (v : Nat) : (s.wr f v).pst = s.pst := by rfl
@[simp] theorem Ctl.wr_upd (s : Ctl) (f : FRef) (v : Nat) : (s.wr f v).upd = s.upd := by rfl
@[simp] theorem Ctl.wr_ops (s : Ctl) (f : FRef) (v : Nat) : (s.wr f v).ops = s.ops := by rfl
@[simp] theorem Ctl.wr_opCount (s : Ctl) (f : FRef) (v : Nat) : (s.wr f v).opCount = s.opCount := by rfl
@[simp] theorem Ctl.wr_seq (s : Ctl) (f : FRef) (v : Nat) : (s.wr f v).seq = s.seq := by rfl
@[simp] theorem Ctl.wr_held (s : Ctl) (f : FRef) (v : Nat) : (s.wr f v).held = s.held := by rfl
@[simp] theorem Ctl.wr_twinRecs (s : Ctl) (f : FRef) (v : Nat) : (s.wr f v).twinRecs = s.twinRecs := by rfl
@[simp] theorem Ctl.wr_tw (s : Ctl) (f : FRef) (v : Nat) : (s.wr f v).tw = s.tw := by rfl
@[simp] theorem Ctl.wr_eng (s : Ctl) (f : FRef) (v : Nat) : (s.wr f v).eng = s.eng := by rfl
@[simp] theorem Ctl.wr_life (s : Ctl) (f : FRef) (v : Nat) : (s.wr f v).life = s.life := by rfl
@[simp] theorem Ctl.wr_fw (s : Ctl) (f : FRef) (v : Nat) : (s.wr f v).fw = s.fw := by rfl
@[simp] theorem Ctl.wr_boot (s : Ctl) (f : FRef) (v : Nat) : (s.wr f v).boot = s.boot := by rfl
@[simp] theorem Ctl.wr_cir (s : Ctl) (f : FRef) (v : Nat) : (s.wr f v).cir = s.cir := by rfl
@[simp] theorem Ctl.wr_i3c (s : Ctl) (f : FRef) (v : Nat) : (s.wr f v).i3c = s.i3c := by rfl
@[simp] theorem Ctl.wr_jtag (s : Ctl) (f : FRef) (v : Nat) : (s.wr f v).jtag = s.jtag := by rfl
@[simp] theorem Ctl.wr_opExcl (s : Ctl) (f : FRef) (v : Nat) : (s.wr f v).opExcl = s.opExcl := by rfl
@[simp] theorem Ctl.wr_routeLow (s : Ctl) (f : FRef) (v : Nat) : (s.wr f v).routeLow = s.routeLow := by rfl
@[simp] theorem Ctl.wr_flash (s : Ctl) (f : FRef) (v : Nat) : (s.wr f v).flash = s.flash := by rfl
@[simp] theorem Ctl.wr_sent (s : Ctl) (f : FRef) (v : Nat) : (s.wr f v).sent = s.sent := by rfl
@[simp] theorem Ctl.wr_freeN (s : Ctl) (f : FRef) (v : Nat) : (s.wr f v).freeN = s.freeN := by rfl

/-! ## wrB -/

@[simp] theorem Ctl.wrB_fuse (s : Ctl) (f : FRef) (b : Bool) : (s.wrB f b).fuse = s.fuse := by rfl
@[simp] theorem Ctl.wrB_cyc (s : Ctl) (f : FRef) (b : Bool) : (s.wrB f b).cyc = s.cyc := by rfl
@[simp] theorem Ctl.wrB_flt (s : Ctl) (f : FRef) (b : Bool) : (s.wrB f b).flt = s.flt := by rfl
@[simp] theorem Ctl.wrB_mer (s : Ctl) (f : FRef) (b : Bool) : (s.wrB f b).mer = s.mer := by rfl
@[simp] theorem Ctl.wrB_links (s : Ctl) (f : FRef) (b : Bool) : (s.wrB f b).links = s.links := by rfl
@[simp] theorem Ctl.wrB_sw (s : Ctl) (f : FRef) (b : Bool) : (s.wrB f b).sw = s.sw := by rfl
@[simp] theorem Ctl.wrB_host (s : Ctl) (f : FRef) (b : Bool) : (s.wrB f b).host = s.host := by rfl
@[simp] theorem Ctl.wrB_bar2 (s : Ctl) (f : FRef) (b : Bool) : (s.wrB f b).bar2 = s.bar2 := by rfl
@[simp] theorem Ctl.wrB_banks (s : Ctl) (f : FRef) (b : Bool) : (s.wrB f b).banks = s.banks := by rfl
@[simp] theorem Ctl.wrB_dom (s : Ctl) (f : FRef) (b : Bool) : (s.wrB f b).dom = s.dom := by rfl
@[simp] theorem Ctl.wrB_net (s : Ctl) (f : FRef) (b : Bool) : (s.wrB f b).net = s.net := by rfl
@[simp] theorem Ctl.wrB_mem (s : Ctl) (f : FRef) (b : Bool) : (s.wrB f b).mem = s.mem := by rfl
@[simp] theorem Ctl.wrB_pools (s : Ctl) (f : FRef) (b : Bool) : (s.wrB f b).pools = s.pools := by rfl
@[simp] theorem Ctl.wrB_pst (s : Ctl) (f : FRef) (b : Bool) : (s.wrB f b).pst = s.pst := by rfl
@[simp] theorem Ctl.wrB_upd (s : Ctl) (f : FRef) (b : Bool) : (s.wrB f b).upd = s.upd := by rfl
@[simp] theorem Ctl.wrB_ops (s : Ctl) (f : FRef) (b : Bool) : (s.wrB f b).ops = s.ops := by rfl
@[simp] theorem Ctl.wrB_opCount (s : Ctl) (f : FRef) (b : Bool) : (s.wrB f b).opCount = s.opCount := by rfl
@[simp] theorem Ctl.wrB_seq (s : Ctl) (f : FRef) (b : Bool) : (s.wrB f b).seq = s.seq := by rfl
@[simp] theorem Ctl.wrB_held (s : Ctl) (f : FRef) (b : Bool) : (s.wrB f b).held = s.held := by rfl
@[simp] theorem Ctl.wrB_twinRecs (s : Ctl) (f : FRef) (b : Bool) : (s.wrB f b).twinRecs = s.twinRecs := by rfl
@[simp] theorem Ctl.wrB_tw (s : Ctl) (f : FRef) (b : Bool) : (s.wrB f b).tw = s.tw := by rfl
@[simp] theorem Ctl.wrB_eng (s : Ctl) (f : FRef) (b : Bool) : (s.wrB f b).eng = s.eng := by rfl
@[simp] theorem Ctl.wrB_life (s : Ctl) (f : FRef) (b : Bool) : (s.wrB f b).life = s.life := by rfl
@[simp] theorem Ctl.wrB_fw (s : Ctl) (f : FRef) (b : Bool) : (s.wrB f b).fw = s.fw := by rfl
@[simp] theorem Ctl.wrB_boot (s : Ctl) (f : FRef) (b : Bool) : (s.wrB f b).boot = s.boot := by rfl
@[simp] theorem Ctl.wrB_cir (s : Ctl) (f : FRef) (b : Bool) : (s.wrB f b).cir = s.cir := by rfl
@[simp] theorem Ctl.wrB_i3c (s : Ctl) (f : FRef) (b : Bool) : (s.wrB f b).i3c = s.i3c := by rfl
@[simp] theorem Ctl.wrB_jtag (s : Ctl) (f : FRef) (b : Bool) : (s.wrB f b).jtag = s.jtag := by rfl
@[simp] theorem Ctl.wrB_opExcl (s : Ctl) (f : FRef) (b : Bool) : (s.wrB f b).opExcl = s.opExcl := by rfl
@[simp] theorem Ctl.wrB_routeLow (s : Ctl) (f : FRef) (b : Bool) : (s.wrB f b).routeLow = s.routeLow := by rfl
@[simp] theorem Ctl.wrB_flash (s : Ctl) (f : FRef) (b : Bool) : (s.wrB f b).flash = s.flash := by rfl
@[simp] theorem Ctl.wrB_sent (s : Ctl) (f : FRef) (b : Bool) : (s.wrB f b).sent = s.sent := by rfl
@[simp] theorem Ctl.wrB_freeN (s : Ctl) (f : FRef) (b : Bool) : (s.wrB f b).freeN = s.freeN := by rfl

/-! ## sat -/

@[simp] theorem Ctl.sat_fuse (s : Ctl) (f : FRef) (k : Nat) : (s.sat f k).fuse = s.fuse := by rfl
@[simp] theorem Ctl.sat_cyc (s : Ctl) (f : FRef) (k : Nat) : (s.sat f k).cyc = s.cyc := by rfl
@[simp] theorem Ctl.sat_flt (s : Ctl) (f : FRef) (k : Nat) : (s.sat f k).flt = s.flt := by rfl
@[simp] theorem Ctl.sat_mer (s : Ctl) (f : FRef) (k : Nat) : (s.sat f k).mer = s.mer := by rfl
@[simp] theorem Ctl.sat_links (s : Ctl) (f : FRef) (k : Nat) : (s.sat f k).links = s.links := by rfl
@[simp] theorem Ctl.sat_sw (s : Ctl) (f : FRef) (k : Nat) : (s.sat f k).sw = s.sw := by rfl
@[simp] theorem Ctl.sat_host (s : Ctl) (f : FRef) (k : Nat) : (s.sat f k).host = s.host := by rfl
@[simp] theorem Ctl.sat_bar2 (s : Ctl) (f : FRef) (k : Nat) : (s.sat f k).bar2 = s.bar2 := by rfl
@[simp] theorem Ctl.sat_banks (s : Ctl) (f : FRef) (k : Nat) : (s.sat f k).banks = s.banks := by rfl
@[simp] theorem Ctl.sat_dom (s : Ctl) (f : FRef) (k : Nat) : (s.sat f k).dom = s.dom := by rfl
@[simp] theorem Ctl.sat_net (s : Ctl) (f : FRef) (k : Nat) : (s.sat f k).net = s.net := by rfl
@[simp] theorem Ctl.sat_mem (s : Ctl) (f : FRef) (k : Nat) : (s.sat f k).mem = s.mem := by rfl
@[simp] theorem Ctl.sat_pools (s : Ctl) (f : FRef) (k : Nat) : (s.sat f k).pools = s.pools := by rfl
@[simp] theorem Ctl.sat_pst (s : Ctl) (f : FRef) (k : Nat) : (s.sat f k).pst = s.pst := by rfl
@[simp] theorem Ctl.sat_upd (s : Ctl) (f : FRef) (k : Nat) : (s.sat f k).upd = s.upd := by rfl
@[simp] theorem Ctl.sat_ops (s : Ctl) (f : FRef) (k : Nat) : (s.sat f k).ops = s.ops := by rfl
@[simp] theorem Ctl.sat_opCount (s : Ctl) (f : FRef) (k : Nat) : (s.sat f k).opCount = s.opCount := by rfl
@[simp] theorem Ctl.sat_seq (s : Ctl) (f : FRef) (k : Nat) : (s.sat f k).seq = s.seq := by rfl
@[simp] theorem Ctl.sat_held (s : Ctl) (f : FRef) (k : Nat) : (s.sat f k).held = s.held := by rfl
@[simp] theorem Ctl.sat_twinRecs (s : Ctl) (f : FRef) (k : Nat) : (s.sat f k).twinRecs = s.twinRecs := by rfl
@[simp] theorem Ctl.sat_tw (s : Ctl) (f : FRef) (k : Nat) : (s.sat f k).tw = s.tw := by rfl
@[simp] theorem Ctl.sat_eng (s : Ctl) (f : FRef) (k : Nat) : (s.sat f k).eng = s.eng := by rfl
@[simp] theorem Ctl.sat_life (s : Ctl) (f : FRef) (k : Nat) : (s.sat f k).life = s.life := by rfl
@[simp] theorem Ctl.sat_fw (s : Ctl) (f : FRef) (k : Nat) : (s.sat f k).fw = s.fw := by rfl
@[simp] theorem Ctl.sat_boot (s : Ctl) (f : FRef) (k : Nat) : (s.sat f k).boot = s.boot := by rfl
@[simp] theorem Ctl.sat_cir (s : Ctl) (f : FRef) (k : Nat) : (s.sat f k).cir = s.cir := by rfl
@[simp] theorem Ctl.sat_i3c (s : Ctl) (f : FRef) (k : Nat) : (s.sat f k).i3c = s.i3c := by rfl
@[simp] theorem Ctl.sat_jtag (s : Ctl) (f : FRef) (k : Nat) : (s.sat f k).jtag = s.jtag := by rfl
@[simp] theorem Ctl.sat_opExcl (s : Ctl) (f : FRef) (k : Nat) : (s.sat f k).opExcl = s.opExcl := by rfl
@[simp] theorem Ctl.sat_routeLow (s : Ctl) (f : FRef) (k : Nat) : (s.sat f k).routeLow = s.routeLow := by rfl
@[simp] theorem Ctl.sat_flash (s : Ctl) (f : FRef) (k : Nat) : (s.sat f k).flash = s.flash := by rfl
@[simp] theorem Ctl.sat_sent (s : Ctl) (f : FRef) (k : Nat) : (s.sat f k).sent = s.sent := by rfl
@[simp] theorem Ctl.sat_freeN (s : Ctl) (f : FRef) (k : Nat) : (s.sat f k).freeN = s.freeN := by rfl

/-! ## inc -/

@[simp] theorem Ctl.inc_fuse (s : Ctl) (f : FRef) (k : Nat) : (s.inc f k).fuse = s.fuse := by rfl
@[simp] theorem Ctl.inc_cyc (s : Ctl) (f : FRef) (k : Nat) : (s.inc f k).cyc = s.cyc := by rfl
@[simp] theorem Ctl.inc_flt (s : Ctl) (f : FRef) (k : Nat) : (s.inc f k).flt = s.flt := by rfl
@[simp] theorem Ctl.inc_mer (s : Ctl) (f : FRef) (k : Nat) : (s.inc f k).mer = s.mer := by rfl
@[simp] theorem Ctl.inc_links (s : Ctl) (f : FRef) (k : Nat) : (s.inc f k).links = s.links := by rfl
@[simp] theorem Ctl.inc_sw (s : Ctl) (f : FRef) (k : Nat) : (s.inc f k).sw = s.sw := by rfl
@[simp] theorem Ctl.inc_host (s : Ctl) (f : FRef) (k : Nat) : (s.inc f k).host = s.host := by rfl
@[simp] theorem Ctl.inc_bar2 (s : Ctl) (f : FRef) (k : Nat) : (s.inc f k).bar2 = s.bar2 := by rfl
@[simp] theorem Ctl.inc_banks (s : Ctl) (f : FRef) (k : Nat) : (s.inc f k).banks = s.banks := by rfl
@[simp] theorem Ctl.inc_dom (s : Ctl) (f : FRef) (k : Nat) : (s.inc f k).dom = s.dom := by rfl
@[simp] theorem Ctl.inc_net (s : Ctl) (f : FRef) (k : Nat) : (s.inc f k).net = s.net := by rfl
@[simp] theorem Ctl.inc_mem (s : Ctl) (f : FRef) (k : Nat) : (s.inc f k).mem = s.mem := by rfl
@[simp] theorem Ctl.inc_pools (s : Ctl) (f : FRef) (k : Nat) : (s.inc f k).pools = s.pools := by rfl
@[simp] theorem Ctl.inc_pst (s : Ctl) (f : FRef) (k : Nat) : (s.inc f k).pst = s.pst := by rfl
@[simp] theorem Ctl.inc_upd (s : Ctl) (f : FRef) (k : Nat) : (s.inc f k).upd = s.upd := by rfl
@[simp] theorem Ctl.inc_ops (s : Ctl) (f : FRef) (k : Nat) : (s.inc f k).ops = s.ops := by rfl
@[simp] theorem Ctl.inc_opCount (s : Ctl) (f : FRef) (k : Nat) : (s.inc f k).opCount = s.opCount := by rfl
@[simp] theorem Ctl.inc_seq (s : Ctl) (f : FRef) (k : Nat) : (s.inc f k).seq = s.seq := by rfl
@[simp] theorem Ctl.inc_held (s : Ctl) (f : FRef) (k : Nat) : (s.inc f k).held = s.held := by rfl
@[simp] theorem Ctl.inc_twinRecs (s : Ctl) (f : FRef) (k : Nat) : (s.inc f k).twinRecs = s.twinRecs := by rfl
@[simp] theorem Ctl.inc_tw (s : Ctl) (f : FRef) (k : Nat) : (s.inc f k).tw = s.tw := by rfl
@[simp] theorem Ctl.inc_eng (s : Ctl) (f : FRef) (k : Nat) : (s.inc f k).eng = s.eng := by rfl
@[simp] theorem Ctl.inc_life (s : Ctl) (f : FRef) (k : Nat) : (s.inc f k).life = s.life := by rfl
@[simp] theorem Ctl.inc_fw (s : Ctl) (f : FRef) (k : Nat) : (s.inc f k).fw = s.fw := by rfl
@[simp] theorem Ctl.inc_boot (s : Ctl) (f : FRef) (k : Nat) : (s.inc f k).boot = s.boot := by rfl
@[simp] theorem Ctl.inc_cir (s : Ctl) (f : FRef) (k : Nat) : (s.inc f k).cir = s.cir := by rfl
@[simp] theorem Ctl.inc_i3c (s : Ctl) (f : FRef) (k : Nat) : (s.inc f k).i3c = s.i3c := by rfl
@[simp] theorem Ctl.inc_jtag (s : Ctl) (f : FRef) (k : Nat) : (s.inc f k).jtag = s.jtag := by rfl
@[simp] theorem Ctl.inc_opExcl (s : Ctl) (f : FRef) (k : Nat) : (s.inc f k).opExcl = s.opExcl := by rfl
@[simp] theorem Ctl.inc_routeLow (s : Ctl) (f : FRef) (k : Nat) : (s.inc f k).routeLow = s.routeLow := by rfl
@[simp] theorem Ctl.inc_flash (s : Ctl) (f : FRef) (k : Nat) : (s.inc f k).flash = s.flash := by rfl
@[simp] theorem Ctl.inc_sent (s : Ctl) (f : FRef) (k : Nat) : (s.inc f k).sent = s.sent := by rfl
@[simp] theorem Ctl.inc_freeN (s : Ctl) (f : FRef) (k : Nat) : (s.inc f k).freeN = s.freeN := by rfl

/-! ## wrWord -/

@[simp] theorem Ctl.wrWord_fuse (s : Ctl) (a v : Nat) : (s.wrWord a v).fuse = s.fuse := by rfl
@[simp] theorem Ctl.wrWord_cyc (s : Ctl) (a v : Nat) : (s.wrWord a v).cyc = s.cyc := by rfl
@[simp] theorem Ctl.wrWord_flt (s : Ctl) (a v : Nat) : (s.wrWord a v).flt = s.flt := by rfl
@[simp] theorem Ctl.wrWord_mer (s : Ctl) (a v : Nat) : (s.wrWord a v).mer = s.mer := by rfl
@[simp] theorem Ctl.wrWord_links (s : Ctl) (a v : Nat) : (s.wrWord a v).links = s.links := by rfl
@[simp] theorem Ctl.wrWord_sw (s : Ctl) (a v : Nat) : (s.wrWord a v).sw = s.sw := by rfl
@[simp] theorem Ctl.wrWord_host (s : Ctl) (a v : Nat) : (s.wrWord a v).host = s.host := by rfl
@[simp] theorem Ctl.wrWord_bar2 (s : Ctl) (a v : Nat) : (s.wrWord a v).bar2 = s.bar2 := by rfl
@[simp] theorem Ctl.wrWord_banks (s : Ctl) (a v : Nat) : (s.wrWord a v).banks = s.banks := by rfl
@[simp] theorem Ctl.wrWord_dom (s : Ctl) (a v : Nat) : (s.wrWord a v).dom = s.dom := by rfl
@[simp] theorem Ctl.wrWord_net (s : Ctl) (a v : Nat) : (s.wrWord a v).net = s.net := by rfl
@[simp] theorem Ctl.wrWord_mem (s : Ctl) (a v : Nat) : (s.wrWord a v).mem = s.mem := by rfl
@[simp] theorem Ctl.wrWord_pools (s : Ctl) (a v : Nat) : (s.wrWord a v).pools = s.pools := by rfl
@[simp] theorem Ctl.wrWord_pst (s : Ctl) (a v : Nat) : (s.wrWord a v).pst = s.pst := by rfl
@[simp] theorem Ctl.wrWord_upd (s : Ctl) (a v : Nat) : (s.wrWord a v).upd = s.upd := by rfl
@[simp] theorem Ctl.wrWord_ops (s : Ctl) (a v : Nat) : (s.wrWord a v).ops = s.ops := by rfl
@[simp] theorem Ctl.wrWord_opCount (s : Ctl) (a v : Nat) : (s.wrWord a v).opCount = s.opCount := by rfl
@[simp] theorem Ctl.wrWord_seq (s : Ctl) (a v : Nat) : (s.wrWord a v).seq = s.seq := by rfl
@[simp] theorem Ctl.wrWord_held (s : Ctl) (a v : Nat) : (s.wrWord a v).held = s.held := by rfl
@[simp] theorem Ctl.wrWord_twinRecs (s : Ctl) (a v : Nat) : (s.wrWord a v).twinRecs = s.twinRecs := by rfl
@[simp] theorem Ctl.wrWord_tw (s : Ctl) (a v : Nat) : (s.wrWord a v).tw = s.tw := by rfl
@[simp] theorem Ctl.wrWord_eng (s : Ctl) (a v : Nat) : (s.wrWord a v).eng = s.eng := by rfl
@[simp] theorem Ctl.wrWord_life (s : Ctl) (a v : Nat) : (s.wrWord a v).life = s.life := by rfl
@[simp] theorem Ctl.wrWord_fw (s : Ctl) (a v : Nat) : (s.wrWord a v).fw = s.fw := by rfl
@[simp] theorem Ctl.wrWord_boot (s : Ctl) (a v : Nat) : (s.wrWord a v).boot = s.boot := by rfl
@[simp] theorem Ctl.wrWord_cir (s : Ctl) (a v : Nat) : (s.wrWord a v).cir = s.cir := by rfl
@[simp] theorem Ctl.wrWord_i3c (s : Ctl) (a v : Nat) : (s.wrWord a v).i3c = s.i3c := by rfl
@[simp] theorem Ctl.wrWord_jtag (s : Ctl) (a v : Nat) : (s.wrWord a v).jtag = s.jtag := by rfl
@[simp] theorem Ctl.wrWord_opExcl (s : Ctl) (a v : Nat) : (s.wrWord a v).opExcl = s.opExcl := by rfl
@[simp] theorem Ctl.wrWord_routeLow (s : Ctl) (a v : Nat) : (s.wrWord a v).routeLow = s.routeLow := by rfl
@[simp] theorem Ctl.wrWord_flash (s : Ctl) (a v : Nat) : (s.wrWord a v).flash = s.flash := by rfl
@[simp] theorem Ctl.wrWord_sent (s : Ctl) (a v : Nat) : (s.wrWord a v).sent = s.sent := by rfl
@[simp] theorem Ctl.wrWord_freeN (s : Ctl) (a v : Nat) : (s.wrWord a v).freeN = s.freeN := by rfl

/-! ## zeroWords -/

@[simp] theorem Ctl.zeroWords_fuse (s : Ctl) (a n : Nat) : (s.zeroWords a n).fuse = s.fuse := by rfl
@[simp] theorem Ctl.zeroWords_cyc (s : Ctl) (a n : Nat) : (s.zeroWords a n).cyc = s.cyc := by rfl
@[simp] theorem Ctl.zeroWords_flt (s : Ctl) (a n : Nat) : (s.zeroWords a n).flt = s.flt := by rfl
@[simp] theorem Ctl.zeroWords_mer (s : Ctl) (a n : Nat) : (s.zeroWords a n).mer = s.mer := by rfl
@[simp] theorem Ctl.zeroWords_links (s : Ctl) (a n : Nat) : (s.zeroWords a n).links = s.links := by rfl
@[simp] theorem Ctl.zeroWords_sw (s : Ctl) (a n : Nat) : (s.zeroWords a n).sw = s.sw := by rfl
@[simp] theorem Ctl.zeroWords_host (s : Ctl) (a n : Nat) : (s.zeroWords a n).host = s.host := by rfl
@[simp] theorem Ctl.zeroWords_bar2 (s : Ctl) (a n : Nat) : (s.zeroWords a n).bar2 = s.bar2 := by rfl
@[simp] theorem Ctl.zeroWords_banks (s : Ctl) (a n : Nat) : (s.zeroWords a n).banks = s.banks := by rfl
@[simp] theorem Ctl.zeroWords_dom (s : Ctl) (a n : Nat) : (s.zeroWords a n).dom = s.dom := by rfl
@[simp] theorem Ctl.zeroWords_net (s : Ctl) (a n : Nat) : (s.zeroWords a n).net = s.net := by rfl
@[simp] theorem Ctl.zeroWords_mem (s : Ctl) (a n : Nat) : (s.zeroWords a n).mem = s.mem := by rfl
@[simp] theorem Ctl.zeroWords_pools (s : Ctl) (a n : Nat) : (s.zeroWords a n).pools = s.pools := by rfl
@[simp] theorem Ctl.zeroWords_pst (s : Ctl) (a n : Nat) : (s.zeroWords a n).pst = s.pst := by rfl
@[simp] theorem Ctl.zeroWords_upd (s : Ctl) (a n : Nat) : (s.zeroWords a n).upd = s.upd := by rfl
@[simp] theorem Ctl.zeroWords_ops (s : Ctl) (a n : Nat) : (s.zeroWords a n).ops = s.ops := by rfl
@[simp] theorem Ctl.zeroWords_opCount (s : Ctl) (a n : Nat) : (s.zeroWords a n).opCount = s.opCount := by rfl
@[simp] theorem Ctl.zeroWords_seq (s : Ctl) (a n : Nat) : (s.zeroWords a n).seq = s.seq := by rfl
@[simp] theorem Ctl.zeroWords_held (s : Ctl) (a n : Nat) : (s.zeroWords a n).held = s.held := by rfl
@[simp] theorem Ctl.zeroWords_twinRecs (s : Ctl) (a n : Nat) : (s.zeroWords a n).twinRecs = s.twinRecs := by rfl
@[simp] theorem Ctl.zeroWords_tw (s : Ctl) (a n : Nat) : (s.zeroWords a n).tw = s.tw := by rfl
@[simp] theorem Ctl.zeroWords_eng (s : Ctl) (a n : Nat) : (s.zeroWords a n).eng = s.eng := by rfl
@[simp] theorem Ctl.zeroWords_life (s : Ctl) (a n : Nat) : (s.zeroWords a n).life = s.life := by rfl
@[simp] theorem Ctl.zeroWords_fw (s : Ctl) (a n : Nat) : (s.zeroWords a n).fw = s.fw := by rfl
@[simp] theorem Ctl.zeroWords_boot (s : Ctl) (a n : Nat) : (s.zeroWords a n).boot = s.boot := by rfl
@[simp] theorem Ctl.zeroWords_cir (s : Ctl) (a n : Nat) : (s.zeroWords a n).cir = s.cir := by rfl
@[simp] theorem Ctl.zeroWords_i3c (s : Ctl) (a n : Nat) : (s.zeroWords a n).i3c = s.i3c := by rfl
@[simp] theorem Ctl.zeroWords_jtag (s : Ctl) (a n : Nat) : (s.zeroWords a n).jtag = s.jtag := by rfl
@[simp] theorem Ctl.zeroWords_opExcl (s : Ctl) (a n : Nat) : (s.zeroWords a n).opExcl = s.opExcl := by rfl
@[simp] theorem Ctl.zeroWords_routeLow (s : Ctl) (a n : Nat) : (s.zeroWords a n).routeLow = s.routeLow := by rfl
@[simp] theorem Ctl.zeroWords_flash (s : Ctl) (a n : Nat) : (s.zeroWords a n).flash = s.flash := by rfl
@[simp] theorem Ctl.zeroWords_sent (s : Ctl) (a n : Nat) : (s.zeroWords a n).sent = s.sent := by rfl
@[simp] theorem Ctl.zeroWords_freeN (s : Ctl) (a n : Nat) : (s.zeroWords a n).freeN = s.freeN := by rfl

/-! ## setByte -/

@[simp] theorem Ctl.setByte_fuse (s : Ctl) (a : Nat) (b : Byte) : (s.setByte a b).fuse = s.fuse := by rfl
@[simp] theorem Ctl.setByte_cyc (s : Ctl) (a : Nat) (b : Byte) : (s.setByte a b).cyc = s.cyc := by rfl
@[simp] theorem Ctl.setByte_flt (s : Ctl) (a : Nat) (b : Byte) : (s.setByte a b).flt = s.flt := by rfl
@[simp] theorem Ctl.setByte_mer (s : Ctl) (a : Nat) (b : Byte) : (s.setByte a b).mer = s.mer := by rfl
@[simp] theorem Ctl.setByte_links (s : Ctl) (a : Nat) (b : Byte) : (s.setByte a b).links = s.links := by rfl
@[simp] theorem Ctl.setByte_sw (s : Ctl) (a : Nat) (b : Byte) : (s.setByte a b).sw = s.sw := by rfl
@[simp] theorem Ctl.setByte_host (s : Ctl) (a : Nat) (b : Byte) : (s.setByte a b).host = s.host := by rfl
@[simp] theorem Ctl.setByte_bar2 (s : Ctl) (a : Nat) (b : Byte) : (s.setByte a b).bar2 = s.bar2 := by rfl
@[simp] theorem Ctl.setByte_banks (s : Ctl) (a : Nat) (b : Byte) : (s.setByte a b).banks = s.banks := by rfl
@[simp] theorem Ctl.setByte_dom (s : Ctl) (a : Nat) (b : Byte) : (s.setByte a b).dom = s.dom := by rfl
@[simp] theorem Ctl.setByte_net (s : Ctl) (a : Nat) (b : Byte) : (s.setByte a b).net = s.net := by rfl
@[simp] theorem Ctl.setByte_mem (s : Ctl) (a : Nat) (b : Byte) : (s.setByte a b).mem = s.mem := by rfl
@[simp] theorem Ctl.setByte_pools (s : Ctl) (a : Nat) (b : Byte) : (s.setByte a b).pools = s.pools := by rfl
@[simp] theorem Ctl.setByte_pst (s : Ctl) (a : Nat) (b : Byte) : (s.setByte a b).pst = s.pst := by rfl
@[simp] theorem Ctl.setByte_upd (s : Ctl) (a : Nat) (b : Byte) : (s.setByte a b).upd = s.upd := by rfl
@[simp] theorem Ctl.setByte_ops (s : Ctl) (a : Nat) (b : Byte) : (s.setByte a b).ops = s.ops := by rfl
@[simp] theorem Ctl.setByte_opCount (s : Ctl) (a : Nat) (b : Byte) : (s.setByte a b).opCount = s.opCount := by rfl
@[simp] theorem Ctl.setByte_seq (s : Ctl) (a : Nat) (b : Byte) : (s.setByte a b).seq = s.seq := by rfl
@[simp] theorem Ctl.setByte_held (s : Ctl) (a : Nat) (b : Byte) : (s.setByte a b).held = s.held := by rfl
@[simp] theorem Ctl.setByte_twinRecs (s : Ctl) (a : Nat) (b : Byte) : (s.setByte a b).twinRecs = s.twinRecs := by rfl
@[simp] theorem Ctl.setByte_tw (s : Ctl) (a : Nat) (b : Byte) : (s.setByte a b).tw = s.tw := by rfl
@[simp] theorem Ctl.setByte_eng (s : Ctl) (a : Nat) (b : Byte) : (s.setByte a b).eng = s.eng := by rfl
@[simp] theorem Ctl.setByte_life (s : Ctl) (a : Nat) (b : Byte) : (s.setByte a b).life = s.life := by rfl
@[simp] theorem Ctl.setByte_fw (s : Ctl) (a : Nat) (b : Byte) : (s.setByte a b).fw = s.fw := by rfl
@[simp] theorem Ctl.setByte_boot (s : Ctl) (a : Nat) (b : Byte) : (s.setByte a b).boot = s.boot := by rfl
@[simp] theorem Ctl.setByte_cir (s : Ctl) (a : Nat) (b : Byte) : (s.setByte a b).cir = s.cir := by rfl
@[simp] theorem Ctl.setByte_i3c (s : Ctl) (a : Nat) (b : Byte) : (s.setByte a b).i3c = s.i3c := by rfl
@[simp] theorem Ctl.setByte_jtag (s : Ctl) (a : Nat) (b : Byte) : (s.setByte a b).jtag = s.jtag := by rfl
@[simp] theorem Ctl.setByte_opExcl (s : Ctl) (a : Nat) (b : Byte) : (s.setByte a b).opExcl = s.opExcl := by rfl
@[simp] theorem Ctl.setByte_routeLow (s : Ctl) (a : Nat) (b : Byte) : (s.setByte a b).routeLow = s.routeLow := by rfl
@[simp] theorem Ctl.setByte_flash (s : Ctl) (a : Nat) (b : Byte) : (s.setByte a b).flash = s.flash := by rfl
@[simp] theorem Ctl.setByte_sent (s : Ctl) (a : Nat) (b : Byte) : (s.setByte a b).sent = s.sent := by rfl
@[simp] theorem Ctl.setByte_freeN (s : Ctl) (a : Nat) (b : Byte) : (s.setByte a b).freeN = s.freeN := by rfl

/-! ## setLink -/

@[simp] theorem Ctl.setLink_fuse (s : Ctl) (n : Nat) (l : LinkSt) : (s.setLink n l).fuse = s.fuse := by rfl
@[simp] theorem Ctl.setLink_bar0 (s : Ctl) (n : Nat) (l : LinkSt) : (s.setLink n l).bar0 = s.bar0 := by rfl
@[simp] theorem Ctl.setLink_cyc (s : Ctl) (n : Nat) (l : LinkSt) : (s.setLink n l).cyc = s.cyc := by rfl
@[simp] theorem Ctl.setLink_flt (s : Ctl) (n : Nat) (l : LinkSt) : (s.setLink n l).flt = s.flt := by rfl
@[simp] theorem Ctl.setLink_mer (s : Ctl) (n : Nat) (l : LinkSt) : (s.setLink n l).mer = s.mer := by rfl
@[simp] theorem Ctl.setLink_sw (s : Ctl) (n : Nat) (l : LinkSt) : (s.setLink n l).sw = s.sw := by rfl
@[simp] theorem Ctl.setLink_host (s : Ctl) (n : Nat) (l : LinkSt) : (s.setLink n l).host = s.host := by rfl
@[simp] theorem Ctl.setLink_bar2 (s : Ctl) (n : Nat) (l : LinkSt) : (s.setLink n l).bar2 = s.bar2 := by rfl
@[simp] theorem Ctl.setLink_banks (s : Ctl) (n : Nat) (l : LinkSt) : (s.setLink n l).banks = s.banks := by rfl
@[simp] theorem Ctl.setLink_dom (s : Ctl) (n : Nat) (l : LinkSt) : (s.setLink n l).dom = s.dom := by rfl
@[simp] theorem Ctl.setLink_net (s : Ctl) (n : Nat) (l : LinkSt) : (s.setLink n l).net = s.net := by rfl
@[simp] theorem Ctl.setLink_mem (s : Ctl) (n : Nat) (l : LinkSt) : (s.setLink n l).mem = s.mem := by rfl
@[simp] theorem Ctl.setLink_pools (s : Ctl) (n : Nat) (l : LinkSt) : (s.setLink n l).pools = s.pools := by rfl
@[simp] theorem Ctl.setLink_pst (s : Ctl) (n : Nat) (l : LinkSt) : (s.setLink n l).pst = s.pst := by rfl
@[simp] theorem Ctl.setLink_upd (s : Ctl) (n : Nat) (l : LinkSt) : (s.setLink n l).upd = s.upd := by rfl
@[simp] theorem Ctl.setLink_ops (s : Ctl) (n : Nat) (l : LinkSt) : (s.setLink n l).ops = s.ops := by rfl
@[simp] theorem Ctl.setLink_opCount (s : Ctl) (n : Nat) (l : LinkSt) : (s.setLink n l).opCount = s.opCount := by rfl
@[simp] theorem Ctl.setLink_seq (s : Ctl) (n : Nat) (l : LinkSt) : (s.setLink n l).seq = s.seq := by rfl
@[simp] theorem Ctl.setLink_held (s : Ctl) (n : Nat) (l : LinkSt) : (s.setLink n l).held = s.held := by rfl
@[simp] theorem Ctl.setLink_twinRecs (s : Ctl) (n : Nat) (l : LinkSt) : (s.setLink n l).twinRecs = s.twinRecs := by rfl
@[simp] theorem Ctl.setLink_tw (s : Ctl) (n : Nat) (l : LinkSt) : (s.setLink n l).tw = s.tw := by rfl
@[simp] theorem Ctl.setLink_eng (s : Ctl) (n : Nat) (l : LinkSt) : (s.setLink n l).eng = s.eng := by rfl
@[simp] theorem Ctl.setLink_life (s : Ctl) (n : Nat) (l : LinkSt) : (s.setLink n l).life = s.life := by rfl
@[simp] theorem Ctl.setLink_fw (s : Ctl) (n : Nat) (l : LinkSt) : (s.setLink n l).fw = s.fw := by rfl
@[simp] theorem Ctl.setLink_boot (s : Ctl) (n : Nat) (l : LinkSt) : (s.setLink n l).boot = s.boot := by rfl
@[simp] theorem Ctl.setLink_cir (s : Ctl) (n : Nat) (l : LinkSt) : (s.setLink n l).cir = s.cir := by rfl
@[simp] theorem Ctl.setLink_i3c (s : Ctl) (n : Nat) (l : LinkSt) : (s.setLink n l).i3c = s.i3c := by rfl
@[simp] theorem Ctl.setLink_jtag (s : Ctl) (n : Nat) (l : LinkSt) : (s.setLink n l).jtag = s.jtag := by rfl
@[simp] theorem Ctl.setLink_opExcl (s : Ctl) (n : Nat) (l : LinkSt) : (s.setLink n l).opExcl = s.opExcl := by rfl
@[simp] theorem Ctl.setLink_routeLow (s : Ctl) (n : Nat) (l : LinkSt) : (s.setLink n l).routeLow = s.routeLow := by rfl
@[simp] theorem Ctl.setLink_flash (s : Ctl) (n : Nat) (l : LinkSt) : (s.setLink n l).flash = s.flash := by rfl
@[simp] theorem Ctl.setLink_sent (s : Ctl) (n : Nat) (l : LinkSt) : (s.setLink n l).sent = s.sent := by rfl
@[simp] theorem Ctl.setLink_freeN (s : Ctl) (n : Nat) (l : LinkSt) : (s.setLink n l).freeN = s.freeN := by rfl
@[simp] theorem Ctl.setLink_word (s : Ctl) (n : Nat) (l : LinkSt) (q : Nat) : (s.setLink n l).word q = s.word q := by rfl
@[simp] theorem Ctl.setLink_rd (s : Ctl) (n : Nat) (l : LinkSt) (g : FRef) : (s.setLink n l).rd g = s.rd g := by rfl
@[simp] theorem Ctl.setLink_bit (s : Ctl) (n : Nat) (l : LinkSt) (g : FRef) : (s.setLink n l).bit g = s.bit g := by rfl
@[simp] theorem Ctl.setLink_rdWord (s : Ctl) (n : Nat) (l : LinkSt) (q : Nat) : (s.setLink n l).rdWord q = s.rdWord q := by rfl

/-! ## modLink -/

@[simp] theorem Ctl.modLink_fuse (s : Ctl) (n : Nat) (f : LinkSt → LinkSt) : (s.modLink n f).fuse = s.fuse := by rfl
@[simp] theorem Ctl.modLink_bar0 (s : Ctl) (n : Nat) (f : LinkSt → LinkSt) : (s.modLink n f).bar0 = s.bar0 := by rfl
@[simp] theorem Ctl.modLink_cyc (s : Ctl) (n : Nat) (f : LinkSt → LinkSt) : (s.modLink n f).cyc = s.cyc := by rfl
@[simp] theorem Ctl.modLink_flt (s : Ctl) (n : Nat) (f : LinkSt → LinkSt) : (s.modLink n f).flt = s.flt := by rfl
@[simp] theorem Ctl.modLink_mer (s : Ctl) (n : Nat) (f : LinkSt → LinkSt) : (s.modLink n f).mer = s.mer := by rfl
@[simp] theorem Ctl.modLink_sw (s : Ctl) (n : Nat) (f : LinkSt → LinkSt) : (s.modLink n f).sw = s.sw := by rfl
@[simp] theorem Ctl.modLink_host (s : Ctl) (n : Nat) (f : LinkSt → LinkSt) : (s.modLink n f).host = s.host := by rfl
@[simp] theorem Ctl.modLink_bar2 (s : Ctl) (n : Nat) (f : LinkSt → LinkSt) : (s.modLink n f).bar2 = s.bar2 := by rfl
@[simp] theorem Ctl.modLink_banks (s : Ctl) (n : Nat) (f : LinkSt → LinkSt) : (s.modLink n f).banks = s.banks := by rfl
@[simp] theorem Ctl.modLink_dom (s : Ctl) (n : Nat) (f : LinkSt → LinkSt) : (s.modLink n f).dom = s.dom := by rfl
@[simp] theorem Ctl.modLink_net (s : Ctl) (n : Nat) (f : LinkSt → LinkSt) : (s.modLink n f).net = s.net := by rfl
@[simp] theorem Ctl.modLink_mem (s : Ctl) (n : Nat) (f : LinkSt → LinkSt) : (s.modLink n f).mem = s.mem := by rfl
@[simp] theorem Ctl.modLink_pools (s : Ctl) (n : Nat) (f : LinkSt → LinkSt) : (s.modLink n f).pools = s.pools := by rfl
@[simp] theorem Ctl.modLink_pst (s : Ctl) (n : Nat) (f : LinkSt → LinkSt) : (s.modLink n f).pst = s.pst := by rfl
@[simp] theorem Ctl.modLink_upd (s : Ctl) (n : Nat) (f : LinkSt → LinkSt) : (s.modLink n f).upd = s.upd := by rfl
@[simp] theorem Ctl.modLink_ops (s : Ctl) (n : Nat) (f : LinkSt → LinkSt) : (s.modLink n f).ops = s.ops := by rfl
@[simp] theorem Ctl.modLink_opCount (s : Ctl) (n : Nat) (f : LinkSt → LinkSt) : (s.modLink n f).opCount = s.opCount := by rfl
@[simp] theorem Ctl.modLink_seq (s : Ctl) (n : Nat) (f : LinkSt → LinkSt) : (s.modLink n f).seq = s.seq := by rfl
@[simp] theorem Ctl.modLink_held (s : Ctl) (n : Nat) (f : LinkSt → LinkSt) : (s.modLink n f).held = s.held := by rfl
@[simp] theorem Ctl.modLink_twinRecs (s : Ctl) (n : Nat) (f : LinkSt → LinkSt) : (s.modLink n f).twinRecs = s.twinRecs := by rfl
@[simp] theorem Ctl.modLink_tw (s : Ctl) (n : Nat) (f : LinkSt → LinkSt) : (s.modLink n f).tw = s.tw := by rfl
@[simp] theorem Ctl.modLink_eng (s : Ctl) (n : Nat) (f : LinkSt → LinkSt) : (s.modLink n f).eng = s.eng := by rfl
@[simp] theorem Ctl.modLink_life (s : Ctl) (n : Nat) (f : LinkSt → LinkSt) : (s.modLink n f).life = s.life := by rfl
@[simp] theorem Ctl.modLink_fw (s : Ctl) (n : Nat) (f : LinkSt → LinkSt) : (s.modLink n f).fw = s.fw := by rfl
@[simp] theorem Ctl.modLink_boot (s : Ctl) (n : Nat) (f : LinkSt → LinkSt) : (s.modLink n f).boot = s.boot := by rfl
@[simp] theorem Ctl.modLink_cir (s : Ctl) (n : Nat) (f : LinkSt → LinkSt) : (s.modLink n f).cir = s.cir := by rfl
@[simp] theorem Ctl.modLink_i3c (s : Ctl) (n : Nat) (f : LinkSt → LinkSt) : (s.modLink n f).i3c = s.i3c := by rfl
@[simp] theorem Ctl.modLink_jtag (s : Ctl) (n : Nat) (f : LinkSt → LinkSt) : (s.modLink n f).jtag = s.jtag := by rfl
@[simp] theorem Ctl.modLink_opExcl (s : Ctl) (n : Nat) (f : LinkSt → LinkSt) : (s.modLink n f).opExcl = s.opExcl := by rfl
@[simp] theorem Ctl.modLink_routeLow (s : Ctl) (n : Nat) (f : LinkSt → LinkSt) : (s.modLink n f).routeLow = s.routeLow := by rfl
@[simp] theorem Ctl.modLink_flash (s : Ctl) (n : Nat) (f : LinkSt → LinkSt) : (s.modLink n f).flash = s.flash := by rfl
@[simp] theorem Ctl.modLink_sent (s : Ctl) (n : Nat) (f : LinkSt → LinkSt) : (s.modLink n f).sent = s.sent := by rfl
@[simp] theorem Ctl.modLink_freeN (s : Ctl) (n : Nat) (f : LinkSt → LinkSt) : (s.modLink n f).freeN = s.freeN := by rfl
@[simp] theorem Ctl.modLink_word (s : Ctl) (n : Nat) (f : LinkSt → LinkSt) (q : Nat) : (s.modLink n f).word q = s.word q := by rfl
@[simp] theorem Ctl.modLink_rd (s : Ctl) (n : Nat) (f : LinkSt → LinkSt) (g : FRef) : (s.modLink n f).rd g = s.rd g := by rfl
@[simp] theorem Ctl.modLink_bit (s : Ctl) (n : Nat) (f : LinkSt → LinkSt) (g : FRef) : (s.modLink n f).bit g = s.bit g := by rfl
@[simp] theorem Ctl.modLink_rdWord (s : Ctl) (n : Nat) (f : LinkSt → LinkSt) (q : Nat) : (s.modLink n f).rdWord q = s.rdWord q := by rfl

/-! ## setLane -/

@[simp] theorem Ctl.setLane_fuse (s : Ctl) (n i : Nat) (x : LaneSt) : (s.setLane n i x).fuse = s.fuse := by rfl
@[simp] theorem Ctl.setLane_bar0 (s : Ctl) (n i : Nat) (x : LaneSt) : (s.setLane n i x).bar0 = s.bar0 := by rfl
@[simp] theorem Ctl.setLane_cyc (s : Ctl) (n i : Nat) (x : LaneSt) : (s.setLane n i x).cyc = s.cyc := by rfl
@[simp] theorem Ctl.setLane_flt (s : Ctl) (n i : Nat) (x : LaneSt) : (s.setLane n i x).flt = s.flt := by rfl
@[simp] theorem Ctl.setLane_mer (s : Ctl) (n i : Nat) (x : LaneSt) : (s.setLane n i x).mer = s.mer := by rfl
@[simp] theorem Ctl.setLane_sw (s : Ctl) (n i : Nat) (x : LaneSt) : (s.setLane n i x).sw = s.sw := by rfl
@[simp] theorem Ctl.setLane_host (s : Ctl) (n i : Nat) (x : LaneSt) : (s.setLane n i x).host = s.host := by rfl
@[simp] theorem Ctl.setLane_bar2 (s : Ctl) (n i : Nat) (x : LaneSt) : (s.setLane n i x).bar2 = s.bar2 := by rfl
@[simp] theorem Ctl.setLane_banks (s : Ctl) (n i : Nat) (x : LaneSt) : (s.setLane n i x).banks = s.banks := by rfl
@[simp] theorem Ctl.setLane_dom (s : Ctl) (n i : Nat) (x : LaneSt) : (s.setLane n i x).dom = s.dom := by rfl
@[simp] theorem Ctl.setLane_net (s : Ctl) (n i : Nat) (x : LaneSt) : (s.setLane n i x).net = s.net := by rfl
@[simp] theorem Ctl.setLane_mem (s : Ctl) (n i : Nat) (x : LaneSt) : (s.setLane n i x).mem = s.mem := by rfl
@[simp] theorem Ctl.setLane_pools (s : Ctl) (n i : Nat) (x : LaneSt) : (s.setLane n i x).pools = s.pools := by rfl
@[simp] theorem Ctl.setLane_pst (s : Ctl) (n i : Nat) (x : LaneSt) : (s.setLane n i x).pst = s.pst := by rfl
@[simp] theorem Ctl.setLane_upd (s : Ctl) (n i : Nat) (x : LaneSt) : (s.setLane n i x).upd = s.upd := by rfl
@[simp] theorem Ctl.setLane_ops (s : Ctl) (n i : Nat) (x : LaneSt) : (s.setLane n i x).ops = s.ops := by rfl
@[simp] theorem Ctl.setLane_opCount (s : Ctl) (n i : Nat) (x : LaneSt) : (s.setLane n i x).opCount = s.opCount := by rfl
@[simp] theorem Ctl.setLane_seq (s : Ctl) (n i : Nat) (x : LaneSt) : (s.setLane n i x).seq = s.seq := by rfl
@[simp] theorem Ctl.setLane_held (s : Ctl) (n i : Nat) (x : LaneSt) : (s.setLane n i x).held = s.held := by rfl
@[simp] theorem Ctl.setLane_twinRecs (s : Ctl) (n i : Nat) (x : LaneSt) : (s.setLane n i x).twinRecs = s.twinRecs := by rfl
@[simp] theorem Ctl.setLane_tw (s : Ctl) (n i : Nat) (x : LaneSt) : (s.setLane n i x).tw = s.tw := by rfl
@[simp] theorem Ctl.setLane_eng (s : Ctl) (n i : Nat) (x : LaneSt) : (s.setLane n i x).eng = s.eng := by rfl
@[simp] theorem Ctl.setLane_life (s : Ctl) (n i : Nat) (x : LaneSt) : (s.setLane n i x).life = s.life := by rfl
@[simp] theorem Ctl.setLane_fw (s : Ctl) (n i : Nat) (x : LaneSt) : (s.setLane n i x).fw = s.fw := by rfl
@[simp] theorem Ctl.setLane_boot (s : Ctl) (n i : Nat) (x : LaneSt) : (s.setLane n i x).boot = s.boot := by rfl
@[simp] theorem Ctl.setLane_cir (s : Ctl) (n i : Nat) (x : LaneSt) : (s.setLane n i x).cir = s.cir := by rfl
@[simp] theorem Ctl.setLane_i3c (s : Ctl) (n i : Nat) (x : LaneSt) : (s.setLane n i x).i3c = s.i3c := by rfl
@[simp] theorem Ctl.setLane_jtag (s : Ctl) (n i : Nat) (x : LaneSt) : (s.setLane n i x).jtag = s.jtag := by rfl
@[simp] theorem Ctl.setLane_opExcl (s : Ctl) (n i : Nat) (x : LaneSt) : (s.setLane n i x).opExcl = s.opExcl := by rfl
@[simp] theorem Ctl.setLane_routeLow (s : Ctl) (n i : Nat) (x : LaneSt) : (s.setLane n i x).routeLow = s.routeLow := by rfl
@[simp] theorem Ctl.setLane_flash (s : Ctl) (n i : Nat) (x : LaneSt) : (s.setLane n i x).flash = s.flash := by rfl
@[simp] theorem Ctl.setLane_sent (s : Ctl) (n i : Nat) (x : LaneSt) : (s.setLane n i x).sent = s.sent := by rfl
@[simp] theorem Ctl.setLane_freeN (s : Ctl) (n i : Nat) (x : LaneSt) : (s.setLane n i x).freeN = s.freeN := by rfl
@[simp] theorem Ctl.setLane_word (s : Ctl) (n i : Nat) (x : LaneSt) (q : Nat) : (s.setLane n i x).word q = s.word q := by rfl
@[simp] theorem Ctl.setLane_rd (s : Ctl) (n i : Nat) (x : LaneSt) (g : FRef) : (s.setLane n i x).rd g = s.rd g := by rfl
@[simp] theorem Ctl.setLane_bit (s : Ctl) (n i : Nat) (x : LaneSt) (g : FRef) : (s.setLane n i x).bit g = s.bit g := by rfl
@[simp] theorem Ctl.setLane_rdWord (s : Ctl) (n i : Nat) (x : LaneSt) (q : Nat) : (s.setLane n i x).rdWord q = s.rdWord q := by rfl

/-! ## modLane -/

@[simp] theorem Ctl.modLane_fuse (s : Ctl) (n i : Nat) (f : LaneSt → LaneSt) : (s.modLane n i f).fuse = s.fuse := by rfl
@[simp] theorem Ctl.modLane_bar0 (s : Ctl) (n i : Nat) (f : LaneSt → LaneSt) : (s.modLane n i f).bar0 = s.bar0 := by rfl
@[simp] theorem Ctl.modLane_cyc (s : Ctl) (n i : Nat) (f : LaneSt → LaneSt) : (s.modLane n i f).cyc = s.cyc := by rfl
@[simp] theorem Ctl.modLane_flt (s : Ctl) (n i : Nat) (f : LaneSt → LaneSt) : (s.modLane n i f).flt = s.flt := by rfl
@[simp] theorem Ctl.modLane_mer (s : Ctl) (n i : Nat) (f : LaneSt → LaneSt) : (s.modLane n i f).mer = s.mer := by rfl
@[simp] theorem Ctl.modLane_sw (s : Ctl) (n i : Nat) (f : LaneSt → LaneSt) : (s.modLane n i f).sw = s.sw := by rfl
@[simp] theorem Ctl.modLane_host (s : Ctl) (n i : Nat) (f : LaneSt → LaneSt) : (s.modLane n i f).host = s.host := by rfl
@[simp] theorem Ctl.modLane_bar2 (s : Ctl) (n i : Nat) (f : LaneSt → LaneSt) : (s.modLane n i f).bar2 = s.bar2 := by rfl
@[simp] theorem Ctl.modLane_banks (s : Ctl) (n i : Nat) (f : LaneSt → LaneSt) : (s.modLane n i f).banks = s.banks := by rfl
@[simp] theorem Ctl.modLane_dom (s : Ctl) (n i : Nat) (f : LaneSt → LaneSt) : (s.modLane n i f).dom = s.dom := by rfl
@[simp] theorem Ctl.modLane_net (s : Ctl) (n i : Nat) (f : LaneSt → LaneSt) : (s.modLane n i f).net = s.net := by rfl
@[simp] theorem Ctl.modLane_mem (s : Ctl) (n i : Nat) (f : LaneSt → LaneSt) : (s.modLane n i f).mem = s.mem := by rfl
@[simp] theorem Ctl.modLane_pools (s : Ctl) (n i : Nat) (f : LaneSt → LaneSt) : (s.modLane n i f).pools = s.pools := by rfl
@[simp] theorem Ctl.modLane_pst (s : Ctl) (n i : Nat) (f : LaneSt → LaneSt) : (s.modLane n i f).pst = s.pst := by rfl
@[simp] theorem Ctl.modLane_upd (s : Ctl) (n i : Nat) (f : LaneSt → LaneSt) : (s.modLane n i f).upd = s.upd := by rfl
@[simp] theorem Ctl.modLane_ops (s : Ctl) (n i : Nat) (f : LaneSt → LaneSt) : (s.modLane n i f).ops = s.ops := by rfl
@[simp] theorem Ctl.modLane_opCount (s : Ctl) (n i : Nat) (f : LaneSt → LaneSt) : (s.modLane n i f).opCount = s.opCount := by rfl
@[simp] theorem Ctl.modLane_seq (s : Ctl) (n i : Nat) (f : LaneSt → LaneSt) : (s.modLane n i f).seq = s.seq := by rfl
@[simp] theorem Ctl.modLane_held (s : Ctl) (n i : Nat) (f : LaneSt → LaneSt) : (s.modLane n i f).held = s.held := by rfl
@[simp] theorem Ctl.modLane_twinRecs (s : Ctl) (n i : Nat) (f : LaneSt → LaneSt) : (s.modLane n i f).twinRecs = s.twinRecs := by rfl
@[simp] theorem Ctl.modLane_tw (s : Ctl) (n i : Nat) (f : LaneSt → LaneSt) : (s.modLane n i f).tw = s.tw := by rfl
@[simp] theorem Ctl.modLane_eng (s : Ctl) (n i : Nat) (f : LaneSt → LaneSt) : (s.modLane n i f).eng = s.eng := by rfl
@[simp] theorem Ctl.modLane_life (s : Ctl) (n i : Nat) (f : LaneSt → LaneSt) : (s.modLane n i f).life = s.life := by rfl
@[simp] theorem Ctl.modLane_fw (s : Ctl) (n i : Nat) (f : LaneSt → LaneSt) : (s.modLane n i f).fw = s.fw := by rfl
@[simp] theorem Ctl.modLane_boot (s : Ctl) (n i : Nat) (f : LaneSt → LaneSt) : (s.modLane n i f).boot = s.boot := by rfl
@[simp] theorem Ctl.modLane_cir (s : Ctl) (n i : Nat) (f : LaneSt → LaneSt) : (s.modLane n i f).cir = s.cir := by rfl
@[simp] theorem Ctl.modLane_i3c (s : Ctl) (n i : Nat) (f : LaneSt → LaneSt) : (s.modLane n i f).i3c = s.i3c := by rfl
@[simp] theorem Ctl.modLane_jtag (s : Ctl) (n i : Nat) (f : LaneSt → LaneSt) : (s.modLane n i f).jtag = s.jtag := by rfl
@[simp] theorem Ctl.modLane_opExcl (s : Ctl) (n i : Nat) (f : LaneSt → LaneSt) : (s.modLane n i f).opExcl = s.opExcl := by rfl
@[simp] theorem Ctl.modLane_routeLow (s : Ctl) (n i : Nat) (f : LaneSt → LaneSt) : (s.modLane n i f).routeLow = s.routeLow := by rfl
@[simp] theorem Ctl.modLane_flash (s : Ctl) (n i : Nat) (f : LaneSt → LaneSt) : (s.modLane n i f).flash = s.flash := by rfl
@[simp] theorem Ctl.modLane_sent (s : Ctl) (n i : Nat) (f : LaneSt → LaneSt) : (s.modLane n i f).sent = s.sent := by rfl
@[simp] theorem Ctl.modLane_freeN (s : Ctl) (n i : Nat) (f : LaneSt → LaneSt) : (s.modLane n i f).freeN = s.freeN := by rfl
@[simp] theorem Ctl.modLane_word (s : Ctl) (n i : Nat) (f : LaneSt → LaneSt) (q : Nat) : (s.modLane n i f).word q = s.word q := by rfl
@[simp] theorem Ctl.modLane_rd (s : Ctl) (n i : Nat) (f : LaneSt → LaneSt) (g : FRef) : (s.modLane n i f).rd g = s.rd g := by rfl
@[simp] theorem Ctl.modLane_bit (s : Ctl) (n i : Nat) (f : LaneSt → LaneSt) (g : FRef) : (s.modLane n i f).bit g = s.bit g := by rfl
@[simp] theorem Ctl.modLane_rdWord (s : Ctl) (n i : Nat) (f : LaneSt → LaneSt) (q : Nat) : (s.modLane n i f).rdWord q = s.rdWord q := by rfl

/-! ## emit -/

@[simp] theorem Ctl.emit_fuse (s : Ctl) (x : Sent) : (s.emit x).fuse = s.fuse := by rfl
@[simp] theorem Ctl.emit_bar0 (s : Ctl) (x : Sent) : (s.emit x).bar0 = s.bar0 := by rfl
@[simp] theorem Ctl.emit_cyc (s : Ctl) (x : Sent) : (s.emit x).cyc = s.cyc := by rfl
@[simp] theorem Ctl.emit_flt (s : Ctl) (x : Sent) : (s.emit x).flt = s.flt := by rfl
@[simp] theorem Ctl.emit_mer (s : Ctl) (x : Sent) : (s.emit x).mer = s.mer := by rfl
@[simp] theorem Ctl.emit_links (s : Ctl) (x : Sent) : (s.emit x).links = s.links := by rfl
@[simp] theorem Ctl.emit_sw (s : Ctl) (x : Sent) : (s.emit x).sw = s.sw := by rfl
@[simp] theorem Ctl.emit_host (s : Ctl) (x : Sent) : (s.emit x).host = s.host := by rfl
@[simp] theorem Ctl.emit_bar2 (s : Ctl) (x : Sent) : (s.emit x).bar2 = s.bar2 := by rfl
@[simp] theorem Ctl.emit_banks (s : Ctl) (x : Sent) : (s.emit x).banks = s.banks := by rfl
@[simp] theorem Ctl.emit_dom (s : Ctl) (x : Sent) : (s.emit x).dom = s.dom := by rfl
@[simp] theorem Ctl.emit_net (s : Ctl) (x : Sent) : (s.emit x).net = s.net := by rfl
@[simp] theorem Ctl.emit_mem (s : Ctl) (x : Sent) : (s.emit x).mem = s.mem := by rfl
@[simp] theorem Ctl.emit_pools (s : Ctl) (x : Sent) : (s.emit x).pools = s.pools := by rfl
@[simp] theorem Ctl.emit_pst (s : Ctl) (x : Sent) : (s.emit x).pst = s.pst := by rfl
@[simp] theorem Ctl.emit_upd (s : Ctl) (x : Sent) : (s.emit x).upd = s.upd := by rfl
@[simp] theorem Ctl.emit_ops (s : Ctl) (x : Sent) : (s.emit x).ops = s.ops := by rfl
@[simp] theorem Ctl.emit_opCount (s : Ctl) (x : Sent) : (s.emit x).opCount = s.opCount := by rfl
@[simp] theorem Ctl.emit_seq (s : Ctl) (x : Sent) : (s.emit x).seq = s.seq := by rfl
@[simp] theorem Ctl.emit_held (s : Ctl) (x : Sent) : (s.emit x).held = s.held := by rfl
@[simp] theorem Ctl.emit_twinRecs (s : Ctl) (x : Sent) : (s.emit x).twinRecs = s.twinRecs := by rfl
@[simp] theorem Ctl.emit_tw (s : Ctl) (x : Sent) : (s.emit x).tw = s.tw := by rfl
@[simp] theorem Ctl.emit_eng (s : Ctl) (x : Sent) : (s.emit x).eng = s.eng := by rfl
@[simp] theorem Ctl.emit_life (s : Ctl) (x : Sent) : (s.emit x).life = s.life := by rfl
@[simp] theorem Ctl.emit_fw (s : Ctl) (x : Sent) : (s.emit x).fw = s.fw := by rfl
@[simp] theorem Ctl.emit_boot (s : Ctl) (x : Sent) : (s.emit x).boot = s.boot := by rfl
@[simp] theorem Ctl.emit_cir (s : Ctl) (x : Sent) : (s.emit x).cir = s.cir := by rfl
@[simp] theorem Ctl.emit_i3c (s : Ctl) (x : Sent) : (s.emit x).i3c = s.i3c := by rfl
@[simp] theorem Ctl.emit_jtag (s : Ctl) (x : Sent) : (s.emit x).jtag = s.jtag := by rfl
@[simp] theorem Ctl.emit_opExcl (s : Ctl) (x : Sent) : (s.emit x).opExcl = s.opExcl := by rfl
@[simp] theorem Ctl.emit_routeLow (s : Ctl) (x : Sent) : (s.emit x).routeLow = s.routeLow := by rfl
@[simp] theorem Ctl.emit_flash (s : Ctl) (x : Sent) : (s.emit x).flash = s.flash := by rfl
@[simp] theorem Ctl.emit_freeN (s : Ctl) (x : Sent) : (s.emit x).freeN = s.freeN := by rfl
@[simp] theorem Ctl.emit_word (s : Ctl) (x : Sent) (q : Nat) : (s.emit x).word q = s.word q := by rfl
@[simp] theorem Ctl.emit_rd (s : Ctl) (x : Sent) (g : FRef) : (s.emit x).rd g = s.rd g := by rfl
@[simp] theorem Ctl.emit_bit (s : Ctl) (x : Sent) (g : FRef) : (s.emit x).bit g = s.bit g := by rfl
@[simp] theorem Ctl.emit_rdWord (s : Ctl) (x : Sent) (q : Nat) : (s.emit x).rdWord q = s.rdWord q := by rfl

/-! ## setByte2 -/

@[simp] theorem Ctl.setByte2_fuse (s : Ctl) (a : Nat) (b : Byte) : (s.setByte2 a b).fuse = s.fuse := by rfl
@[simp] theorem Ctl.setByte2_bar0 (s : Ctl) (a : Nat) (b : Byte) : (s.setByte2 a b).bar0 = s.bar0 := by rfl
@[simp] theorem Ctl.setByte2_cyc (s : Ctl) (a : Nat) (b : Byte) : (s.setByte2 a b).cyc = s.cyc := by rfl
@[simp] theorem Ctl.setByte2_flt (s : Ctl) (a : Nat) (b : Byte) : (s.setByte2 a b).flt = s.flt := by rfl
@[simp] theorem Ctl.setByte2_mer (s : Ctl) (a : Nat) (b : Byte) : (s.setByte2 a b).mer = s.mer := by rfl
@[simp] theorem Ctl.setByte2_links (s : Ctl) (a : Nat) (b : Byte) : (s.setByte2 a b).links = s.links := by rfl
@[simp] theorem Ctl.setByte2_sw (s : Ctl) (a : Nat) (b : Byte) : (s.setByte2 a b).sw = s.sw := by rfl
@[simp] theorem Ctl.setByte2_host (s : Ctl) (a : Nat) (b : Byte) : (s.setByte2 a b).host = s.host := by rfl
@[simp] theorem Ctl.setByte2_banks (s : Ctl) (a : Nat) (b : Byte) : (s.setByte2 a b).banks = s.banks := by rfl
@[simp] theorem Ctl.setByte2_dom (s : Ctl) (a : Nat) (b : Byte) : (s.setByte2 a b).dom = s.dom := by rfl
@[simp] theorem Ctl.setByte2_net (s : Ctl) (a : Nat) (b : Byte) : (s.setByte2 a b).net = s.net := by rfl
@[simp] theorem Ctl.setByte2_mem (s : Ctl) (a : Nat) (b : Byte) : (s.setByte2 a b).mem = s.mem := by rfl
@[simp] theorem Ctl.setByte2_pools (s : Ctl) (a : Nat) (b : Byte) : (s.setByte2 a b).pools = s.pools := by rfl
@[simp] theorem Ctl.setByte2_pst (s : Ctl) (a : Nat) (b : Byte) : (s.setByte2 a b).pst = s.pst := by rfl
@[simp] theorem Ctl.setByte2_upd (s : Ctl) (a : Nat) (b : Byte) : (s.setByte2 a b).upd = s.upd := by rfl
@[simp] theorem Ctl.setByte2_ops (s : Ctl) (a : Nat) (b : Byte) : (s.setByte2 a b).ops = s.ops := by rfl
@[simp] theorem Ctl.setByte2_opCount (s : Ctl) (a : Nat) (b : Byte) : (s.setByte2 a b).opCount = s.opCount := by rfl
@[simp] theorem Ctl.setByte2_seq (s : Ctl) (a : Nat) (b : Byte) : (s.setByte2 a b).seq = s.seq := by rfl
@[simp] theorem Ctl.setByte2_held (s : Ctl) (a : Nat) (b : Byte) : (s.setByte2 a b).held = s.held := by rfl
@[simp] theorem Ctl.setByte2_twinRecs (s : Ctl) (a : Nat) (b : Byte) : (s.setByte2 a b).twinRecs = s.twinRecs := by rfl
@[simp] theorem Ctl.setByte2_tw (s : Ctl) (a : Nat) (b : Byte) : (s.setByte2 a b).tw = s.tw := by rfl
@[simp] theorem Ctl.setByte2_eng (s : Ctl) (a : Nat) (b : Byte) : (s.setByte2 a b).eng = s.eng := by rfl
@[simp] theorem Ctl.setByte2_life (s : Ctl) (a : Nat) (b : Byte) : (s.setByte2 a b).life = s.life := by rfl
@[simp] theorem Ctl.setByte2_fw (s : Ctl) (a : Nat) (b : Byte) : (s.setByte2 a b).fw = s.fw := by rfl
@[simp] theorem Ctl.setByte2_boot (s : Ctl) (a : Nat) (b : Byte) : (s.setByte2 a b).boot = s.boot := by rfl
@[simp] theorem Ctl.setByte2_cir (s : Ctl) (a : Nat) (b : Byte) : (s.setByte2 a b).cir = s.cir := by rfl
@[simp] theorem Ctl.setByte2_i3c (s : Ctl) (a : Nat) (b : Byte) : (s.setByte2 a b).i3c = s.i3c := by rfl
@[simp] theorem Ctl.setByte2_jtag (s : Ctl) (a : Nat) (b : Byte) : (s.setByte2 a b).jtag = s.jtag := by rfl
@[simp] theorem Ctl.setByte2_opExcl (s : Ctl) (a : Nat) (b : Byte) : (s.setByte2 a b).opExcl = s.opExcl := by rfl
@[simp] theorem Ctl.setByte2_routeLow (s : Ctl) (a : Nat) (b : Byte) : (s.setByte2 a b).routeLow = s.routeLow := by rfl
@[simp] theorem Ctl.setByte2_flash (s : Ctl) (a : Nat) (b : Byte) : (s.setByte2 a b).flash = s.flash := by rfl
@[simp] theorem Ctl.setByte2_sent (s : Ctl) (a : Nat) (b : Byte) : (s.setByte2 a b).sent = s.sent := by rfl
@[simp] theorem Ctl.setByte2_freeN (s : Ctl) (a : Nat) (b : Byte) : (s.setByte2 a b).freeN = s.freeN := by rfl
@[simp] theorem Ctl.setByte2_word (s : Ctl) (a : Nat) (b : Byte) (q : Nat) : (s.setByte2 a b).word q = s.word q := by rfl
@[simp] theorem Ctl.setByte2_rd (s : Ctl) (a : Nat) (b : Byte) (g : FRef) : (s.setByte2 a b).rd g = s.rd g := by rfl
@[simp] theorem Ctl.setByte2_bit (s : Ctl) (a : Nat) (b : Byte) (g : FRef) : (s.setByte2 a b).bit g = s.bit g := by rfl
@[simp] theorem Ctl.setByte2_rdWord (s : Ctl) (a : Nat) (b : Byte) (q : Nat) : (s.setByte2 a b).rdWord q = s.rdWord q := by rfl

/-! ## modMem -/

@[simp] theorem Ctl.modMem_fuse (s : Ctl) (f : MemSt → MemSt) : (s.modMem f).fuse = s.fuse := by rfl
@[simp] theorem Ctl.modMem_bar0 (s : Ctl) (f : MemSt → MemSt) : (s.modMem f).bar0 = s.bar0 := by rfl
@[simp] theorem Ctl.modMem_cyc (s : Ctl) (f : MemSt → MemSt) : (s.modMem f).cyc = s.cyc := by rfl
@[simp] theorem Ctl.modMem_flt (s : Ctl) (f : MemSt → MemSt) : (s.modMem f).flt = s.flt := by rfl
@[simp] theorem Ctl.modMem_mer (s : Ctl) (f : MemSt → MemSt) : (s.modMem f).mer = s.mer := by rfl
@[simp] theorem Ctl.modMem_links (s : Ctl) (f : MemSt → MemSt) : (s.modMem f).links = s.links := by rfl
@[simp] theorem Ctl.modMem_sw (s : Ctl) (f : MemSt → MemSt) : (s.modMem f).sw = s.sw := by rfl
@[simp] theorem Ctl.modMem_host (s : Ctl) (f : MemSt → MemSt) : (s.modMem f).host = s.host := by rfl
@[simp] theorem Ctl.modMem_bar2 (s : Ctl) (f : MemSt → MemSt) : (s.modMem f).bar2 = s.bar2 := by rfl
@[simp] theorem Ctl.modMem_banks (s : Ctl) (f : MemSt → MemSt) : (s.modMem f).banks = s.banks := by rfl
@[simp] theorem Ctl.modMem_dom (s : Ctl) (f : MemSt → MemSt) : (s.modMem f).dom = s.dom := by rfl
@[simp] theorem Ctl.modMem_net (s : Ctl) (f : MemSt → MemSt) : (s.modMem f).net = s.net := by rfl
@[simp] theorem Ctl.modMem_pools (s : Ctl) (f : MemSt → MemSt) : (s.modMem f).pools = s.pools := by rfl
@[simp] theorem Ctl.modMem_pst (s : Ctl) (f : MemSt → MemSt) : (s.modMem f).pst = s.pst := by rfl
@[simp] theorem Ctl.modMem_upd (s : Ctl) (f : MemSt → MemSt) : (s.modMem f).upd = s.upd := by rfl
@[simp] theorem Ctl.modMem_ops (s : Ctl) (f : MemSt → MemSt) : (s.modMem f).ops = s.ops := by rfl
@[simp] theorem Ctl.modMem_opCount (s : Ctl) (f : MemSt → MemSt) : (s.modMem f).opCount = s.opCount := by rfl
@[simp] theorem Ctl.modMem_seq (s : Ctl) (f : MemSt → MemSt) : (s.modMem f).seq = s.seq := by rfl
@[simp] theorem Ctl.modMem_held (s : Ctl) (f : MemSt → MemSt) : (s.modMem f).held = s.held := by rfl
@[simp] theorem Ctl.modMem_twinRecs (s : Ctl) (f : MemSt → MemSt) : (s.modMem f).twinRecs = s.twinRecs := by rfl
@[simp] theorem Ctl.modMem_tw (s : Ctl) (f : MemSt → MemSt) : (s.modMem f).tw = s.tw := by rfl
@[simp] theorem Ctl.modMem_eng (s : Ctl) (f : MemSt → MemSt) : (s.modMem f).eng = s.eng := by rfl
@[simp] theorem Ctl.modMem_life (s : Ctl) (f : MemSt → MemSt) : (s.modMem f).life = s.life := by rfl
@[simp] theorem Ctl.modMem_fw (s : Ctl) (f : MemSt → MemSt) : (s.modMem f).fw = s.fw := by rfl
@[simp] theorem Ctl.modMem_boot (s : Ctl) (f : MemSt → MemSt) : (s.modMem f).boot = s.boot := by rfl
@[simp] theorem Ctl.modMem_cir (s : Ctl) (f : MemSt → MemSt) : (s.modMem f).cir = s.cir := by rfl
@[simp] theorem Ctl.modMem_i3c (s : Ctl) (f : MemSt → MemSt) : (s.modMem f).i3c = s.i3c := by rfl
@[simp] theorem Ctl.modMem_jtag (s : Ctl) (f : MemSt → MemSt) : (s.modMem f).jtag = s.jtag := by rfl
@[simp] theorem Ctl.modMem_opExcl (s : Ctl) (f : MemSt → MemSt) : (s.modMem f).opExcl = s.opExcl := by rfl
@[simp] theorem Ctl.modMem_routeLow (s : Ctl) (f : MemSt → MemSt) : (s.modMem f).routeLow = s.routeLow := by rfl
@[simp] theorem Ctl.modMem_flash (s : Ctl) (f : MemSt → MemSt) : (s.modMem f).flash = s.flash := by rfl
@[simp] theorem Ctl.modMem_sent (s : Ctl) (f : MemSt → MemSt) : (s.modMem f).sent = s.sent := by rfl
@[simp] theorem Ctl.modMem_freeN (s : Ctl) (f : MemSt → MemSt) : (s.modMem f).freeN = s.freeN := by rfl
@[simp] theorem Ctl.modMem_word (s : Ctl) (f : MemSt → MemSt) (q : Nat) : (s.modMem f).word q = s.word q := by rfl
@[simp] theorem Ctl.modMem_rd (s : Ctl) (f : MemSt → MemSt) (g : FRef) : (s.modMem f).rd g = s.rd g := by rfl
@[simp] theorem Ctl.modMem_bit (s : Ctl) (f : MemSt → MemSt) (g : FRef) : (s.modMem f).bit g = s.bit g := by rfl
@[simp] theorem Ctl.modMem_rdWord (s : Ctl) (f : MemSt → MemSt) (q : Nat) : (s.modMem f).rdWord q = s.rdWord q := by rfl

/-! ## modPools -/

@[simp] theorem Ctl.modPools_fuse (s : Ctl) (f : Pools → Pools) : (s.modPools f).fuse = s.fuse := by rfl
@[simp] theorem Ctl.modPools_bar0 (s : Ctl) (f : Pools → Pools) : (s.modPools f).bar0 = s.bar0 := by rfl
@[simp] theorem Ctl.modPools_cyc (s : Ctl) (f : Pools → Pools) : (s.modPools f).cyc = s.cyc := by rfl
@[simp] theorem Ctl.modPools_flt (s : Ctl) (f : Pools → Pools) : (s.modPools f).flt = s.flt := by rfl
@[simp] theorem Ctl.modPools_mer (s : Ctl) (f : Pools → Pools) : (s.modPools f).mer = s.mer := by rfl
@[simp] theorem Ctl.modPools_links (s : Ctl) (f : Pools → Pools) : (s.modPools f).links = s.links := by rfl
@[simp] theorem Ctl.modPools_sw (s : Ctl) (f : Pools → Pools) : (s.modPools f).sw = s.sw := by rfl
@[simp] theorem Ctl.modPools_host (s : Ctl) (f : Pools → Pools) : (s.modPools f).host = s.host := by rfl
@[simp] theorem Ctl.modPools_bar2 (s : Ctl) (f : Pools → Pools) : (s.modPools f).bar2 = s.bar2 := by rfl
@[simp] theorem Ctl.modPools_banks (s : Ctl) (f : Pools → Pools) : (s.modPools f).banks = s.banks := by rfl
@[simp] theorem Ctl.modPools_dom (s : Ctl) (f : Pools → Pools) : (s.modPools f).dom = s.dom := by rfl
@[simp] theorem Ctl.modPools_net (s : Ctl) (f : Pools → Pools) : (s.modPools f).net = s.net := by rfl
@[simp] theorem Ctl.modPools_mem (s : Ctl) (f : Pools → Pools) : (s.modPools f).mem = s.mem := by rfl
@[simp] theorem Ctl.modPools_pst (s : Ctl) (f : Pools → Pools) : (s.modPools f).pst = s.pst := by rfl
@[simp] theorem Ctl.modPools_upd (s : Ctl) (f : Pools → Pools) : (s.modPools f).upd = s.upd := by rfl
@[simp] theorem Ctl.modPools_ops (s : Ctl) (f : Pools → Pools) : (s.modPools f).ops = s.ops := by rfl
@[simp] theorem Ctl.modPools_opCount (s : Ctl) (f : Pools → Pools) : (s.modPools f).opCount = s.opCount := by rfl
@[simp] theorem Ctl.modPools_seq (s : Ctl) (f : Pools → Pools) : (s.modPools f).seq = s.seq := by rfl
@[simp] theorem Ctl.modPools_held (s : Ctl) (f : Pools → Pools) : (s.modPools f).held = s.held := by rfl
@[simp] theorem Ctl.modPools_twinRecs (s : Ctl) (f : Pools → Pools) : (s.modPools f).twinRecs = s.twinRecs := by rfl
@[simp] theorem Ctl.modPools_tw (s : Ctl) (f : Pools → Pools) : (s.modPools f).tw = s.tw := by rfl
@[simp] theorem Ctl.modPools_eng (s : Ctl) (f : Pools → Pools) : (s.modPools f).eng = s.eng := by rfl
@[simp] theorem Ctl.modPools_life (s : Ctl) (f : Pools → Pools) : (s.modPools f).life = s.life := by rfl
@[simp] theorem Ctl.modPools_fw (s : Ctl) (f : Pools → Pools) : (s.modPools f).fw = s.fw := by rfl
@[simp] theorem Ctl.modPools_boot (s : Ctl) (f : Pools → Pools) : (s.modPools f).boot = s.boot := by rfl
@[simp] theorem Ctl.modPools_cir (s : Ctl) (f : Pools → Pools) : (s.modPools f).cir = s.cir := by rfl
@[simp] theorem Ctl.modPools_i3c (s : Ctl) (f : Pools → Pools) : (s.modPools f).i3c = s.i3c := by rfl
@[simp] theorem Ctl.modPools_jtag (s : Ctl) (f : Pools → Pools) : (s.modPools f).jtag = s.jtag := by rfl
@[simp] theorem Ctl.modPools_opExcl (s : Ctl) (f : Pools → Pools) : (s.modPools f).opExcl = s.opExcl := by rfl
@[simp] theorem Ctl.modPools_routeLow (s : Ctl) (f : Pools → Pools) : (s.modPools f).routeLow = s.routeLow := by rfl
@[simp] theorem Ctl.modPools_flash (s : Ctl) (f : Pools → Pools) : (s.modPools f).flash = s.flash := by rfl
@[simp] theorem Ctl.modPools_sent (s : Ctl) (f : Pools → Pools) : (s.modPools f).sent = s.sent := by rfl
@[simp] theorem Ctl.modPools_freeN (s : Ctl) (f : Pools → Pools) : (s.modPools f).freeN = s.freeN := by rfl
@[simp] theorem Ctl.modPools_word (s : Ctl) (f : Pools → Pools) (q : Nat) : (s.modPools f).word q = s.word q := by rfl
@[simp] theorem Ctl.modPools_rd (s : Ctl) (f : Pools → Pools) (g : FRef) : (s.modPools f).rd g = s.rd g := by rfl
@[simp] theorem Ctl.modPools_bit (s : Ctl) (f : Pools → Pools) (g : FRef) : (s.modPools f).bit g = s.bit g := by rfl
@[simp] theorem Ctl.modPools_rdWord (s : Ctl) (f : Pools → Pools) (q : Nat) : (s.modPools f).rdWord q = s.rdWord q := by rfl

/-! ## modTw -/

@[simp] theorem Ctl.modTw_fuse (s : Ctl) (f : TwinSt → TwinSt) : (s.modTw f).fuse = s.fuse := by rfl
@[simp] theorem Ctl.modTw_bar0 (s : Ctl) (f : TwinSt → TwinSt) : (s.modTw f).bar0 = s.bar0 := by rfl
@[simp] theorem Ctl.modTw_cyc (s : Ctl) (f : TwinSt → TwinSt) : (s.modTw f).cyc = s.cyc := by rfl
@[simp] theorem Ctl.modTw_flt (s : Ctl) (f : TwinSt → TwinSt) : (s.modTw f).flt = s.flt := by rfl
@[simp] theorem Ctl.modTw_mer (s : Ctl) (f : TwinSt → TwinSt) : (s.modTw f).mer = s.mer := by rfl
@[simp] theorem Ctl.modTw_links (s : Ctl) (f : TwinSt → TwinSt) : (s.modTw f).links = s.links := by rfl
@[simp] theorem Ctl.modTw_sw (s : Ctl) (f : TwinSt → TwinSt) : (s.modTw f).sw = s.sw := by rfl
@[simp] theorem Ctl.modTw_host (s : Ctl) (f : TwinSt → TwinSt) : (s.modTw f).host = s.host := by rfl
@[simp] theorem Ctl.modTw_bar2 (s : Ctl) (f : TwinSt → TwinSt) : (s.modTw f).bar2 = s.bar2 := by rfl
@[simp] theorem Ctl.modTw_banks (s : Ctl) (f : TwinSt → TwinSt) : (s.modTw f).banks = s.banks := by rfl
@[simp] theorem Ctl.modTw_dom (s : Ctl) (f : TwinSt → TwinSt) : (s.modTw f).dom = s.dom := by rfl
@[simp] theorem Ctl.modTw_net (s : Ctl) (f : TwinSt → TwinSt) : (s.modTw f).net = s.net := by rfl
@[simp] theorem Ctl.modTw_mem (s : Ctl) (f : TwinSt → TwinSt) : (s.modTw f).mem = s.mem := by rfl
@[simp] theorem Ctl.modTw_pools (s : Ctl) (f : TwinSt → TwinSt) : (s.modTw f).pools = s.pools := by rfl
@[simp] theorem Ctl.modTw_pst (s : Ctl) (f : TwinSt → TwinSt) : (s.modTw f).pst = s.pst := by rfl
@[simp] theorem Ctl.modTw_upd (s : Ctl) (f : TwinSt → TwinSt) : (s.modTw f).upd = s.upd := by rfl
@[simp] theorem Ctl.modTw_ops (s : Ctl) (f : TwinSt → TwinSt) : (s.modTw f).ops = s.ops := by rfl
@[simp] theorem Ctl.modTw_opCount (s : Ctl) (f : TwinSt → TwinSt) : (s.modTw f).opCount = s.opCount := by rfl
@[simp] theorem Ctl.modTw_seq (s : Ctl) (f : TwinSt → TwinSt) : (s.modTw f).seq = s.seq := by rfl
@[simp] theorem Ctl.modTw_held (s : Ctl) (f : TwinSt → TwinSt) : (s.modTw f).held = s.held := by rfl
@[simp] theorem Ctl.modTw_twinRecs (s : Ctl) (f : TwinSt → TwinSt) : (s.modTw f).twinRecs = s.twinRecs := by rfl
@[simp] theorem Ctl.modTw_eng (s : Ctl) (f : TwinSt → TwinSt) : (s.modTw f).eng = s.eng := by rfl
@[simp] theorem Ctl.modTw_life (s : Ctl) (f : TwinSt → TwinSt) : (s.modTw f).life = s.life := by rfl
@[simp] theorem Ctl.modTw_fw (s : Ctl) (f : TwinSt → TwinSt) : (s.modTw f).fw = s.fw := by rfl
@[simp] theorem Ctl.modTw_boot (s : Ctl) (f : TwinSt → TwinSt) : (s.modTw f).boot = s.boot := by rfl
@[simp] theorem Ctl.modTw_cir (s : Ctl) (f : TwinSt → TwinSt) : (s.modTw f).cir = s.cir := by rfl
@[simp] theorem Ctl.modTw_i3c (s : Ctl) (f : TwinSt → TwinSt) : (s.modTw f).i3c = s.i3c := by rfl
@[simp] theorem Ctl.modTw_jtag (s : Ctl) (f : TwinSt → TwinSt) : (s.modTw f).jtag = s.jtag := by rfl
@[simp] theorem Ctl.modTw_opExcl (s : Ctl) (f : TwinSt → TwinSt) : (s.modTw f).opExcl = s.opExcl := by rfl
@[simp] theorem Ctl.modTw_routeLow (s : Ctl) (f : TwinSt → TwinSt) : (s.modTw f).routeLow = s.routeLow := by rfl
@[simp] theorem Ctl.modTw_flash (s : Ctl) (f : TwinSt → TwinSt) : (s.modTw f).flash = s.flash := by rfl
@[simp] theorem Ctl.modTw_sent (s : Ctl) (f : TwinSt → TwinSt) : (s.modTw f).sent = s.sent := by rfl
@[simp] theorem Ctl.modTw_freeN (s : Ctl) (f : TwinSt → TwinSt) : (s.modTw f).freeN = s.freeN := by rfl
@[simp] theorem Ctl.modTw_word (s : Ctl) (f : TwinSt → TwinSt) (q : Nat) : (s.modTw f).word q = s.word q := by rfl
@[simp] theorem Ctl.modTw_rd (s : Ctl) (f : TwinSt → TwinSt) (g : FRef) : (s.modTw f).rd g = s.rd g := by rfl
@[simp] theorem Ctl.modTw_bit (s : Ctl) (f : TwinSt → TwinSt) (g : FRef) : (s.modTw f).bit g = s.bit g := by rfl
@[simp] theorem Ctl.modTw_rdWord (s : Ctl) (f : TwinSt → TwinSt) (q : Nat) : (s.modTw f).rdWord q = s.rdWord q := by rfl

/-! ## setPst -/

@[simp] theorem Ctl.setPst_fuse (s : Ctl) (d : Nat) (p : PstDom) : (s.setPst d p).fuse = s.fuse := by rfl
@[simp] theorem Ctl.setPst_bar0 (s : Ctl) (d : Nat) (p : PstDom) : (s.setPst d p).bar0 = s.bar0 := by rfl
@[simp] theorem Ctl.setPst_cyc (s : Ctl) (d : Nat) (p : PstDom) : (s.setPst d p).cyc = s.cyc := by rfl
@[simp] theorem Ctl.setPst_flt (s : Ctl) (d : Nat) (p : PstDom) : (s.setPst d p).flt = s.flt := by rfl
@[simp] theorem Ctl.setPst_mer (s : Ctl) (d : Nat) (p : PstDom) : (s.setPst d p).mer = s.mer := by rfl
@[simp] theorem Ctl.setPst_links (s : Ctl) (d : Nat) (p : PstDom) : (s.setPst d p).links = s.links := by rfl
@[simp] theorem Ctl.setPst_sw (s : Ctl) (d : Nat) (p : PstDom) : (s.setPst d p).sw = s.sw := by rfl
@[simp] theorem Ctl.setPst_host (s : Ctl) (d : Nat) (p : PstDom) : (s.setPst d p).host = s.host := by rfl
@[simp] theorem Ctl.setPst_bar2 (s : Ctl) (d : Nat) (p : PstDom) : (s.setPst d p).bar2 = s.bar2 := by rfl
@[simp] theorem Ctl.setPst_banks (s : Ctl) (d : Nat) (p : PstDom) : (s.setPst d p).banks = s.banks := by rfl
@[simp] theorem Ctl.setPst_dom (s : Ctl) (d : Nat) (p : PstDom) : (s.setPst d p).dom = s.dom := by rfl
@[simp] theorem Ctl.setPst_net (s : Ctl) (d : Nat) (p : PstDom) : (s.setPst d p).net = s.net := by rfl
@[simp] theorem Ctl.setPst_mem (s : Ctl) (d : Nat) (p : PstDom) : (s.setPst d p).mem = s.mem := by rfl
@[simp] theorem Ctl.setPst_pools (s : Ctl) (d : Nat) (p : PstDom) : (s.setPst d p).pools = s.pools := by rfl
@[simp] theorem Ctl.setPst_upd (s : Ctl) (d : Nat) (p : PstDom) : (s.setPst d p).upd = s.upd := by rfl
@[simp] theorem Ctl.setPst_ops (s : Ctl) (d : Nat) (p : PstDom) : (s.setPst d p).ops = s.ops := by rfl
@[simp] theorem Ctl.setPst_opCount (s : Ctl) (d : Nat) (p : PstDom) : (s.setPst d p).opCount = s.opCount := by rfl
@[simp] theorem Ctl.setPst_seq (s : Ctl) (d : Nat) (p : PstDom) : (s.setPst d p).seq = s.seq := by rfl
@[simp] theorem Ctl.setPst_held (s : Ctl) (d : Nat) (p : PstDom) : (s.setPst d p).held = s.held := by rfl
@[simp] theorem Ctl.setPst_twinRecs (s : Ctl) (d : Nat) (p : PstDom) : (s.setPst d p).twinRecs = s.twinRecs := by rfl
@[simp] theorem Ctl.setPst_tw (s : Ctl) (d : Nat) (p : PstDom) : (s.setPst d p).tw = s.tw := by rfl
@[simp] theorem Ctl.setPst_eng (s : Ctl) (d : Nat) (p : PstDom) : (s.setPst d p).eng = s.eng := by rfl
@[simp] theorem Ctl.setPst_life (s : Ctl) (d : Nat) (p : PstDom) : (s.setPst d p).life = s.life := by rfl
@[simp] theorem Ctl.setPst_fw (s : Ctl) (d : Nat) (p : PstDom) : (s.setPst d p).fw = s.fw := by rfl
@[simp] theorem Ctl.setPst_boot (s : Ctl) (d : Nat) (p : PstDom) : (s.setPst d p).boot = s.boot := by rfl
@[simp] theorem Ctl.setPst_cir (s : Ctl) (d : Nat) (p : PstDom) : (s.setPst d p).cir = s.cir := by rfl
@[simp] theorem Ctl.setPst_i3c (s : Ctl) (d : Nat) (p : PstDom) : (s.setPst d p).i3c = s.i3c := by rfl
@[simp] theorem Ctl.setPst_jtag (s : Ctl) (d : Nat) (p : PstDom) : (s.setPst d p).jtag = s.jtag := by rfl
@[simp] theorem Ctl.setPst_opExcl (s : Ctl) (d : Nat) (p : PstDom) : (s.setPst d p).opExcl = s.opExcl := by rfl
@[simp] theorem Ctl.setPst_routeLow (s : Ctl) (d : Nat) (p : PstDom) : (s.setPst d p).routeLow = s.routeLow := by rfl
@[simp] theorem Ctl.setPst_flash (s : Ctl) (d : Nat) (p : PstDom) : (s.setPst d p).flash = s.flash := by rfl
@[simp] theorem Ctl.setPst_sent (s : Ctl) (d : Nat) (p : PstDom) : (s.setPst d p).sent = s.sent := by rfl
@[simp] theorem Ctl.setPst_freeN (s : Ctl) (d : Nat) (p : PstDom) : (s.setPst d p).freeN = s.freeN := by rfl
@[simp] theorem Ctl.setPst_word (s : Ctl) (d : Nat) (p : PstDom) (q : Nat) : (s.setPst d p).word q = s.word q := by rfl
@[simp] theorem Ctl.setPst_rd (s : Ctl) (d : Nat) (p : PstDom) (g : FRef) : (s.setPst d p).rd g = s.rd g := by rfl
@[simp] theorem Ctl.setPst_bit (s : Ctl) (d : Nat) (p : PstDom) (g : FRef) : (s.setPst d p).bit g = s.bit g := by rfl
@[simp] theorem Ctl.setPst_rdWord (s : Ctl) (d : Nat) (p : PstDom) (q : Nat) : (s.setPst d p).rdWord q = s.rdWord q := by rfl

/-! ## modPst -/

@[simp] theorem Ctl.modPst_fuse (s : Ctl) (d : Nat) (f : PstDom → PstDom) : (s.modPst d f).fuse = s.fuse := by rfl
@[simp] theorem Ctl.modPst_bar0 (s : Ctl) (d : Nat) (f : PstDom → PstDom) : (s.modPst d f).bar0 = s.bar0 := by rfl
@[simp] theorem Ctl.modPst_cyc (s : Ctl) (d : Nat) (f : PstDom → PstDom) : (s.modPst d f).cyc = s.cyc := by rfl
@[simp] theorem Ctl.modPst_flt (s : Ctl) (d : Nat) (f : PstDom → PstDom) : (s.modPst d f).flt = s.flt := by rfl
@[simp] theorem Ctl.modPst_mer (s : Ctl) (d : Nat) (f : PstDom → PstDom) : (s.modPst d f).mer = s.mer := by rfl
@[simp] theorem Ctl.modPst_links (s : Ctl) (d : Nat) (f : PstDom → PstDom) : (s.modPst d f).links = s.links := by rfl
@[simp] theorem Ctl.modPst_sw (s : Ctl) (d : Nat) (f : PstDom → PstDom) : (s.modPst d f).sw = s.sw := by rfl
@[simp] theorem Ctl.modPst_host (s : Ctl) (d : Nat) (f : PstDom → PstDom) : (s.modPst d f).host = s.host := by rfl
@[simp] theorem Ctl.modPst_bar2 (s : Ctl) (d : Nat) (f : PstDom → PstDom) : (s.modPst d f).bar2 = s.bar2 := by rfl
@[simp] theorem Ctl.modPst_banks (s : Ctl) (d : Nat) (f : PstDom → PstDom) : (s.modPst d f).banks = s.banks := by rfl
@[simp] theorem Ctl.modPst_dom (s : Ctl) (d : Nat) (f : PstDom → PstDom) : (s.modPst d f).dom = s.dom := by rfl
@[simp] theorem Ctl.modPst_net (s : Ctl) (d : Nat) (f : PstDom → PstDom) : (s.modPst d f).net = s.net := by rfl
@[simp] theorem Ctl.modPst_mem (s : Ctl) (d : Nat) (f : PstDom → PstDom) : (s.modPst d f).mem = s.mem := by rfl
@[simp] theorem Ctl.modPst_pools (s : Ctl) (d : Nat) (f : PstDom → PstDom) : (s.modPst d f).pools = s.pools := by rfl
@[simp] theorem Ctl.modPst_upd (s : Ctl) (d : Nat) (f : PstDom → PstDom) : (s.modPst d f).upd = s.upd := by rfl
@[simp] theorem Ctl.modPst_ops (s : Ctl) (d : Nat) (f : PstDom → PstDom) : (s.modPst d f).ops = s.ops := by rfl
@[simp] theorem Ctl.modPst_opCount (s : Ctl) (d : Nat) (f : PstDom → PstDom) : (s.modPst d f).opCount = s.opCount := by rfl
@[simp] theorem Ctl.modPst_seq (s : Ctl) (d : Nat) (f : PstDom → PstDom) : (s.modPst d f).seq = s.seq := by rfl
@[simp] theorem Ctl.modPst_held (s : Ctl) (d : Nat) (f : PstDom → PstDom) : (s.modPst d f).held = s.held := by rfl
@[simp] theorem Ctl.modPst_twinRecs (s : Ctl) (d : Nat) (f : PstDom → PstDom) : (s.modPst d f).twinRecs = s.twinRecs := by rfl
@[simp] theorem Ctl.modPst_tw (s : Ctl) (d : Nat) (f : PstDom → PstDom) : (s.modPst d f).tw = s.tw := by rfl
@[simp] theorem Ctl.modPst_eng (s : Ctl) (d : Nat) (f : PstDom → PstDom) : (s.modPst d f).eng = s.eng := by rfl
@[simp] theorem Ctl.modPst_life (s : Ctl) (d : Nat) (f : PstDom → PstDom) : (s.modPst d f).life = s.life := by rfl
@[simp] theorem Ctl.modPst_fw (s : Ctl) (d : Nat) (f : PstDom → PstDom) : (s.modPst d f).fw = s.fw := by rfl
@[simp] theorem Ctl.modPst_boot (s : Ctl) (d : Nat) (f : PstDom → PstDom) : (s.modPst d f).boot = s.boot := by rfl
@[simp] theorem Ctl.modPst_cir (s : Ctl) (d : Nat) (f : PstDom → PstDom) : (s.modPst d f).cir = s.cir := by rfl
@[simp] theorem Ctl.modPst_i3c (s : Ctl) (d : Nat) (f : PstDom → PstDom) : (s.modPst d f).i3c = s.i3c := by rfl
@[simp] theorem Ctl.modPst_jtag (s : Ctl) (d : Nat) (f : PstDom → PstDom) : (s.modPst d f).jtag = s.jtag := by rfl
@[simp] theorem Ctl.modPst_opExcl (s : Ctl) (d : Nat) (f : PstDom → PstDom) : (s.modPst d f).opExcl = s.opExcl := by rfl
@[simp] theorem Ctl.modPst_routeLow (s : Ctl) (d : Nat) (f : PstDom → PstDom) : (s.modPst d f).routeLow = s.routeLow := by rfl
@[simp] theorem Ctl.modPst_flash (s : Ctl) (d : Nat) (f : PstDom → PstDom) : (s.modPst d f).flash = s.flash := by rfl
@[simp] theorem Ctl.modPst_sent (s : Ctl) (d : Nat) (f : PstDom → PstDom) : (s.modPst d f).sent = s.sent := by rfl
@[simp] theorem Ctl.modPst_freeN (s : Ctl) (d : Nat) (f : PstDom → PstDom) : (s.modPst d f).freeN = s.freeN := by rfl
@[simp] theorem Ctl.modPst_word (s : Ctl) (d : Nat) (f : PstDom → PstDom) (q : Nat) : (s.modPst d f).word q = s.word q := by rfl
@[simp] theorem Ctl.modPst_rd (s : Ctl) (d : Nat) (f : PstDom → PstDom) (g : FRef) : (s.modPst d f).rd g = s.rd g := by rfl
@[simp] theorem Ctl.modPst_bit (s : Ctl) (d : Nat) (f : PstDom → PstDom) (g : FRef) : (s.modPst d f).bit g = s.bit g := by rfl
@[simp] theorem Ctl.modPst_rdWord (s : Ctl) (d : Nat) (f : PstDom → PstDom) (q : Nat) : (s.modPst d f).rdWord q = s.rdWord q := by rfl

/-! ## setUpd -/

@[simp] theorem Ctl.setUpd_fuse (s : Ctl) (n : Nat) (u : UpdSt) : (s.setUpd n u).fuse = s.fuse := by rfl
@[simp] theorem Ctl.setUpd_bar0 (s : Ctl) (n : Nat) (u : UpdSt) : (s.setUpd n u).bar0 = s.bar0 := by rfl
@[simp] theorem Ctl.setUpd_cyc (s : Ctl) (n : Nat) (u : UpdSt) : (s.setUpd n u).cyc = s.cyc := by rfl
@[simp] theorem Ctl.setUpd_flt (s : Ctl) (n : Nat) (u : UpdSt) : (s.setUpd n u).flt = s.flt := by rfl
@[simp] theorem Ctl.setUpd_mer (s : Ctl) (n : Nat) (u : UpdSt) : (s.setUpd n u).mer = s.mer := by rfl
@[simp] theorem Ctl.setUpd_links (s : Ctl) (n : Nat) (u : UpdSt) : (s.setUpd n u).links = s.links := by rfl
@[simp] theorem Ctl.setUpd_sw (s : Ctl) (n : Nat) (u : UpdSt) : (s.setUpd n u).sw = s.sw := by rfl
@[simp] theorem Ctl.setUpd_host (s : Ctl) (n : Nat) (u : UpdSt) : (s.setUpd n u).host = s.host := by rfl
@[simp] theorem Ctl.setUpd_bar2 (s : Ctl) (n : Nat) (u : UpdSt) : (s.setUpd n u).bar2 = s.bar2 := by rfl
@[simp] theorem Ctl.setUpd_banks (s : Ctl) (n : Nat) (u : UpdSt) : (s.setUpd n u).banks = s.banks := by rfl
@[simp] theorem Ctl.setUpd_dom (s : Ctl) (n : Nat) (u : UpdSt) : (s.setUpd n u).dom = s.dom := by rfl
@[simp] theorem Ctl.setUpd_net (s : Ctl) (n : Nat) (u : UpdSt) : (s.setUpd n u).net = s.net := by rfl
@[simp] theorem Ctl.setUpd_mem (s : Ctl) (n : Nat) (u : UpdSt) : (s.setUpd n u).mem = s.mem := by rfl
@[simp] theorem Ctl.setUpd_pools (s : Ctl) (n : Nat) (u : UpdSt) : (s.setUpd n u).pools = s.pools := by rfl
@[simp] theorem Ctl.setUpd_pst (s : Ctl) (n : Nat) (u : UpdSt) : (s.setUpd n u).pst = s.pst := by rfl
@[simp] theorem Ctl.setUpd_ops (s : Ctl) (n : Nat) (u : UpdSt) : (s.setUpd n u).ops = s.ops := by rfl
@[simp] theorem Ctl.setUpd_opCount (s : Ctl) (n : Nat) (u : UpdSt) : (s.setUpd n u).opCount = s.opCount := by rfl
@[simp] theorem Ctl.setUpd_seq (s : Ctl) (n : Nat) (u : UpdSt) : (s.setUpd n u).seq = s.seq := by rfl
@[simp] theorem Ctl.setUpd_held (s : Ctl) (n : Nat) (u : UpdSt) : (s.setUpd n u).held = s.held := by rfl
@[simp] theorem Ctl.setUpd_twinRecs (s : Ctl) (n : Nat) (u : UpdSt) : (s.setUpd n u).twinRecs = s.twinRecs := by rfl
@[simp] theorem Ctl.setUpd_tw (s : Ctl) (n : Nat) (u : UpdSt) : (s.setUpd n u).tw = s.tw := by rfl
@[simp] theorem Ctl.setUpd_eng (s : Ctl) (n : Nat) (u : UpdSt) : (s.setUpd n u).eng = s.eng := by rfl
@[simp] theorem Ctl.setUpd_life (s : Ctl) (n : Nat) (u : UpdSt) : (s.setUpd n u).life = s.life := by rfl
@[simp] theorem Ctl.setUpd_fw (s : Ctl) (n : Nat) (u : UpdSt) : (s.setUpd n u).fw = s.fw := by rfl
@[simp] theorem Ctl.setUpd_boot (s : Ctl) (n : Nat) (u : UpdSt) : (s.setUpd n u).boot = s.boot := by rfl
@[simp] theorem Ctl.setUpd_cir (s : Ctl) (n : Nat) (u : UpdSt) : (s.setUpd n u).cir = s.cir := by rfl
@[simp] theorem Ctl.setUpd_i3c (s : Ctl) (n : Nat) (u : UpdSt) : (s.setUpd n u).i3c = s.i3c := by rfl
@[simp] theorem Ctl.setUpd_jtag (s : Ctl) (n : Nat) (u : UpdSt) : (s.setUpd n u).jtag = s.jtag := by rfl
@[simp] theorem Ctl.setUpd_opExcl (s : Ctl) (n : Nat) (u : UpdSt) : (s.setUpd n u).opExcl = s.opExcl := by rfl
@[simp] theorem Ctl.setUpd_routeLow (s : Ctl) (n : Nat) (u : UpdSt) : (s.setUpd n u).routeLow = s.routeLow := by rfl
@[simp] theorem Ctl.setUpd_flash (s : Ctl) (n : Nat) (u : UpdSt) : (s.setUpd n u).flash = s.flash := by rfl
@[simp] theorem Ctl.setUpd_sent (s : Ctl) (n : Nat) (u : UpdSt) : (s.setUpd n u).sent = s.sent := by rfl
@[simp] theorem Ctl.setUpd_freeN (s : Ctl) (n : Nat) (u : UpdSt) : (s.setUpd n u).freeN = s.freeN := by rfl
@[simp] theorem Ctl.setUpd_word (s : Ctl) (n : Nat) (u : UpdSt) (q : Nat) : (s.setUpd n u).word q = s.word q := by rfl
@[simp] theorem Ctl.setUpd_rd (s : Ctl) (n : Nat) (u : UpdSt) (g : FRef) : (s.setUpd n u).rd g = s.rd g := by rfl
@[simp] theorem Ctl.setUpd_bit (s : Ctl) (n : Nat) (u : UpdSt) (g : FRef) : (s.setUpd n u).bit g = s.bit g := by rfl
@[simp] theorem Ctl.setUpd_rdWord (s : Ctl) (n : Nat) (u : UpdSt) (q : Nat) : (s.setUpd n u).rdWord q = s.rdWord q := by rfl

/-! ## setSeq -/

@[simp] theorem Ctl.setSeq_fuse (s : Ctl) (n : Nat) (x : SeqSt) : (s.setSeq n x).fuse = s.fuse := by rfl
@[simp] theorem Ctl.setSeq_bar0 (s : Ctl) (n : Nat) (x : SeqSt) : (s.setSeq n x).bar0 = s.bar0 := by rfl
@[simp] theorem Ctl.setSeq_cyc (s : Ctl) (n : Nat) (x : SeqSt) : (s.setSeq n x).cyc = s.cyc := by rfl
@[simp] theorem Ctl.setSeq_flt (s : Ctl) (n : Nat) (x : SeqSt) : (s.setSeq n x).flt = s.flt := by rfl
@[simp] theorem Ctl.setSeq_mer (s : Ctl) (n : Nat) (x : SeqSt) : (s.setSeq n x).mer = s.mer := by rfl
@[simp] theorem Ctl.setSeq_links (s : Ctl) (n : Nat) (x : SeqSt) : (s.setSeq n x).links = s.links := by rfl
@[simp] theorem Ctl.setSeq_sw (s : Ctl) (n : Nat) (x : SeqSt) : (s.setSeq n x).sw = s.sw := by rfl
@[simp] theorem Ctl.setSeq_host (s : Ctl) (n : Nat) (x : SeqSt) : (s.setSeq n x).host = s.host := by rfl
@[simp] theorem Ctl.setSeq_bar2 (s : Ctl) (n : Nat) (x : SeqSt) : (s.setSeq n x).bar2 = s.bar2 := by rfl
@[simp] theorem Ctl.setSeq_banks (s : Ctl) (n : Nat) (x : SeqSt) : (s.setSeq n x).banks = s.banks := by rfl
@[simp] theorem Ctl.setSeq_dom (s : Ctl) (n : Nat) (x : SeqSt) : (s.setSeq n x).dom = s.dom := by rfl
@[simp] theorem Ctl.setSeq_net (s : Ctl) (n : Nat) (x : SeqSt) : (s.setSeq n x).net = s.net := by rfl
@[simp] theorem Ctl.setSeq_mem (s : Ctl) (n : Nat) (x : SeqSt) : (s.setSeq n x).mem = s.mem := by rfl
@[simp] theorem Ctl.setSeq_pools (s : Ctl) (n : Nat) (x : SeqSt) : (s.setSeq n x).pools = s.pools := by rfl
@[simp] theorem Ctl.setSeq_pst (s : Ctl) (n : Nat) (x : SeqSt) : (s.setSeq n x).pst = s.pst := by rfl
@[simp] theorem Ctl.setSeq_upd (s : Ctl) (n : Nat) (x : SeqSt) : (s.setSeq n x).upd = s.upd := by rfl
@[simp] theorem Ctl.setSeq_ops (s : Ctl) (n : Nat) (x : SeqSt) : (s.setSeq n x).ops = s.ops := by rfl
@[simp] theorem Ctl.setSeq_opCount (s : Ctl) (n : Nat) (x : SeqSt) : (s.setSeq n x).opCount = s.opCount := by rfl
@[simp] theorem Ctl.setSeq_held (s : Ctl) (n : Nat) (x : SeqSt) : (s.setSeq n x).held = s.held := by rfl
@[simp] theorem Ctl.setSeq_twinRecs (s : Ctl) (n : Nat) (x : SeqSt) : (s.setSeq n x).twinRecs = s.twinRecs := by rfl
@[simp] theorem Ctl.setSeq_tw (s : Ctl) (n : Nat) (x : SeqSt) : (s.setSeq n x).tw = s.tw := by rfl
@[simp] theorem Ctl.setSeq_eng (s : Ctl) (n : Nat) (x : SeqSt) : (s.setSeq n x).eng = s.eng := by rfl
@[simp] theorem Ctl.setSeq_life (s : Ctl) (n : Nat) (x : SeqSt) : (s.setSeq n x).life = s.life := by rfl
@[simp] theorem Ctl.setSeq_fw (s : Ctl) (n : Nat) (x : SeqSt) : (s.setSeq n x).fw = s.fw := by rfl
@[simp] theorem Ctl.setSeq_boot (s : Ctl) (n : Nat) (x : SeqSt) : (s.setSeq n x).boot = s.boot := by rfl
@[simp] theorem Ctl.setSeq_cir (s : Ctl) (n : Nat) (x : SeqSt) : (s.setSeq n x).cir = s.cir := by rfl
@[simp] theorem Ctl.setSeq_i3c (s : Ctl) (n : Nat) (x : SeqSt) : (s.setSeq n x).i3c = s.i3c := by rfl
@[simp] theorem Ctl.setSeq_jtag (s : Ctl) (n : Nat) (x : SeqSt) : (s.setSeq n x).jtag = s.jtag := by rfl
@[simp] theorem Ctl.setSeq_opExcl (s : Ctl) (n : Nat) (x : SeqSt) : (s.setSeq n x).opExcl = s.opExcl := by rfl
@[simp] theorem Ctl.setSeq_routeLow (s : Ctl) (n : Nat) (x : SeqSt) : (s.setSeq n x).routeLow = s.routeLow := by rfl
@[simp] theorem Ctl.setSeq_flash (s : Ctl) (n : Nat) (x : SeqSt) : (s.setSeq n x).flash = s.flash := by rfl
@[simp] theorem Ctl.setSeq_sent (s : Ctl) (n : Nat) (x : SeqSt) : (s.setSeq n x).sent = s.sent := by rfl
@[simp] theorem Ctl.setSeq_freeN (s : Ctl) (n : Nat) (x : SeqSt) : (s.setSeq n x).freeN = s.freeN := by rfl
@[simp] theorem Ctl.setSeq_word (s : Ctl) (n : Nat) (x : SeqSt) (q : Nat) : (s.setSeq n x).word q = s.word q := by rfl
@[simp] theorem Ctl.setSeq_rd (s : Ctl) (n : Nat) (x : SeqSt) (g : FRef) : (s.setSeq n x).rd g = s.rd g := by rfl
@[simp] theorem Ctl.setSeq_bit (s : Ctl) (n : Nat) (x : SeqSt) (g : FRef) : (s.setSeq n x).bit g = s.bit g := by rfl
@[simp] theorem Ctl.setSeq_rdWord (s : Ctl) (n : Nat) (x : SeqSt) (q : Nat) : (s.setSeq n x).rdWord q = s.rdWord q := by rfl

/-! ## setOp -/

@[simp] theorem Ctl.setOp_fuse (s : Ctl) (k : Nat) (x : OpSt) : (s.setOp k x).fuse = s.fuse := by rfl
@[simp] theorem Ctl.setOp_bar0 (s : Ctl) (k : Nat) (x : OpSt) : (s.setOp k x).bar0 = s.bar0 := by rfl
@[simp] theorem Ctl.setOp_cyc (s : Ctl) (k : Nat) (x : OpSt) : (s.setOp k x).cyc = s.cyc := by rfl
@[simp] theorem Ctl.setOp_flt (s : Ctl) (k : Nat) (x : OpSt) : (s.setOp k x).flt = s.flt := by rfl
@[simp] theorem Ctl.setOp_mer (s : Ctl) (k : Nat) (x : OpSt) : (s.setOp k x).mer = s.mer := by rfl
@[simp] theorem Ctl.setOp_links (s : Ctl) (k : Nat) (x : OpSt) : (s.setOp k x).links = s.links := by rfl
@[simp] theorem Ctl.setOp_sw (s : Ctl) (k : Nat) (x : OpSt) : (s.setOp k x).sw = s.sw := by rfl
@[simp] theorem Ctl.setOp_host (s : Ctl) (k : Nat) (x : OpSt) : (s.setOp k x).host = s.host := by rfl
@[simp] theorem Ctl.setOp_bar2 (s : Ctl) (k : Nat) (x : OpSt) : (s.setOp k x).bar2 = s.bar2 := by rfl
@[simp] theorem Ctl.setOp_banks (s : Ctl) (k : Nat) (x : OpSt) : (s.setOp k x).banks = s.banks := by rfl
@[simp] theorem Ctl.setOp_dom (s : Ctl) (k : Nat) (x : OpSt) : (s.setOp k x).dom = s.dom := by rfl
@[simp] theorem Ctl.setOp_net (s : Ctl) (k : Nat) (x : OpSt) : (s.setOp k x).net = s.net := by rfl
@[simp] theorem Ctl.setOp_mem (s : Ctl) (k : Nat) (x : OpSt) : (s.setOp k x).mem = s.mem := by rfl
@[simp] theorem Ctl.setOp_pools (s : Ctl) (k : Nat) (x : OpSt) : (s.setOp k x).pools = s.pools := by rfl
@[simp] theorem Ctl.setOp_pst (s : Ctl) (k : Nat) (x : OpSt) : (s.setOp k x).pst = s.pst := by rfl
@[simp] theorem Ctl.setOp_upd (s : Ctl) (k : Nat) (x : OpSt) : (s.setOp k x).upd = s.upd := by rfl
@[simp] theorem Ctl.setOp_opCount (s : Ctl) (k : Nat) (x : OpSt) : (s.setOp k x).opCount = s.opCount := by rfl
@[simp] theorem Ctl.setOp_seq (s : Ctl) (k : Nat) (x : OpSt) : (s.setOp k x).seq = s.seq := by rfl
@[simp] theorem Ctl.setOp_held (s : Ctl) (k : Nat) (x : OpSt) : (s.setOp k x).held = s.held := by rfl
@[simp] theorem Ctl.setOp_twinRecs (s : Ctl) (k : Nat) (x : OpSt) : (s.setOp k x).twinRecs = s.twinRecs := by rfl
@[simp] theorem Ctl.setOp_tw (s : Ctl) (k : Nat) (x : OpSt) : (s.setOp k x).tw = s.tw := by rfl
@[simp] theorem Ctl.setOp_eng (s : Ctl) (k : Nat) (x : OpSt) : (s.setOp k x).eng = s.eng := by rfl
@[simp] theorem Ctl.setOp_life (s : Ctl) (k : Nat) (x : OpSt) : (s.setOp k x).life = s.life := by rfl
@[simp] theorem Ctl.setOp_fw (s : Ctl) (k : Nat) (x : OpSt) : (s.setOp k x).fw = s.fw := by rfl
@[simp] theorem Ctl.setOp_boot (s : Ctl) (k : Nat) (x : OpSt) : (s.setOp k x).boot = s.boot := by rfl
@[simp] theorem Ctl.setOp_cir (s : Ctl) (k : Nat) (x : OpSt) : (s.setOp k x).cir = s.cir := by rfl
@[simp] theorem Ctl.setOp_i3c (s : Ctl) (k : Nat) (x : OpSt) : (s.setOp k x).i3c = s.i3c := by rfl
@[simp] theorem Ctl.setOp_jtag (s : Ctl) (k : Nat) (x : OpSt) : (s.setOp k x).jtag = s.jtag := by rfl
@[simp] theorem Ctl.setOp_opExcl (s : Ctl) (k : Nat) (x : OpSt) : (s.setOp k x).opExcl = s.opExcl := by rfl
@[simp] theorem Ctl.setOp_routeLow (s : Ctl) (k : Nat) (x : OpSt) : (s.setOp k x).routeLow = s.routeLow := by rfl
@[simp] theorem Ctl.setOp_flash (s : Ctl) (k : Nat) (x : OpSt) : (s.setOp k x).flash = s.flash := by rfl
@[simp] theorem Ctl.setOp_sent (s : Ctl) (k : Nat) (x : OpSt) : (s.setOp k x).sent = s.sent := by rfl
@[simp] theorem Ctl.setOp_freeN (s : Ctl) (k : Nat) (x : OpSt) : (s.setOp k x).freeN = s.freeN := by rfl
@[simp] theorem Ctl.setOp_word (s : Ctl) (k : Nat) (x : OpSt) (q : Nat) : (s.setOp k x).word q = s.word q := by rfl
@[simp] theorem Ctl.setOp_rd (s : Ctl) (k : Nat) (x : OpSt) (g : FRef) : (s.setOp k x).rd g = s.rd g := by rfl
@[simp] theorem Ctl.setOp_bit (s : Ctl) (k : Nat) (x : OpSt) (g : FRef) : (s.setOp k x).bit g = s.bit g := by rfl
@[simp] theorem Ctl.setOp_rdWord (s : Ctl) (k : Nat) (x : OpSt) (q : Nat) : (s.setOp k x).rdWord q = s.rdWord q := by rfl

/-! ## modOp -/

@[simp] theorem Ctl.modOp_fuse (s : Ctl) (k : Nat) (f : OpSt → OpSt) : (s.modOp k f).fuse = s.fuse := by rfl
@[simp] theorem Ctl.modOp_bar0 (s : Ctl) (k : Nat) (f : OpSt → OpSt) : (s.modOp k f).bar0 = s.bar0 := by rfl
@[simp] theorem Ctl.modOp_cyc (s : Ctl) (k : Nat) (f : OpSt → OpSt) : (s.modOp k f).cyc = s.cyc := by rfl
@[simp] theorem Ctl.modOp_flt (s : Ctl) (k : Nat) (f : OpSt → OpSt) : (s.modOp k f).flt = s.flt := by rfl
@[simp] theorem Ctl.modOp_mer (s : Ctl) (k : Nat) (f : OpSt → OpSt) : (s.modOp k f).mer = s.mer := by rfl
@[simp] theorem Ctl.modOp_links (s : Ctl) (k : Nat) (f : OpSt → OpSt) : (s.modOp k f).links = s.links := by rfl
@[simp] theorem Ctl.modOp_sw (s : Ctl) (k : Nat) (f : OpSt → OpSt) : (s.modOp k f).sw = s.sw := by rfl
@[simp] theorem Ctl.modOp_host (s : Ctl) (k : Nat) (f : OpSt → OpSt) : (s.modOp k f).host = s.host := by rfl
@[simp] theorem Ctl.modOp_bar2 (s : Ctl) (k : Nat) (f : OpSt → OpSt) : (s.modOp k f).bar2 = s.bar2 := by rfl
@[simp] theorem Ctl.modOp_banks (s : Ctl) (k : Nat) (f : OpSt → OpSt) : (s.modOp k f).banks = s.banks := by rfl
@[simp] theorem Ctl.modOp_dom (s : Ctl) (k : Nat) (f : OpSt → OpSt) : (s.modOp k f).dom = s.dom := by rfl
@[simp] theorem Ctl.modOp_net (s : Ctl) (k : Nat) (f : OpSt → OpSt) : (s.modOp k f).net = s.net := by rfl
@[simp] theorem Ctl.modOp_mem (s : Ctl) (k : Nat) (f : OpSt → OpSt) : (s.modOp k f).mem = s.mem := by rfl
@[simp] theorem Ctl.modOp_pools (s : Ctl) (k : Nat) (f : OpSt → OpSt) : (s.modOp k f).pools = s.pools := by rfl
@[simp] theorem Ctl.modOp_pst (s : Ctl) (k : Nat) (f : OpSt → OpSt) : (s.modOp k f).pst = s.pst := by rfl
@[simp] theorem Ctl.modOp_upd (s : Ctl) (k : Nat) (f : OpSt → OpSt) : (s.modOp k f).upd = s.upd := by rfl
@[simp] theorem Ctl.modOp_opCount (s : Ctl) (k : Nat) (f : OpSt → OpSt) : (s.modOp k f).opCount = s.opCount := by rfl
@[simp] theorem Ctl.modOp_seq (s : Ctl) (k : Nat) (f : OpSt → OpSt) : (s.modOp k f).seq = s.seq := by rfl
@[simp] theorem Ctl.modOp_held (s : Ctl) (k : Nat) (f : OpSt → OpSt) : (s.modOp k f).held = s.held := by rfl
@[simp] theorem Ctl.modOp_twinRecs (s : Ctl) (k : Nat) (f : OpSt → OpSt) : (s.modOp k f).twinRecs = s.twinRecs := by rfl
@[simp] theorem Ctl.modOp_tw (s : Ctl) (k : Nat) (f : OpSt → OpSt) : (s.modOp k f).tw = s.tw := by rfl
@[simp] theorem Ctl.modOp_eng (s : Ctl) (k : Nat) (f : OpSt → OpSt) : (s.modOp k f).eng = s.eng := by rfl
@[simp] theorem Ctl.modOp_life (s : Ctl) (k : Nat) (f : OpSt → OpSt) : (s.modOp k f).life = s.life := by rfl
@[simp] theorem Ctl.modOp_fw (s : Ctl) (k : Nat) (f : OpSt → OpSt) : (s.modOp k f).fw = s.fw := by rfl
@[simp] theorem Ctl.modOp_boot (s : Ctl) (k : Nat) (f : OpSt → OpSt) : (s.modOp k f).boot = s.boot := by rfl
@[simp] theorem Ctl.modOp_cir (s : Ctl) (k : Nat) (f : OpSt → OpSt) : (s.modOp k f).cir = s.cir := by rfl
@[simp] theorem Ctl.modOp_i3c (s : Ctl) (k : Nat) (f : OpSt → OpSt) : (s.modOp k f).i3c = s.i3c := by rfl
@[simp] theorem Ctl.modOp_jtag (s : Ctl) (k : Nat) (f : OpSt → OpSt) : (s.modOp k f).jtag = s.jtag := by rfl
@[simp] theorem Ctl.modOp_opExcl (s : Ctl) (k : Nat) (f : OpSt → OpSt) : (s.modOp k f).opExcl = s.opExcl := by rfl
@[simp] theorem Ctl.modOp_routeLow (s : Ctl) (k : Nat) (f : OpSt → OpSt) : (s.modOp k f).routeLow = s.routeLow := by rfl
@[simp] theorem Ctl.modOp_flash (s : Ctl) (k : Nat) (f : OpSt → OpSt) : (s.modOp k f).flash = s.flash := by rfl
@[simp] theorem Ctl.modOp_sent (s : Ctl) (k : Nat) (f : OpSt → OpSt) : (s.modOp k f).sent = s.sent := by rfl
@[simp] theorem Ctl.modOp_freeN (s : Ctl) (k : Nat) (f : OpSt → OpSt) : (s.modOp k f).freeN = s.freeN := by rfl
@[simp] theorem Ctl.modOp_word (s : Ctl) (k : Nat) (f : OpSt → OpSt) (q : Nat) : (s.modOp k f).word q = s.word q := by rfl
@[simp] theorem Ctl.modOp_rd (s : Ctl) (k : Nat) (f : OpSt → OpSt) (g : FRef) : (s.modOp k f).rd g = s.rd g := by rfl
@[simp] theorem Ctl.modOp_bit (s : Ctl) (k : Nat) (f : OpSt → OpSt) (g : FRef) : (s.modOp k f).bit g = s.bit g := by rfl
@[simp] theorem Ctl.modOp_rdWord (s : Ctl) (k : Nat) (f : OpSt → OpSt) (q : Nat) : (s.modOp k f).rdWord q = s.rdWord q := by rfl

/-! ## setEng -/

@[simp] theorem Ctl.setEng_fuse (s : Ctl) (n : Nat) (e : EngSt) : (s.setEng n e).fuse = s.fuse := by rfl
@[simp] theorem Ctl.setEng_bar0 (s : Ctl) (n : Nat) (e : EngSt) : (s.setEng n e).bar0 = s.bar0 := by rfl
@[simp] theorem Ctl.setEng_cyc (s : Ctl) (n : Nat) (e : EngSt) : (s.setEng n e).cyc = s.cyc := by rfl
@[simp] theorem Ctl.setEng_flt (s : Ctl) (n : Nat) (e : EngSt) : (s.setEng n e).flt = s.flt := by rfl
@[simp] theorem Ctl.setEng_mer (s : Ctl) (n : Nat) (e : EngSt) : (s.setEng n e).mer = s.mer := by rfl
@[simp] theorem Ctl.setEng_links (s : Ctl) (n : Nat) (e : EngSt) : (s.setEng n e).links = s.links := by rfl
@[simp] theorem Ctl.setEng_sw (s : Ctl) (n : Nat) (e : EngSt) : (s.setEng n e).sw = s.sw := by rfl
@[simp] theorem Ctl.setEng_host (s : Ctl) (n : Nat) (e : EngSt) : (s.setEng n e).host = s.host := by rfl
@[simp] theorem Ctl.setEng_bar2 (s : Ctl) (n : Nat) (e : EngSt) : (s.setEng n e).bar2 = s.bar2 := by rfl
@[simp] theorem Ctl.setEng_banks (s : Ctl) (n : Nat) (e : EngSt) : (s.setEng n e).banks = s.banks := by rfl
@[simp] theorem Ctl.setEng_dom (s : Ctl) (n : Nat) (e : EngSt) : (s.setEng n e).dom = s.dom := by rfl
@[simp] theorem Ctl.setEng_net (s : Ctl) (n : Nat) (e : EngSt) : (s.setEng n e).net = s.net := by rfl
@[simp] theorem Ctl.setEng_mem (s : Ctl) (n : Nat) (e : EngSt) : (s.setEng n e).mem = s.mem := by rfl
@[simp] theorem Ctl.setEng_pools (s : Ctl) (n : Nat) (e : EngSt) : (s.setEng n e).pools = s.pools := by rfl
@[simp] theorem Ctl.setEng_pst (s : Ctl) (n : Nat) (e : EngSt) : (s.setEng n e).pst = s.pst := by rfl
@[simp] theorem Ctl.setEng_upd (s : Ctl) (n : Nat) (e : EngSt) : (s.setEng n e).upd = s.upd := by rfl
@[simp] theorem Ctl.setEng_ops (s : Ctl) (n : Nat) (e : EngSt) : (s.setEng n e).ops = s.ops := by rfl
@[simp] theorem Ctl.setEng_opCount (s : Ctl) (n : Nat) (e : EngSt) : (s.setEng n e).opCount = s.opCount := by rfl
@[simp] theorem Ctl.setEng_seq (s : Ctl) (n : Nat) (e : EngSt) : (s.setEng n e).seq = s.seq := by rfl
@[simp] theorem Ctl.setEng_held (s : Ctl) (n : Nat) (e : EngSt) : (s.setEng n e).held = s.held := by rfl
@[simp] theorem Ctl.setEng_twinRecs (s : Ctl) (n : Nat) (e : EngSt) : (s.setEng n e).twinRecs = s.twinRecs := by rfl
@[simp] theorem Ctl.setEng_tw (s : Ctl) (n : Nat) (e : EngSt) : (s.setEng n e).tw = s.tw := by rfl
@[simp] theorem Ctl.setEng_life (s : Ctl) (n : Nat) (e : EngSt) : (s.setEng n e).life = s.life := by rfl
@[simp] theorem Ctl.setEng_fw (s : Ctl) (n : Nat) (e : EngSt) : (s.setEng n e).fw = s.fw := by rfl
@[simp] theorem Ctl.setEng_boot (s : Ctl) (n : Nat) (e : EngSt) : (s.setEng n e).boot = s.boot := by rfl
@[simp] theorem Ctl.setEng_cir (s : Ctl) (n : Nat) (e : EngSt) : (s.setEng n e).cir = s.cir := by rfl
@[simp] theorem Ctl.setEng_i3c (s : Ctl) (n : Nat) (e : EngSt) : (s.setEng n e).i3c = s.i3c := by rfl
@[simp] theorem Ctl.setEng_jtag (s : Ctl) (n : Nat) (e : EngSt) : (s.setEng n e).jtag = s.jtag := by rfl
@[simp] theorem Ctl.setEng_opExcl (s : Ctl) (n : Nat) (e : EngSt) : (s.setEng n e).opExcl = s.opExcl := by rfl
@[simp] theorem Ctl.setEng_routeLow (s : Ctl) (n : Nat) (e : EngSt) : (s.setEng n e).routeLow = s.routeLow := by rfl
@[simp] theorem Ctl.setEng_flash (s : Ctl) (n : Nat) (e : EngSt) : (s.setEng n e).flash = s.flash := by rfl
@[simp] theorem Ctl.setEng_sent (s : Ctl) (n : Nat) (e : EngSt) : (s.setEng n e).sent = s.sent := by rfl
@[simp] theorem Ctl.setEng_freeN (s : Ctl) (n : Nat) (e : EngSt) : (s.setEng n e).freeN = s.freeN := by rfl
@[simp] theorem Ctl.setEng_word (s : Ctl) (n : Nat) (e : EngSt) (q : Nat) : (s.setEng n e).word q = s.word q := by rfl
@[simp] theorem Ctl.setEng_rd (s : Ctl) (n : Nat) (e : EngSt) (g : FRef) : (s.setEng n e).rd g = s.rd g := by rfl
@[simp] theorem Ctl.setEng_bit (s : Ctl) (n : Nat) (e : EngSt) (g : FRef) : (s.setEng n e).bit g = s.bit g := by rfl
@[simp] theorem Ctl.setEng_rdWord (s : Ctl) (n : Nat) (e : EngSt) (q : Nat) : (s.setEng n e).rdWord q = s.rdWord q := by rfl

/-! ## modEng -/

@[simp] theorem Ctl.modEng_fuse (s : Ctl) (n : Nat) (f : EngSt → EngSt) : (s.modEng n f).fuse = s.fuse := by rfl
@[simp] theorem Ctl.modEng_bar0 (s : Ctl) (n : Nat) (f : EngSt → EngSt) : (s.modEng n f).bar0 = s.bar0 := by rfl
@[simp] theorem Ctl.modEng_cyc (s : Ctl) (n : Nat) (f : EngSt → EngSt) : (s.modEng n f).cyc = s.cyc := by rfl
@[simp] theorem Ctl.modEng_flt (s : Ctl) (n : Nat) (f : EngSt → EngSt) : (s.modEng n f).flt = s.flt := by rfl
@[simp] theorem Ctl.modEng_mer (s : Ctl) (n : Nat) (f : EngSt → EngSt) : (s.modEng n f).mer = s.mer := by rfl
@[simp] theorem Ctl.modEng_links (s : Ctl) (n : Nat) (f : EngSt → EngSt) : (s.modEng n f).links = s.links := by rfl
@[simp] theorem Ctl.modEng_sw (s : Ctl) (n : Nat) (f : EngSt → EngSt) : (s.modEng n f).sw = s.sw := by rfl
@[simp] theorem Ctl.modEng_host (s : Ctl) (n : Nat) (f : EngSt → EngSt) : (s.modEng n f).host = s.host := by rfl
@[simp] theorem Ctl.modEng_bar2 (s : Ctl) (n : Nat) (f : EngSt → EngSt) : (s.modEng n f).bar2 = s.bar2 := by rfl
@[simp] theorem Ctl.modEng_banks (s : Ctl) (n : Nat) (f : EngSt → EngSt) : (s.modEng n f).banks = s.banks := by rfl
@[simp] theorem Ctl.modEng_dom (s : Ctl) (n : Nat) (f : EngSt → EngSt) : (s.modEng n f).dom = s.dom := by rfl
@[simp] theorem Ctl.modEng_net (s : Ctl) (n : Nat) (f : EngSt → EngSt) : (s.modEng n f).net = s.net := by rfl
@[simp] theorem Ctl.modEng_mem (s : Ctl) (n : Nat) (f : EngSt → EngSt) : (s.modEng n f).mem = s.mem := by rfl
@[simp] theorem Ctl.modEng_pools (s : Ctl) (n : Nat) (f : EngSt → EngSt) : (s.modEng n f).pools = s.pools := by rfl
@[simp] theorem Ctl.modEng_pst (s : Ctl) (n : Nat) (f : EngSt → EngSt) : (s.modEng n f).pst = s.pst := by rfl
@[simp] theorem Ctl.modEng_upd (s : Ctl) (n : Nat) (f : EngSt → EngSt) : (s.modEng n f).upd = s.upd := by rfl
@[simp] theorem Ctl.modEng_ops (s : Ctl) (n : Nat) (f : EngSt → EngSt) : (s.modEng n f).ops = s.ops := by rfl
@[simp] theorem Ctl.modEng_opCount (s : Ctl) (n : Nat) (f : EngSt → EngSt) : (s.modEng n f).opCount = s.opCount := by rfl
@[simp] theorem Ctl.modEng_seq (s : Ctl) (n : Nat) (f : EngSt → EngSt) : (s.modEng n f).seq = s.seq := by rfl
@[simp] theorem Ctl.modEng_held (s : Ctl) (n : Nat) (f : EngSt → EngSt) : (s.modEng n f).held = s.held := by rfl
@[simp] theorem Ctl.modEng_twinRecs (s : Ctl) (n : Nat) (f : EngSt → EngSt) : (s.modEng n f).twinRecs = s.twinRecs := by rfl
@[simp] theorem Ctl.modEng_tw (s : Ctl) (n : Nat) (f : EngSt → EngSt) : (s.modEng n f).tw = s.tw := by rfl
@[simp] theorem Ctl.modEng_life (s : Ctl) (n : Nat) (f : EngSt → EngSt) : (s.modEng n f).life = s.life := by rfl
@[simp] theorem Ctl.modEng_fw (s : Ctl) (n : Nat) (f : EngSt → EngSt) : (s.modEng n f).fw = s.fw := by rfl
@[simp] theorem Ctl.modEng_boot (s : Ctl) (n : Nat) (f : EngSt → EngSt) : (s.modEng n f).boot = s.boot := by rfl
@[simp] theorem Ctl.modEng_cir (s : Ctl) (n : Nat) (f : EngSt → EngSt) : (s.modEng n f).cir = s.cir := by rfl
@[simp] theorem Ctl.modEng_i3c (s : Ctl) (n : Nat) (f : EngSt → EngSt) : (s.modEng n f).i3c = s.i3c := by rfl
@[simp] theorem Ctl.modEng_jtag (s : Ctl) (n : Nat) (f : EngSt → EngSt) : (s.modEng n f).jtag = s.jtag := by rfl
@[simp] theorem Ctl.modEng_opExcl (s : Ctl) (n : Nat) (f : EngSt → EngSt) : (s.modEng n f).opExcl = s.opExcl := by rfl
@[simp] theorem Ctl.modEng_routeLow (s : Ctl) (n : Nat) (f : EngSt → EngSt) : (s.modEng n f).routeLow = s.routeLow := by rfl
@[simp] theorem Ctl.modEng_flash (s : Ctl) (n : Nat) (f : EngSt → EngSt) : (s.modEng n f).flash = s.flash := by rfl
@[simp] theorem Ctl.modEng_sent (s : Ctl) (n : Nat) (f : EngSt → EngSt) : (s.modEng n f).sent = s.sent := by rfl
@[simp] theorem Ctl.modEng_freeN (s : Ctl) (n : Nat) (f : EngSt → EngSt) : (s.modEng n f).freeN = s.freeN := by rfl
@[simp] theorem Ctl.modEng_word (s : Ctl) (n : Nat) (f : EngSt → EngSt) (q : Nat) : (s.modEng n f).word q = s.word q := by rfl
@[simp] theorem Ctl.modEng_rd (s : Ctl) (n : Nat) (f : EngSt → EngSt) (g : FRef) : (s.modEng n f).rd g = s.rd g := by rfl
@[simp] theorem Ctl.modEng_bit (s : Ctl) (n : Nat) (f : EngSt → EngSt) (g : FRef) : (s.modEng n f).bit g = s.bit g := by rfl
@[simp] theorem Ctl.modEng_rdWord (s : Ctl) (n : Nat) (f : EngSt → EngSt) (q : Nat) : (s.modEng n f).rdWord q = s.rdWord q := by rfl

/-! ## setStream -/

@[simp] theorem Ctl.setStream_fuse (s : Ctl) (n t : Nat) (x : StreamSt) : (s.setStream n t x).fuse = s.fuse := by rfl
@[simp] theorem Ctl.setStream_bar0 (s : Ctl) (n t : Nat) (x : StreamSt) : (s.setStream n t x).bar0 = s.bar0 := by rfl
@[simp] theorem Ctl.setStream_cyc (s : Ctl) (n t : Nat) (x : StreamSt) : (s.setStream n t x).cyc = s.cyc := by rfl
@[simp] theorem Ctl.setStream_flt (s : Ctl) (n t : Nat) (x : StreamSt) : (s.setStream n t x).flt = s.flt := by rfl
@[simp] theorem Ctl.setStream_mer (s : Ctl) (n t : Nat) (x : StreamSt) : (s.setStream n t x).mer = s.mer := by rfl
@[simp] theorem Ctl.setStream_links (s : Ctl) (n t : Nat) (x : StreamSt) : (s.setStream n t x).links = s.links := by rfl
@[simp] theorem Ctl.setStream_sw (s : Ctl) (n t : Nat) (x : StreamSt) : (s.setStream n t x).sw = s.sw := by rfl
@[simp] theorem Ctl.setStream_host (s : Ctl) (n t : Nat) (x : StreamSt) : (s.setStream n t x).host = s.host := by rfl
@[simp] theorem Ctl.setStream_bar2 (s : Ctl) (n t : Nat) (x : StreamSt) : (s.setStream n t x).bar2 = s.bar2 := by rfl
@[simp] theorem Ctl.setStream_banks (s : Ctl) (n t : Nat) (x : StreamSt) : (s.setStream n t x).banks = s.banks := by rfl
@[simp] theorem Ctl.setStream_dom (s : Ctl) (n t : Nat) (x : StreamSt) : (s.setStream n t x).dom = s.dom := by rfl
@[simp] theorem Ctl.setStream_net (s : Ctl) (n t : Nat) (x : StreamSt) : (s.setStream n t x).net = s.net := by rfl
@[simp] theorem Ctl.setStream_mem (s : Ctl) (n t : Nat) (x : StreamSt) : (s.setStream n t x).mem = s.mem := by rfl
@[simp] theorem Ctl.setStream_pools (s : Ctl) (n t : Nat) (x : StreamSt) : (s.setStream n t x).pools = s.pools := by rfl
@[simp] theorem Ctl.setStream_pst (s : Ctl) (n t : Nat) (x : StreamSt) : (s.setStream n t x).pst = s.pst := by rfl
@[simp] theorem Ctl.setStream_upd (s : Ctl) (n t : Nat) (x : StreamSt) : (s.setStream n t x).upd = s.upd := by rfl
@[simp] theorem Ctl.setStream_ops (s : Ctl) (n t : Nat) (x : StreamSt) : (s.setStream n t x).ops = s.ops := by rfl
@[simp] theorem Ctl.setStream_opCount (s : Ctl) (n t : Nat) (x : StreamSt) : (s.setStream n t x).opCount = s.opCount := by rfl
@[simp] theorem Ctl.setStream_seq (s : Ctl) (n t : Nat) (x : StreamSt) : (s.setStream n t x).seq = s.seq := by rfl
@[simp] theorem Ctl.setStream_held (s : Ctl) (n t : Nat) (x : StreamSt) : (s.setStream n t x).held = s.held := by rfl
@[simp] theorem Ctl.setStream_twinRecs (s : Ctl) (n t : Nat) (x : StreamSt) : (s.setStream n t x).twinRecs = s.twinRecs := by rfl
@[simp] theorem Ctl.setStream_tw (s : Ctl) (n t : Nat) (x : StreamSt) : (s.setStream n t x).tw = s.tw := by rfl
@[simp] theorem Ctl.setStream_life (s : Ctl) (n t : Nat) (x : StreamSt) : (s.setStream n t x).life = s.life := by rfl
@[simp] theorem Ctl.setStream_fw (s : Ctl) (n t : Nat) (x : StreamSt) : (s.setStream n t x).fw = s.fw := by rfl
@[simp] theorem Ctl.setStream_boot (s : Ctl) (n t : Nat) (x : StreamSt) : (s.setStream n t x).boot = s.boot := by rfl
@[simp] theorem Ctl.setStream_cir (s : Ctl) (n t : Nat) (x : StreamSt) : (s.setStream n t x).cir = s.cir := by rfl
@[simp] theorem Ctl.setStream_i3c (s : Ctl) (n t : Nat) (x : StreamSt) : (s.setStream n t x).i3c = s.i3c := by rfl
@[simp] theorem Ctl.setStream_jtag (s : Ctl) (n t : Nat) (x : StreamSt) : (s.setStream n t x).jtag = s.jtag := by rfl
@[simp] theorem Ctl.setStream_opExcl (s : Ctl) (n t : Nat) (x : StreamSt) : (s.setStream n t x).opExcl = s.opExcl := by rfl
@[simp] theorem Ctl.setStream_routeLow (s : Ctl) (n t : Nat) (x : StreamSt) : (s.setStream n t x).routeLow = s.routeLow := by rfl
@[simp] theorem Ctl.setStream_flash (s : Ctl) (n t : Nat) (x : StreamSt) : (s.setStream n t x).flash = s.flash := by rfl
@[simp] theorem Ctl.setStream_sent (s : Ctl) (n t : Nat) (x : StreamSt) : (s.setStream n t x).sent = s.sent := by rfl
@[simp] theorem Ctl.setStream_freeN (s : Ctl) (n t : Nat) (x : StreamSt) : (s.setStream n t x).freeN = s.freeN := by rfl
@[simp] theorem Ctl.setStream_word (s : Ctl) (n t : Nat) (x : StreamSt) (q : Nat) : (s.setStream n t x).word q = s.word q := by rfl
@[simp] theorem Ctl.setStream_rd (s : Ctl) (n t : Nat) (x : StreamSt) (g : FRef) : (s.setStream n t x).rd g = s.rd g := by rfl
@[simp] theorem Ctl.setStream_bit (s : Ctl) (n t : Nat) (x : StreamSt) (g : FRef) : (s.setStream n t x).bit g = s.bit g := by rfl
@[simp] theorem Ctl.setStream_rdWord (s : Ctl) (n t : Nat) (x : StreamSt) (q : Nat) : (s.setStream n t x).rdWord q = s.rdWord q := by rfl

/-! ## modStream -/

@[simp] theorem Ctl.modStream_fuse (s : Ctl) (n t : Nat) (f : StreamSt → StreamSt) : (s.modStream n t f).fuse = s.fuse := by rfl
@[simp] theorem Ctl.modStream_bar0 (s : Ctl) (n t : Nat) (f : StreamSt → StreamSt) : (s.modStream n t f).bar0 = s.bar0 := by rfl
@[simp] theorem Ctl.modStream_cyc (s : Ctl) (n t : Nat) (f : StreamSt → StreamSt) : (s.modStream n t f).cyc = s.cyc := by rfl
@[simp] theorem Ctl.modStream_flt (s : Ctl) (n t : Nat) (f : StreamSt → StreamSt) : (s.modStream n t f).flt = s.flt := by rfl
@[simp] theorem Ctl.modStream_mer (s : Ctl) (n t : Nat) (f : StreamSt → StreamSt) : (s.modStream n t f).mer = s.mer := by rfl
@[simp] theorem Ctl.modStream_links (s : Ctl) (n t : Nat) (f : StreamSt → StreamSt) : (s.modStream n t f).links = s.links := by rfl
@[simp] theorem Ctl.modStream_sw (s : Ctl) (n t : Nat) (f : StreamSt → StreamSt) : (s.modStream n t f).sw = s.sw := by rfl
@[simp] theorem Ctl.modStream_host (s : Ctl) (n t : Nat) (f : StreamSt → StreamSt) : (s.modStream n t f).host = s.host := by rfl
@[simp] theorem Ctl.modStream_bar2 (s : Ctl) (n t : Nat) (f : StreamSt → StreamSt) : (s.modStream n t f).bar2 = s.bar2 := by rfl
@[simp] theorem Ctl.modStream_banks (s : Ctl) (n t : Nat) (f : StreamSt → StreamSt) : (s.modStream n t f).banks = s.banks := by rfl
@[simp] theorem Ctl.modStream_dom (s : Ctl) (n t : Nat) (f : StreamSt → StreamSt) : (s.modStream n t f).dom = s.dom := by rfl
@[simp] theorem Ctl.modStream_net (s : Ctl) (n t : Nat) (f : StreamSt → StreamSt) : (s.modStream n t f).net = s.net := by rfl
@[simp] theorem Ctl.modStream_mem (s : Ctl) (n t : Nat) (f : StreamSt → StreamSt) : (s.modStream n t f).mem = s.mem := by rfl
@[simp] theorem Ctl.modStream_pools (s : Ctl) (n t : Nat) (f : StreamSt → StreamSt) : (s.modStream n t f).pools = s.pools := by rfl
@[simp] theorem Ctl.modStream_pst (s : Ctl) (n t : Nat) (f : StreamSt → StreamSt) : (s.modStream n t f).pst = s.pst := by rfl
@[simp] theorem Ctl.modStream_upd (s : Ctl) (n t : Nat) (f : StreamSt → StreamSt) : (s.modStream n t f).upd = s.upd := by rfl
@[simp] theorem Ctl.modStream_ops (s : Ctl) (n t : Nat) (f : StreamSt → StreamSt) : (s.modStream n t f).ops = s.ops := by rfl
@[simp] theorem Ctl.modStream_opCount (s : Ctl) (n t : Nat) (f : StreamSt → StreamSt) : (s.modStream n t f).opCount = s.opCount := by rfl
@[simp] theorem Ctl.modStream_seq (s : Ctl) (n t : Nat) (f : StreamSt → StreamSt) : (s.modStream n t f).seq = s.seq := by rfl
@[simp] theorem Ctl.modStream_held (s : Ctl) (n t : Nat) (f : StreamSt → StreamSt) : (s.modStream n t f).held = s.held := by rfl
@[simp] theorem Ctl.modStream_twinRecs (s : Ctl) (n t : Nat) (f : StreamSt → StreamSt) : (s.modStream n t f).twinRecs = s.twinRecs := by rfl
@[simp] theorem Ctl.modStream_tw (s : Ctl) (n t : Nat) (f : StreamSt → StreamSt) : (s.modStream n t f).tw = s.tw := by rfl
@[simp] theorem Ctl.modStream_life (s : Ctl) (n t : Nat) (f : StreamSt → StreamSt) : (s.modStream n t f).life = s.life := by rfl
@[simp] theorem Ctl.modStream_fw (s : Ctl) (n t : Nat) (f : StreamSt → StreamSt) : (s.modStream n t f).fw = s.fw := by rfl
@[simp] theorem Ctl.modStream_boot (s : Ctl) (n t : Nat) (f : StreamSt → StreamSt) : (s.modStream n t f).boot = s.boot := by rfl
@[simp] theorem Ctl.modStream_cir (s : Ctl) (n t : Nat) (f : StreamSt → StreamSt) : (s.modStream n t f).cir = s.cir := by rfl
@[simp] theorem Ctl.modStream_i3c (s : Ctl) (n t : Nat) (f : StreamSt → StreamSt) : (s.modStream n t f).i3c = s.i3c := by rfl
@[simp] theorem Ctl.modStream_jtag (s : Ctl) (n t : Nat) (f : StreamSt → StreamSt) : (s.modStream n t f).jtag = s.jtag := by rfl
@[simp] theorem Ctl.modStream_opExcl (s : Ctl) (n t : Nat) (f : StreamSt → StreamSt) : (s.modStream n t f).opExcl = s.opExcl := by rfl
@[simp] theorem Ctl.modStream_routeLow (s : Ctl) (n t : Nat) (f : StreamSt → StreamSt) : (s.modStream n t f).routeLow = s.routeLow := by rfl
@[simp] theorem Ctl.modStream_flash (s : Ctl) (n t : Nat) (f : StreamSt → StreamSt) : (s.modStream n t f).flash = s.flash := by rfl
@[simp] theorem Ctl.modStream_sent (s : Ctl) (n t : Nat) (f : StreamSt → StreamSt) : (s.modStream n t f).sent = s.sent := by rfl
@[simp] theorem Ctl.modStream_freeN (s : Ctl) (n t : Nat) (f : StreamSt → StreamSt) : (s.modStream n t f).freeN = s.freeN := by rfl
@[simp] theorem Ctl.modStream_word (s : Ctl) (n t : Nat) (f : StreamSt → StreamSt) (q : Nat) : (s.modStream n t f).word q = s.word q := by rfl
@[simp] theorem Ctl.modStream_rd (s : Ctl) (n t : Nat) (f : StreamSt → StreamSt) (g : FRef) : (s.modStream n t f).rd g = s.rd g := by rfl
@[simp] theorem Ctl.modStream_bit (s : Ctl) (n t : Nat) (f : StreamSt → StreamSt) (g : FRef) : (s.modStream n t f).bit g = s.bit g := by rfl
@[simp] theorem Ctl.modStream_rdWord (s : Ctl) (n t : Nat) (f : StreamSt → StreamSt) (q : Nat) : (s.modStream n t f).rdWord q = s.rdWord q := by rfl

/-! ## setLife -/

@[simp] theorem Ctl.setLife_fuse (s : Ctl) (u : Nat) (x : LifeSt) : (s.setLife u x).fuse = s.fuse := by rfl
@[simp] theorem Ctl.setLife_bar0 (s : Ctl) (u : Nat) (x : LifeSt) : (s.setLife u x).bar0 = s.bar0 := by rfl
@[simp] theorem Ctl.setLife_cyc (s : Ctl) (u : Nat) (x : LifeSt) : (s.setLife u x).cyc = s.cyc := by rfl
@[simp] theorem Ctl.setLife_flt (s : Ctl) (u : Nat) (x : LifeSt) : (s.setLife u x).flt = s.flt := by rfl
@[simp] theorem Ctl.setLife_mer (s : Ctl) (u : Nat) (x : LifeSt) : (s.setLife u x).mer = s.mer := by rfl
@[simp] theorem Ctl.setLife_links (s : Ctl) (u : Nat) (x : LifeSt) : (s.setLife u x).links = s.links := by rfl
@[simp] theorem Ctl.setLife_sw (s : Ctl) (u : Nat) (x : LifeSt) : (s.setLife u x).sw = s.sw := by rfl
@[simp] theorem Ctl.setLife_host (s : Ctl) (u : Nat) (x : LifeSt) : (s.setLife u x).host = s.host := by rfl
@[simp] theorem Ctl.setLife_bar2 (s : Ctl) (u : Nat) (x : LifeSt) : (s.setLife u x).bar2 = s.bar2 := by rfl
@[simp] theorem Ctl.setLife_banks (s : Ctl) (u : Nat) (x : LifeSt) : (s.setLife u x).banks = s.banks := by rfl
@[simp] theorem Ctl.setLife_dom (s : Ctl) (u : Nat) (x : LifeSt) : (s.setLife u x).dom = s.dom := by rfl
@[simp] theorem Ctl.setLife_net (s : Ctl) (u : Nat) (x : LifeSt) : (s.setLife u x).net = s.net := by rfl
@[simp] theorem Ctl.setLife_mem (s : Ctl) (u : Nat) (x : LifeSt) : (s.setLife u x).mem = s.mem := by rfl
@[simp] theorem Ctl.setLife_pools (s : Ctl) (u : Nat) (x : LifeSt) : (s.setLife u x).pools = s.pools := by rfl
@[simp] theorem Ctl.setLife_pst (s : Ctl) (u : Nat) (x : LifeSt) : (s.setLife u x).pst = s.pst := by rfl
@[simp] theorem Ctl.setLife_upd (s : Ctl) (u : Nat) (x : LifeSt) : (s.setLife u x).upd = s.upd := by rfl
@[simp] theorem Ctl.setLife_ops (s : Ctl) (u : Nat) (x : LifeSt) : (s.setLife u x).ops = s.ops := by rfl
@[simp] theorem Ctl.setLife_opCount (s : Ctl) (u : Nat) (x : LifeSt) : (s.setLife u x).opCount = s.opCount := by rfl
@[simp] theorem Ctl.setLife_seq (s : Ctl) (u : Nat) (x : LifeSt) : (s.setLife u x).seq = s.seq := by rfl
@[simp] theorem Ctl.setLife_held (s : Ctl) (u : Nat) (x : LifeSt) : (s.setLife u x).held = s.held := by rfl
@[simp] theorem Ctl.setLife_twinRecs (s : Ctl) (u : Nat) (x : LifeSt) : (s.setLife u x).twinRecs = s.twinRecs := by rfl
@[simp] theorem Ctl.setLife_tw (s : Ctl) (u : Nat) (x : LifeSt) : (s.setLife u x).tw = s.tw := by rfl
@[simp] theorem Ctl.setLife_eng (s : Ctl) (u : Nat) (x : LifeSt) : (s.setLife u x).eng = s.eng := by rfl
@[simp] theorem Ctl.setLife_fw (s : Ctl) (u : Nat) (x : LifeSt) : (s.setLife u x).fw = s.fw := by rfl
@[simp] theorem Ctl.setLife_boot (s : Ctl) (u : Nat) (x : LifeSt) : (s.setLife u x).boot = s.boot := by rfl
@[simp] theorem Ctl.setLife_cir (s : Ctl) (u : Nat) (x : LifeSt) : (s.setLife u x).cir = s.cir := by rfl
@[simp] theorem Ctl.setLife_i3c (s : Ctl) (u : Nat) (x : LifeSt) : (s.setLife u x).i3c = s.i3c := by rfl
@[simp] theorem Ctl.setLife_jtag (s : Ctl) (u : Nat) (x : LifeSt) : (s.setLife u x).jtag = s.jtag := by rfl
@[simp] theorem Ctl.setLife_opExcl (s : Ctl) (u : Nat) (x : LifeSt) : (s.setLife u x).opExcl = s.opExcl := by rfl
@[simp] theorem Ctl.setLife_routeLow (s : Ctl) (u : Nat) (x : LifeSt) : (s.setLife u x).routeLow = s.routeLow := by rfl
@[simp] theorem Ctl.setLife_flash (s : Ctl) (u : Nat) (x : LifeSt) : (s.setLife u x).flash = s.flash := by rfl
@[simp] theorem Ctl.setLife_sent (s : Ctl) (u : Nat) (x : LifeSt) : (s.setLife u x).sent = s.sent := by rfl
@[simp] theorem Ctl.setLife_freeN (s : Ctl) (u : Nat) (x : LifeSt) : (s.setLife u x).freeN = s.freeN := by rfl
@[simp] theorem Ctl.setLife_word (s : Ctl) (u : Nat) (x : LifeSt) (q : Nat) : (s.setLife u x).word q = s.word q := by rfl
@[simp] theorem Ctl.setLife_rd (s : Ctl) (u : Nat) (x : LifeSt) (g : FRef) : (s.setLife u x).rd g = s.rd g := by rfl
@[simp] theorem Ctl.setLife_bit (s : Ctl) (u : Nat) (x : LifeSt) (g : FRef) : (s.setLife u x).bit g = s.bit g := by rfl
@[simp] theorem Ctl.setLife_rdWord (s : Ctl) (u : Nat) (x : LifeSt) (q : Nat) : (s.setLife u x).rdWord q = s.rdWord q := by rfl

/-! ## setDomMer -/

@[simp] theorem Ctl.setDomMer_fuse (s : Ctl) (d : Nat) (x : DomMer) : (s.setDomMer d x).fuse = s.fuse := by rfl
@[simp] theorem Ctl.setDomMer_bar0 (s : Ctl) (d : Nat) (x : DomMer) : (s.setDomMer d x).bar0 = s.bar0 := by rfl
@[simp] theorem Ctl.setDomMer_cyc (s : Ctl) (d : Nat) (x : DomMer) : (s.setDomMer d x).cyc = s.cyc := by rfl
@[simp] theorem Ctl.setDomMer_flt (s : Ctl) (d : Nat) (x : DomMer) : (s.setDomMer d x).flt = s.flt := by rfl
@[simp] theorem Ctl.setDomMer_mer (s : Ctl) (d : Nat) (x : DomMer) : (s.setDomMer d x).mer = s.mer := by rfl
@[simp] theorem Ctl.setDomMer_links (s : Ctl) (d : Nat) (x : DomMer) : (s.setDomMer d x).links = s.links := by rfl
@[simp] theorem Ctl.setDomMer_sw (s : Ctl) (d : Nat) (x : DomMer) : (s.setDomMer d x).sw = s.sw := by rfl
@[simp] theorem Ctl.setDomMer_host (s : Ctl) (d : Nat) (x : DomMer) : (s.setDomMer d x).host = s.host := by rfl
@[simp] theorem Ctl.setDomMer_bar2 (s : Ctl) (d : Nat) (x : DomMer) : (s.setDomMer d x).bar2 = s.bar2 := by rfl
@[simp] theorem Ctl.setDomMer_banks (s : Ctl) (d : Nat) (x : DomMer) : (s.setDomMer d x).banks = s.banks := by rfl
@[simp] theorem Ctl.setDomMer_net (s : Ctl) (d : Nat) (x : DomMer) : (s.setDomMer d x).net = s.net := by rfl
@[simp] theorem Ctl.setDomMer_mem (s : Ctl) (d : Nat) (x : DomMer) : (s.setDomMer d x).mem = s.mem := by rfl
@[simp] theorem Ctl.setDomMer_pools (s : Ctl) (d : Nat) (x : DomMer) : (s.setDomMer d x).pools = s.pools := by rfl
@[simp] theorem Ctl.setDomMer_pst (s : Ctl) (d : Nat) (x : DomMer) : (s.setDomMer d x).pst = s.pst := by rfl
@[simp] theorem Ctl.setDomMer_upd (s : Ctl) (d : Nat) (x : DomMer) : (s.setDomMer d x).upd = s.upd := by rfl
@[simp] theorem Ctl.setDomMer_ops (s : Ctl) (d : Nat) (x : DomMer) : (s.setDomMer d x).ops = s.ops := by rfl
@[simp] theorem Ctl.setDomMer_opCount (s : Ctl) (d : Nat) (x : DomMer) : (s.setDomMer d x).opCount = s.opCount := by rfl
@[simp] theorem Ctl.setDomMer_seq (s : Ctl) (d : Nat) (x : DomMer) : (s.setDomMer d x).seq = s.seq := by rfl
@[simp] theorem Ctl.setDomMer_held (s : Ctl) (d : Nat) (x : DomMer) : (s.setDomMer d x).held = s.held := by rfl
@[simp] theorem Ctl.setDomMer_twinRecs (s : Ctl) (d : Nat) (x : DomMer) : (s.setDomMer d x).twinRecs = s.twinRecs := by rfl
@[simp] theorem Ctl.setDomMer_tw (s : Ctl) (d : Nat) (x : DomMer) : (s.setDomMer d x).tw = s.tw := by rfl
@[simp] theorem Ctl.setDomMer_eng (s : Ctl) (d : Nat) (x : DomMer) : (s.setDomMer d x).eng = s.eng := by rfl
@[simp] theorem Ctl.setDomMer_life (s : Ctl) (d : Nat) (x : DomMer) : (s.setDomMer d x).life = s.life := by rfl
@[simp] theorem Ctl.setDomMer_fw (s : Ctl) (d : Nat) (x : DomMer) : (s.setDomMer d x).fw = s.fw := by rfl
@[simp] theorem Ctl.setDomMer_boot (s : Ctl) (d : Nat) (x : DomMer) : (s.setDomMer d x).boot = s.boot := by rfl
@[simp] theorem Ctl.setDomMer_cir (s : Ctl) (d : Nat) (x : DomMer) : (s.setDomMer d x).cir = s.cir := by rfl
@[simp] theorem Ctl.setDomMer_i3c (s : Ctl) (d : Nat) (x : DomMer) : (s.setDomMer d x).i3c = s.i3c := by rfl
@[simp] theorem Ctl.setDomMer_jtag (s : Ctl) (d : Nat) (x : DomMer) : (s.setDomMer d x).jtag = s.jtag := by rfl
@[simp] theorem Ctl.setDomMer_opExcl (s : Ctl) (d : Nat) (x : DomMer) : (s.setDomMer d x).opExcl = s.opExcl := by rfl
@[simp] theorem Ctl.setDomMer_routeLow (s : Ctl) (d : Nat) (x : DomMer) : (s.setDomMer d x).routeLow = s.routeLow := by rfl
@[simp] theorem Ctl.setDomMer_flash (s : Ctl) (d : Nat) (x : DomMer) : (s.setDomMer d x).flash = s.flash := by rfl
@[simp] theorem Ctl.setDomMer_sent (s : Ctl) (d : Nat) (x : DomMer) : (s.setDomMer d x).sent = s.sent := by rfl
@[simp] theorem Ctl.setDomMer_freeN (s : Ctl) (d : Nat) (x : DomMer) : (s.setDomMer d x).freeN = s.freeN := by rfl
@[simp] theorem Ctl.setDomMer_word (s : Ctl) (d : Nat) (x : DomMer) (q : Nat) : (s.setDomMer d x).word q = s.word q := by rfl
@[simp] theorem Ctl.setDomMer_rd (s : Ctl) (d : Nat) (x : DomMer) (g : FRef) : (s.setDomMer d x).rd g = s.rd g := by rfl
@[simp] theorem Ctl.setDomMer_bit (s : Ctl) (d : Nat) (x : DomMer) (g : FRef) : (s.setDomMer d x).bit g = s.bit g := by rfl
@[simp] theorem Ctl.setDomMer_rdWord (s : Ctl) (d : Nat) (x : DomMer) (q : Nat) : (s.setDomMer d x).rdWord q = s.rdWord q := by rfl

/-! ## setBank -/

@[simp] theorem Ctl.setBank_fuse (s : Ctl) (d k : Nat) (b : BankHdr) : (s.setBank d k b).fuse = s.fuse := by rfl
@[simp] theorem Ctl.setBank_bar0 (s : Ctl) (d k : Nat) (b : BankHdr) : (s.setBank d k b).bar0 = s.bar0 := by rfl
@[simp] theorem Ctl.setBank_cyc (s : Ctl) (d k : Nat) (b : BankHdr) : (s.setBank d k b).cyc = s.cyc := by rfl
@[simp] theorem Ctl.setBank_flt (s : Ctl) (d k : Nat) (b : BankHdr) : (s.setBank d k b).flt = s.flt := by rfl
@[simp] theorem Ctl.setBank_mer (s : Ctl) (d k : Nat) (b : BankHdr) : (s.setBank d k b).mer = s.mer := by rfl
@[simp] theorem Ctl.setBank_links (s : Ctl) (d k : Nat) (b : BankHdr) : (s.setBank d k b).links = s.links := by rfl
@[simp] theorem Ctl.setBank_sw (s : Ctl) (d k : Nat) (b : BankHdr) : (s.setBank d k b).sw = s.sw := by rfl
@[simp] theorem Ctl.setBank_host (s : Ctl) (d k : Nat) (b : BankHdr) : (s.setBank d k b).host = s.host := by rfl
@[simp] theorem Ctl.setBank_bar2 (s : Ctl) (d k : Nat) (b : BankHdr) : (s.setBank d k b).bar2 = s.bar2 := by rfl
@[simp] theorem Ctl.setBank_dom (s : Ctl) (d k : Nat) (b : BankHdr) : (s.setBank d k b).dom = s.dom := by rfl
@[simp] theorem Ctl.setBank_net (s : Ctl) (d k : Nat) (b : BankHdr) : (s.setBank d k b).net = s.net := by rfl
@[simp] theorem Ctl.setBank_mem (s : Ctl) (d k : Nat) (b : BankHdr) : (s.setBank d k b).mem = s.mem := by rfl
@[simp] theorem Ctl.setBank_pools (s : Ctl) (d k : Nat) (b : BankHdr) : (s.setBank d k b).pools = s.pools := by rfl
@[simp] theorem Ctl.setBank_pst (s : Ctl) (d k : Nat) (b : BankHdr) : (s.setBank d k b).pst = s.pst := by rfl
@[simp] theorem Ctl.setBank_upd (s : Ctl) (d k : Nat) (b : BankHdr) : (s.setBank d k b).upd = s.upd := by rfl
@[simp] theorem Ctl.setBank_ops (s : Ctl) (d k : Nat) (b : BankHdr) : (s.setBank d k b).ops = s.ops := by rfl
@[simp] theorem Ctl.setBank_opCount (s : Ctl) (d k : Nat) (b : BankHdr) : (s.setBank d k b).opCount = s.opCount := by rfl
@[simp] theorem Ctl.setBank_seq (s : Ctl) (d k : Nat) (b : BankHdr) : (s.setBank d k b).seq = s.seq := by rfl
@[simp] theorem Ctl.setBank_held (s : Ctl) (d k : Nat) (b : BankHdr) : (s.setBank d k b).held = s.held := by rfl
@[simp] theorem Ctl.setBank_twinRecs (s : Ctl) (d k : Nat) (b : BankHdr) : (s.setBank d k b).twinRecs = s.twinRecs := by rfl
@[simp] theorem Ctl.setBank_tw (s : Ctl) (d k : Nat) (b : BankHdr) : (s.setBank d k b).tw = s.tw := by rfl
@[simp] theorem Ctl.setBank_eng (s : Ctl) (d k : Nat) (b : BankHdr) : (s.setBank d k b).eng = s.eng := by rfl
@[simp] theorem Ctl.setBank_life (s : Ctl) (d k : Nat) (b : BankHdr) : (s.setBank d k b).life = s.life := by rfl
@[simp] theorem Ctl.setBank_fw (s : Ctl) (d k : Nat) (b : BankHdr) : (s.setBank d k b).fw = s.fw := by rfl
@[simp] theorem Ctl.setBank_boot (s : Ctl) (d k : Nat) (b : BankHdr) : (s.setBank d k b).boot = s.boot := by rfl
@[simp] theorem Ctl.setBank_cir (s : Ctl) (d k : Nat) (b : BankHdr) : (s.setBank d k b).cir = s.cir := by rfl
@[simp] theorem Ctl.setBank_i3c (s : Ctl) (d k : Nat) (b : BankHdr) : (s.setBank d k b).i3c = s.i3c := by rfl
@[simp] theorem Ctl.setBank_jtag (s : Ctl) (d k : Nat) (b : BankHdr) : (s.setBank d k b).jtag = s.jtag := by rfl
@[simp] theorem Ctl.setBank_opExcl (s : Ctl) (d k : Nat) (b : BankHdr) : (s.setBank d k b).opExcl = s.opExcl := by rfl
@[simp] theorem Ctl.setBank_routeLow (s : Ctl) (d k : Nat) (b : BankHdr) : (s.setBank d k b).routeLow = s.routeLow := by rfl
@[simp] theorem Ctl.setBank_flash (s : Ctl) (d k : Nat) (b : BankHdr) : (s.setBank d k b).flash = s.flash := by rfl
@[simp] theorem Ctl.setBank_sent (s : Ctl) (d k : Nat) (b : BankHdr) : (s.setBank d k b).sent = s.sent := by rfl
@[simp] theorem Ctl.setBank_freeN (s : Ctl) (d k : Nat) (b : BankHdr) : (s.setBank d k b).freeN = s.freeN := by rfl
@[simp] theorem Ctl.setBank_word (s : Ctl) (d k : Nat) (b : BankHdr) (q : Nat) : (s.setBank d k b).word q = s.word q := by rfl
@[simp] theorem Ctl.setBank_rd (s : Ctl) (d k : Nat) (b : BankHdr) (g : FRef) : (s.setBank d k b).rd g = s.rd g := by rfl
@[simp] theorem Ctl.setBank_bit (s : Ctl) (d k : Nat) (b : BankHdr) (g : FRef) : (s.setBank d k b).bit g = s.bit g := by rfl
@[simp] theorem Ctl.setBank_rdWord (s : Ctl) (d k : Nat) (b : BankHdr) (q : Nat) : (s.setBank d k b).rdWord q = s.rdWord q := by rfl

/-! ## setMbox -/

@[simp] theorem Ctl.setMbox_fuse (s : Ctl) (b : Nat) (x : Mbox) : (s.setMbox b x).fuse = s.fuse := by rfl
@[simp] theorem Ctl.setMbox_bar0 (s : Ctl) (b : Nat) (x : Mbox) : (s.setMbox b x).bar0 = s.bar0 := by rfl
@[simp] theorem Ctl.setMbox_cyc (s : Ctl) (b : Nat) (x : Mbox) : (s.setMbox b x).cyc = s.cyc := by rfl
@[simp] theorem Ctl.setMbox_flt (s : Ctl) (b : Nat) (x : Mbox) : (s.setMbox b x).flt = s.flt := by rfl
@[simp] theorem Ctl.setMbox_mer (s : Ctl) (b : Nat) (x : Mbox) : (s.setMbox b x).mer = s.mer := by rfl
@[simp] theorem Ctl.setMbox_links (s : Ctl) (b : Nat) (x : Mbox) : (s.setMbox b x).links = s.links := by rfl
@[simp] theorem Ctl.setMbox_sw (s : Ctl) (b : Nat) (x : Mbox) : (s.setMbox b x).sw = s.sw := by rfl
@[simp] theorem Ctl.setMbox_host (s : Ctl) (b : Nat) (x : Mbox) : (s.setMbox b x).host = s.host := by rfl
@[simp] theorem Ctl.setMbox_bar2 (s : Ctl) (b : Nat) (x : Mbox) : (s.setMbox b x).bar2 = s.bar2 := by rfl
@[simp] theorem Ctl.setMbox_banks (s : Ctl) (b : Nat) (x : Mbox) : (s.setMbox b x).banks = s.banks := by rfl
@[simp] theorem Ctl.setMbox_dom (s : Ctl) (b : Nat) (x : Mbox) : (s.setMbox b x).dom = s.dom := by rfl
@[simp] theorem Ctl.setMbox_net (s : Ctl) (b : Nat) (x : Mbox) : (s.setMbox b x).net = s.net := by rfl
@[simp] theorem Ctl.setMbox_mem (s : Ctl) (b : Nat) (x : Mbox) : (s.setMbox b x).mem = s.mem := by rfl
@[simp] theorem Ctl.setMbox_pools (s : Ctl) (b : Nat) (x : Mbox) : (s.setMbox b x).pools = s.pools := by rfl
@[simp] theorem Ctl.setMbox_pst (s : Ctl) (b : Nat) (x : Mbox) : (s.setMbox b x).pst = s.pst := by rfl
@[simp] theorem Ctl.setMbox_upd (s : Ctl) (b : Nat) (x : Mbox) : (s.setMbox b x).upd = s.upd := by rfl
@[simp] theorem Ctl.setMbox_ops (s : Ctl) (b : Nat) (x : Mbox) : (s.setMbox b x).ops = s.ops := by rfl
@[simp] theorem Ctl.setMbox_opCount (s : Ctl) (b : Nat) (x : Mbox) : (s.setMbox b x).opCount = s.opCount := by rfl
@[simp] theorem Ctl.setMbox_seq (s : Ctl) (b : Nat) (x : Mbox) : (s.setMbox b x).seq = s.seq := by rfl
@[simp] theorem Ctl.setMbox_held (s : Ctl) (b : Nat) (x : Mbox) : (s.setMbox b x).held = s.held := by rfl
@[simp] theorem Ctl.setMbox_twinRecs (s : Ctl) (b : Nat) (x : Mbox) : (s.setMbox b x).twinRecs = s.twinRecs := by rfl
@[simp] theorem Ctl.setMbox_tw (s : Ctl) (b : Nat) (x : Mbox) : (s.setMbox b x).tw = s.tw := by rfl
@[simp] theorem Ctl.setMbox_eng (s : Ctl) (b : Nat) (x : Mbox) : (s.setMbox b x).eng = s.eng := by rfl
@[simp] theorem Ctl.setMbox_life (s : Ctl) (b : Nat) (x : Mbox) : (s.setMbox b x).life = s.life := by rfl
@[simp] theorem Ctl.setMbox_boot (s : Ctl) (b : Nat) (x : Mbox) : (s.setMbox b x).boot = s.boot := by rfl
@[simp] theorem Ctl.setMbox_cir (s : Ctl) (b : Nat) (x : Mbox) : (s.setMbox b x).cir = s.cir := by rfl
@[simp] theorem Ctl.setMbox_i3c (s : Ctl) (b : Nat) (x : Mbox) : (s.setMbox b x).i3c = s.i3c := by rfl
@[simp] theorem Ctl.setMbox_jtag (s : Ctl) (b : Nat) (x : Mbox) : (s.setMbox b x).jtag = s.jtag := by rfl
@[simp] theorem Ctl.setMbox_opExcl (s : Ctl) (b : Nat) (x : Mbox) : (s.setMbox b x).opExcl = s.opExcl := by rfl
@[simp] theorem Ctl.setMbox_routeLow (s : Ctl) (b : Nat) (x : Mbox) : (s.setMbox b x).routeLow = s.routeLow := by rfl
@[simp] theorem Ctl.setMbox_flash (s : Ctl) (b : Nat) (x : Mbox) : (s.setMbox b x).flash = s.flash := by rfl
@[simp] theorem Ctl.setMbox_sent (s : Ctl) (b : Nat) (x : Mbox) : (s.setMbox b x).sent = s.sent := by rfl
@[simp] theorem Ctl.setMbox_freeN (s : Ctl) (b : Nat) (x : Mbox) : (s.setMbox b x).freeN = s.freeN := by rfl
@[simp] theorem Ctl.setMbox_word (s : Ctl) (b : Nat) (x : Mbox) (q : Nat) : (s.setMbox b x).word q = s.word q := by rfl
@[simp] theorem Ctl.setMbox_rd (s : Ctl) (b : Nat) (x : Mbox) (g : FRef) : (s.setMbox b x).rd g = s.rd g := by rfl
@[simp] theorem Ctl.setMbox_bit (s : Ctl) (b : Nat) (x : Mbox) (g : FRef) : (s.setMbox b x).bit g = s.bit g := by rfl
@[simp] theorem Ctl.setMbox_rdWord (s : Ctl) (b : Nat) (x : Mbox) (q : Nat) : (s.setMbox b x).rdWord q = s.rdWord q := by rfl

/-! ## setOut -/

@[simp] theorem Ctl.setOut_fuse (s : Ctl) (o : Nat) (x : OutSt) : (s.setOut o x).fuse = s.fuse := by rfl
@[simp] theorem Ctl.setOut_bar0 (s : Ctl) (o : Nat) (x : OutSt) : (s.setOut o x).bar0 = s.bar0 := by rfl
@[simp] theorem Ctl.setOut_cyc (s : Ctl) (o : Nat) (x : OutSt) : (s.setOut o x).cyc = s.cyc := by rfl
@[simp] theorem Ctl.setOut_flt (s : Ctl) (o : Nat) (x : OutSt) : (s.setOut o x).flt = s.flt := by rfl
@[simp] theorem Ctl.setOut_mer (s : Ctl) (o : Nat) (x : OutSt) : (s.setOut o x).mer = s.mer := by rfl
@[simp] theorem Ctl.setOut_links (s : Ctl) (o : Nat) (x : OutSt) : (s.setOut o x).links = s.links := by rfl
@[simp] theorem Ctl.setOut_host (s : Ctl) (o : Nat) (x : OutSt) : (s.setOut o x).host = s.host := by rfl
@[simp] theorem Ctl.setOut_bar2 (s : Ctl) (o : Nat) (x : OutSt) : (s.setOut o x).bar2 = s.bar2 := by rfl
@[simp] theorem Ctl.setOut_banks (s : Ctl) (o : Nat) (x : OutSt) : (s.setOut o x).banks = s.banks := by rfl
@[simp] theorem Ctl.setOut_dom (s : Ctl) (o : Nat) (x : OutSt) : (s.setOut o x).dom = s.dom := by rfl
@[simp] theorem Ctl.setOut_net (s : Ctl) (o : Nat) (x : OutSt) : (s.setOut o x).net = s.net := by rfl
@[simp] theorem Ctl.setOut_mem (s : Ctl) (o : Nat) (x : OutSt) : (s.setOut o x).mem = s.mem := by rfl
@[simp] theorem Ctl.setOut_pools (s : Ctl) (o : Nat) (x : OutSt) : (s.setOut o x).pools = s.pools := by rfl
@[simp] theorem Ctl.setOut_pst (s : Ctl) (o : Nat) (x : OutSt) : (s.setOut o x).pst = s.pst := by rfl
@[simp] theorem Ctl.setOut_upd (s : Ctl) (o : Nat) (x : OutSt) : (s.setOut o x).upd = s.upd := by rfl
@[simp] theorem Ctl.setOut_ops (s : Ctl) (o : Nat) (x : OutSt) : (s.setOut o x).ops = s.ops := by rfl
@[simp] theorem Ctl.setOut_opCount (s : Ctl) (o : Nat) (x : OutSt) : (s.setOut o x).opCount = s.opCount := by rfl
@[simp] theorem Ctl.setOut_seq (s : Ctl) (o : Nat) (x : OutSt) : (s.setOut o x).seq = s.seq := by rfl
@[simp] theorem Ctl.setOut_held (s : Ctl) (o : Nat) (x : OutSt) : (s.setOut o x).held = s.held := by rfl
@[simp] theorem Ctl.setOut_twinRecs (s : Ctl) (o : Nat) (x : OutSt) : (s.setOut o x).twinRecs = s.twinRecs := by rfl
@[simp] theorem Ctl.setOut_tw (s : Ctl) (o : Nat) (x : OutSt) : (s.setOut o x).tw = s.tw := by rfl
@[simp] theorem Ctl.setOut_eng (s : Ctl) (o : Nat) (x : OutSt) : (s.setOut o x).eng = s.eng := by rfl
@[simp] theorem Ctl.setOut_life (s : Ctl) (o : Nat) (x : OutSt) : (s.setOut o x).life = s.life := by rfl
@[simp] theorem Ctl.setOut_fw (s : Ctl) (o : Nat) (x : OutSt) : (s.setOut o x).fw = s.fw := by rfl
@[simp] theorem Ctl.setOut_boot (s : Ctl) (o : Nat) (x : OutSt) : (s.setOut o x).boot = s.boot := by rfl
@[simp] theorem Ctl.setOut_cir (s : Ctl) (o : Nat) (x : OutSt) : (s.setOut o x).cir = s.cir := by rfl
@[simp] theorem Ctl.setOut_i3c (s : Ctl) (o : Nat) (x : OutSt) : (s.setOut o x).i3c = s.i3c := by rfl
@[simp] theorem Ctl.setOut_jtag (s : Ctl) (o : Nat) (x : OutSt) : (s.setOut o x).jtag = s.jtag := by rfl
@[simp] theorem Ctl.setOut_opExcl (s : Ctl) (o : Nat) (x : OutSt) : (s.setOut o x).opExcl = s.opExcl := by rfl
@[simp] theorem Ctl.setOut_routeLow (s : Ctl) (o : Nat) (x : OutSt) : (s.setOut o x).routeLow = s.routeLow := by rfl
@[simp] theorem Ctl.setOut_flash (s : Ctl) (o : Nat) (x : OutSt) : (s.setOut o x).flash = s.flash := by rfl
@[simp] theorem Ctl.setOut_sent (s : Ctl) (o : Nat) (x : OutSt) : (s.setOut o x).sent = s.sent := by rfl
@[simp] theorem Ctl.setOut_freeN (s : Ctl) (o : Nat) (x : OutSt) : (s.setOut o x).freeN = s.freeN := by rfl
@[simp] theorem Ctl.setOut_word (s : Ctl) (o : Nat) (x : OutSt) (q : Nat) : (s.setOut o x).word q = s.word q := by rfl
@[simp] theorem Ctl.setOut_rd (s : Ctl) (o : Nat) (x : OutSt) (g : FRef) : (s.setOut o x).rd g = s.rd g := by rfl
@[simp] theorem Ctl.setOut_bit (s : Ctl) (o : Nat) (x : OutSt) (g : FRef) : (s.setOut o x).bit g = s.bit g := by rfl
@[simp] theorem Ctl.setOut_rdWord (s : Ctl) (o : Nat) (x : OutSt) (q : Nat) : (s.setOut o x).rdWord q = s.rdWord q := by rfl

/-! ## setRxQ -/

@[simp] theorem Ctl.setRxQ_fuse (s : Ctl) (e : Nat) (l : List InPkt) : (s.setRxQ e l).fuse = s.fuse := by rfl
@[simp] theorem Ctl.setRxQ_bar0 (s : Ctl) (e : Nat) (l : List InPkt) : (s.setRxQ e l).bar0 = s.bar0 := by rfl
@[simp] theorem Ctl.setRxQ_cyc (s : Ctl) (e : Nat) (l : List InPkt) : (s.setRxQ e l).cyc = s.cyc := by rfl
@[simp] theorem Ctl.setRxQ_flt (s : Ctl) (e : Nat) (l : List InPkt) : (s.setRxQ e l).flt = s.flt := by rfl
@[simp] theorem Ctl.setRxQ_mer (s : Ctl) (e : Nat) (l : List InPkt) : (s.setRxQ e l).mer = s.mer := by rfl
@[simp] theorem Ctl.setRxQ_links (s : Ctl) (e : Nat) (l : List InPkt) : (s.setRxQ e l).links = s.links := by rfl
@[simp] theorem Ctl.setRxQ_host (s : Ctl) (e : Nat) (l : List InPkt) : (s.setRxQ e l).host = s.host := by rfl
@[simp] theorem Ctl.setRxQ_bar2 (s : Ctl) (e : Nat) (l : List InPkt) : (s.setRxQ e l).bar2 = s.bar2 := by rfl
@[simp] theorem Ctl.setRxQ_banks (s : Ctl) (e : Nat) (l : List InPkt) : (s.setRxQ e l).banks = s.banks := by rfl
@[simp] theorem Ctl.setRxQ_dom (s : Ctl) (e : Nat) (l : List InPkt) : (s.setRxQ e l).dom = s.dom := by rfl
@[simp] theorem Ctl.setRxQ_net (s : Ctl) (e : Nat) (l : List InPkt) : (s.setRxQ e l).net = s.net := by rfl
@[simp] theorem Ctl.setRxQ_mem (s : Ctl) (e : Nat) (l : List InPkt) : (s.setRxQ e l).mem = s.mem := by rfl
@[simp] theorem Ctl.setRxQ_pools (s : Ctl) (e : Nat) (l : List InPkt) : (s.setRxQ e l).pools = s.pools := by rfl
@[simp] theorem Ctl.setRxQ_pst (s : Ctl) (e : Nat) (l : List InPkt) : (s.setRxQ e l).pst = s.pst := by rfl
@[simp] theorem Ctl.setRxQ_upd (s : Ctl) (e : Nat) (l : List InPkt) : (s.setRxQ e l).upd = s.upd := by rfl
@[simp] theorem Ctl.setRxQ_ops (s : Ctl) (e : Nat) (l : List InPkt) : (s.setRxQ e l).ops = s.ops := by rfl
@[simp] theorem Ctl.setRxQ_opCount (s : Ctl) (e : Nat) (l : List InPkt) : (s.setRxQ e l).opCount = s.opCount := by rfl
@[simp] theorem Ctl.setRxQ_seq (s : Ctl) (e : Nat) (l : List InPkt) : (s.setRxQ e l).seq = s.seq := by rfl
@[simp] theorem Ctl.setRxQ_held (s : Ctl) (e : Nat) (l : List InPkt) : (s.setRxQ e l).held = s.held := by rfl
@[simp] theorem Ctl.setRxQ_twinRecs (s : Ctl) (e : Nat) (l : List InPkt) : (s.setRxQ e l).twinRecs = s.twinRecs := by rfl
@[simp] theorem Ctl.setRxQ_tw (s : Ctl) (e : Nat) (l : List InPkt) : (s.setRxQ e l).tw = s.tw := by rfl
@[simp] theorem Ctl.setRxQ_eng (s : Ctl) (e : Nat) (l : List InPkt) : (s.setRxQ e l).eng = s.eng := by rfl
@[simp] theorem Ctl.setRxQ_life (s : Ctl) (e : Nat) (l : List InPkt) : (s.setRxQ e l).life = s.life := by rfl
@[simp] theorem Ctl.setRxQ_fw (s : Ctl) (e : Nat) (l : List InPkt) : (s.setRxQ e l).fw = s.fw := by rfl
@[simp] theorem Ctl.setRxQ_boot (s : Ctl) (e : Nat) (l : List InPkt) : (s.setRxQ e l).boot = s.boot := by rfl
@[simp] theorem Ctl.setRxQ_cir (s : Ctl) (e : Nat) (l : List InPkt) : (s.setRxQ e l).cir = s.cir := by rfl
@[simp] theorem Ctl.setRxQ_i3c (s : Ctl) (e : Nat) (l : List InPkt) : (s.setRxQ e l).i3c = s.i3c := by rfl
@[simp] theorem Ctl.setRxQ_jtag (s : Ctl) (e : Nat) (l : List InPkt) : (s.setRxQ e l).jtag = s.jtag := by rfl
@[simp] theorem Ctl.setRxQ_opExcl (s : Ctl) (e : Nat) (l : List InPkt) : (s.setRxQ e l).opExcl = s.opExcl := by rfl
@[simp] theorem Ctl.setRxQ_routeLow (s : Ctl) (e : Nat) (l : List InPkt) : (s.setRxQ e l).routeLow = s.routeLow := by rfl
@[simp] theorem Ctl.setRxQ_flash (s : Ctl) (e : Nat) (l : List InPkt) : (s.setRxQ e l).flash = s.flash := by rfl
@[simp] theorem Ctl.setRxQ_sent (s : Ctl) (e : Nat) (l : List InPkt) : (s.setRxQ e l).sent = s.sent := by rfl
@[simp] theorem Ctl.setRxQ_freeN (s : Ctl) (e : Nat) (l : List InPkt) : (s.setRxQ e l).freeN = s.freeN := by rfl
@[simp] theorem Ctl.setRxQ_word (s : Ctl) (e : Nat) (l : List InPkt) (q : Nat) : (s.setRxQ e l).word q = s.word q := by rfl
@[simp] theorem Ctl.setRxQ_rd (s : Ctl) (e : Nat) (l : List InPkt) (g : FRef) : (s.setRxQ e l).rd g = s.rd g := by rfl
@[simp] theorem Ctl.setRxQ_bit (s : Ctl) (e : Nat) (l : List InPkt) (g : FRef) : (s.setRxQ e l).bit g = s.bit g := by rfl
@[simp] theorem Ctl.setRxQ_rdWord (s : Ctl) (e : Nat) (l : List InPkt) (q : Nat) : (s.setRxQ e l).rdWord q = s.rdWord q := by rfl

/-! ## setInQ -/

@[simp] theorem Ctl.setInQ_fuse (s : Ctl) (i : Nat) (l : List InPkt) : (s.setInQ i l).fuse = s.fuse := by unfold Ctl.setInQ; split <;> rfl
@[simp] theorem Ctl.setInQ_bar0 (s : Ctl) (i : Nat) (l : List InPkt) : (s.setInQ i l).bar0 = s.bar0 := by unfold Ctl.setInQ; split <;> rfl
@[simp] theorem Ctl.setInQ_cyc (s : Ctl) (i : Nat) (l : List InPkt) : (s.setInQ i l).cyc = s.cyc := by unfold Ctl.setInQ; split <;> rfl
@[simp] theorem Ctl.setInQ_flt (s : Ctl) (i : Nat) (l : List InPkt) : (s.setInQ i l).flt = s.flt := by unfold Ctl.setInQ; split <;> rfl
@[simp] theorem Ctl.setInQ_mer (s : Ctl) (i : Nat) (l : List InPkt) : (s.setInQ i l).mer = s.mer := by unfold Ctl.setInQ; split <;> rfl
@[simp] theorem Ctl.setInQ_host (s : Ctl) (i : Nat) (l : List InPkt) : (s.setInQ i l).host = s.host := by unfold Ctl.setInQ; split <;> rfl
@[simp] theorem Ctl.setInQ_bar2 (s : Ctl) (i : Nat) (l : List InPkt) : (s.setInQ i l).bar2 = s.bar2 := by unfold Ctl.setInQ; split <;> rfl
@[simp] theorem Ctl.setInQ_banks (s : Ctl) (i : Nat) (l : List InPkt) : (s.setInQ i l).banks = s.banks := by unfold Ctl.setInQ; split <;> rfl
@[simp] theorem Ctl.setInQ_dom (s : Ctl) (i : Nat) (l : List InPkt) : (s.setInQ i l).dom = s.dom := by unfold Ctl.setInQ; split <;> rfl
@[simp] theorem Ctl.setInQ_net (s : Ctl) (i : Nat) (l : List InPkt) : (s.setInQ i l).net = s.net := by unfold Ctl.setInQ; split <;> rfl
@[simp] theorem Ctl.setInQ_mem (s : Ctl) (i : Nat) (l : List InPkt) : (s.setInQ i l).mem = s.mem := by unfold Ctl.setInQ; split <;> rfl
@[simp] theorem Ctl.setInQ_pools (s : Ctl) (i : Nat) (l : List InPkt) : (s.setInQ i l).pools = s.pools := by unfold Ctl.setInQ; split <;> rfl
@[simp] theorem Ctl.setInQ_pst (s : Ctl) (i : Nat) (l : List InPkt) : (s.setInQ i l).pst = s.pst := by unfold Ctl.setInQ; split <;> rfl
@[simp] theorem Ctl.setInQ_upd (s : Ctl) (i : Nat) (l : List InPkt) : (s.setInQ i l).upd = s.upd := by unfold Ctl.setInQ; split <;> rfl
@[simp] theorem Ctl.setInQ_ops (s : Ctl) (i : Nat) (l : List InPkt) : (s.setInQ i l).ops = s.ops := by unfold Ctl.setInQ; split <;> rfl
@[simp] theorem Ctl.setInQ_opCount (s : Ctl) (i : Nat) (l : List InPkt) : (s.setInQ i l).opCount = s.opCount := by unfold Ctl.setInQ; split <;> rfl
@[simp] theorem Ctl.setInQ_seq (s : Ctl) (i : Nat) (l : List InPkt) : (s.setInQ i l).seq = s.seq := by unfold Ctl.setInQ; split <;> rfl
@[simp] theorem Ctl.setInQ_held (s : Ctl) (i : Nat) (l : List InPkt) : (s.setInQ i l).held = s.held := by unfold Ctl.setInQ; split <;> rfl
@[simp] theorem Ctl.setInQ_twinRecs (s : Ctl) (i : Nat) (l : List InPkt) : (s.setInQ i l).twinRecs = s.twinRecs := by unfold Ctl.setInQ; split <;> rfl
@[simp] theorem Ctl.setInQ_tw (s : Ctl) (i : Nat) (l : List InPkt) : (s.setInQ i l).tw = s.tw := by unfold Ctl.setInQ; split <;> rfl
@[simp] theorem Ctl.setInQ_eng (s : Ctl) (i : Nat) (l : List InPkt) : (s.setInQ i l).eng = s.eng := by unfold Ctl.setInQ; split <;> rfl
@[simp] theorem Ctl.setInQ_life (s : Ctl) (i : Nat) (l : List InPkt) : (s.setInQ i l).life = s.life := by unfold Ctl.setInQ; split <;> rfl
@[simp] theorem Ctl.setInQ_fw (s : Ctl) (i : Nat) (l : List InPkt) : (s.setInQ i l).fw = s.fw := by unfold Ctl.setInQ; split <;> rfl
@[simp] theorem Ctl.setInQ_boot (s : Ctl) (i : Nat) (l : List InPkt) : (s.setInQ i l).boot = s.boot := by unfold Ctl.setInQ; split <;> rfl
@[simp] theorem Ctl.setInQ_cir (s : Ctl) (i : Nat) (l : List InPkt) : (s.setInQ i l).cir = s.cir := by unfold Ctl.setInQ; split <;> rfl
@[simp] theorem Ctl.setInQ_i3c (s : Ctl) (i : Nat) (l : List InPkt) : (s.setInQ i l).i3c = s.i3c := by unfold Ctl.setInQ; split <;> rfl
@[simp] theorem Ctl.setInQ_jtag (s : Ctl) (i : Nat) (l : List InPkt) : (s.setInQ i l).jtag = s.jtag := by unfold Ctl.setInQ; split <;> rfl
@[simp] theorem Ctl.setInQ_opExcl (s : Ctl) (i : Nat) (l : List InPkt) : (s.setInQ i l).opExcl = s.opExcl := by unfold Ctl.setInQ; split <;> rfl
@[simp] theorem Ctl.setInQ_routeLow (s : Ctl) (i : Nat) (l : List InPkt) : (s.setInQ i l).routeLow = s.routeLow := by unfold Ctl.setInQ; split <;> rfl
@[simp] theorem Ctl.setInQ_flash (s : Ctl) (i : Nat) (l : List InPkt) : (s.setInQ i l).flash = s.flash := by unfold Ctl.setInQ; split <;> rfl
@[simp] theorem Ctl.setInQ_sent (s : Ctl) (i : Nat) (l : List InPkt) : (s.setInQ i l).sent = s.sent := by unfold Ctl.setInQ; split <;> rfl
@[simp] theorem Ctl.setInQ_freeN (s : Ctl) (i : Nat) (l : List InPkt) : (s.setInQ i l).freeN = s.freeN := by unfold Ctl.setInQ; split <;> rfl
@[simp] theorem Ctl.setInQ_word (s : Ctl) (i : Nat) (l : List InPkt) (q : Nat) : (s.setInQ i l).word q = s.word q := by unfold Ctl.setInQ; split <;> rfl
@[simp] theorem Ctl.setInQ_rd (s : Ctl) (i : Nat) (l : List InPkt) (g : FRef) : (s.setInQ i l).rd g = s.rd g := by unfold Ctl.setInQ; split <;> rfl
@[simp] theorem Ctl.setInQ_bit (s : Ctl) (i : Nat) (l : List InPkt) (g : FRef) : (s.setInQ i l).bit g = s.bit g := by unfold Ctl.setInQ; split <;> rfl
@[simp] theorem Ctl.setInQ_rdWord (s : Ctl) (i : Nat) (l : List InPkt) (q : Nat) : (s.setInQ i l).rdWord q = s.rdWord q := by unfold Ctl.setInQ; split <;> rfl

/-! ## raise -/

@[simp] theorem Ctl.raise_fuse (s : Ctl) (src : Nat) (j : Subj) (a b c d : Nat) : (s.raise src j a b c d).fuse = s.fuse := by unfold Ctl.raise; split <;> rfl
@[simp] theorem Ctl.raise_bar0 (s : Ctl) (src : Nat) (j : Subj) (a b c d : Nat) : (s.raise src j a b c d).bar0 = s.bar0 := by unfold Ctl.raise; split <;> rfl
@[simp] theorem Ctl.raise_cyc (s : Ctl) (src : Nat) (j : Subj) (a b c d : Nat) : (s.raise src j a b c d).cyc = s.cyc := by unfold Ctl.raise; split <;> rfl
@[simp] theorem Ctl.raise_mer (s : Ctl) (src : Nat) (j : Subj) (a b c d : Nat) : (s.raise src j a b c d).mer = s.mer := by unfold Ctl.raise; split <;> rfl
@[simp] theorem Ctl.raise_links (s : Ctl) (src : Nat) (j : Subj) (a b c d : Nat) : (s.raise src j a b c d).links = s.links := by unfold Ctl.raise; split <;> rfl
@[simp] theorem Ctl.raise_sw (s : Ctl) (src : Nat) (j : Subj) (a b c d : Nat) : (s.raise src j a b c d).sw = s.sw := by unfold Ctl.raise; split <;> rfl
@[simp] theorem Ctl.raise_host (s : Ctl) (src : Nat) (j : Subj) (a b c d : Nat) : (s.raise src j a b c d).host = s.host := by unfold Ctl.raise; split <;> rfl
@[simp] theorem Ctl.raise_bar2 (s : Ctl) (src : Nat) (j : Subj) (a b c d : Nat) : (s.raise src j a b c d).bar2 = s.bar2 := by unfold Ctl.raise; split <;> rfl
@[simp] theorem Ctl.raise_banks (s : Ctl) (src : Nat) (j : Subj) (a b c d : Nat) : (s.raise src j a b c d).banks = s.banks := by unfold Ctl.raise; split <;> rfl
@[simp] theorem Ctl.raise_dom (s : Ctl) (src : Nat) (j : Subj) (a b c d : Nat) : (s.raise src j a b c d).dom = s.dom := by unfold Ctl.raise; split <;> rfl
@[simp] theorem Ctl.raise_net (s : Ctl) (src : Nat) (j : Subj) (a b c d : Nat) : (s.raise src j a b c d).net = s.net := by unfold Ctl.raise; split <;> rfl
@[simp] theorem Ctl.raise_mem (s : Ctl) (src : Nat) (j : Subj) (a b c d : Nat) : (s.raise src j a b c d).mem = s.mem := by unfold Ctl.raise; split <;> rfl
@[simp] theorem Ctl.raise_pools (s : Ctl) (src : Nat) (j : Subj) (a b c d : Nat) : (s.raise src j a b c d).pools = s.pools := by unfold Ctl.raise; split <;> rfl
@[simp] theorem Ctl.raise_pst (s : Ctl) (src : Nat) (j : Subj) (a b c d : Nat) : (s.raise src j a b c d).pst = s.pst := by unfold Ctl.raise; split <;> rfl
@[simp] theorem Ctl.raise_upd (s : Ctl) (src : Nat) (j : Subj) (a b c d : Nat) : (s.raise src j a b c d).upd = s.upd := by unfold Ctl.raise; split <;> rfl
@[simp] theorem Ctl.raise_ops (s : Ctl) (src : Nat) (j : Subj) (a b c d : Nat) : (s.raise src j a b c d).ops = s.ops := by unfold Ctl.raise; split <;> rfl
@[simp] theorem Ctl.raise_opCount (s : Ctl) (src : Nat) (j : Subj) (a b c d : Nat) : (s.raise src j a b c d).opCount = s.opCount := by unfold Ctl.raise; split <;> rfl
@[simp] theorem Ctl.raise_seq (s : Ctl) (src : Nat) (j : Subj) (a b c d : Nat) : (s.raise src j a b c d).seq = s.seq := by unfold Ctl.raise; split <;> rfl
@[simp] theorem Ctl.raise_held (s : Ctl) (src : Nat) (j : Subj) (a b c d : Nat) : (s.raise src j a b c d).held = s.held := by unfold Ctl.raise; split <;> rfl
@[simp] theorem Ctl.raise_twinRecs (s : Ctl) (src : Nat) (j : Subj) (a b c d : Nat) : (s.raise src j a b c d).twinRecs = s.twinRecs := by unfold Ctl.raise; split <;> rfl
@[simp] theorem Ctl.raise_tw (s : Ctl) (src : Nat) (j : Subj) (a b c d : Nat) : (s.raise src j a b c d).tw = s.tw := by unfold Ctl.raise; split <;> rfl
@[simp] theorem Ctl.raise_eng (s : Ctl) (src : Nat) (j : Subj) (a b c d : Nat) : (s.raise src j a b c d).eng = s.eng := by unfold Ctl.raise; split <;> rfl
@[simp] theorem Ctl.raise_life (s : Ctl) (src : Nat) (j : Subj) (a b c d : Nat) : (s.raise src j a b c d).life = s.life := by unfold Ctl.raise; split <;> rfl
@[simp] theorem Ctl.raise_fw (s : Ctl) (src : Nat) (j : Subj) (a b c d : Nat) : (s.raise src j a b c d).fw = s.fw := by unfold Ctl.raise; split <;> rfl
@[simp] theorem Ctl.raise_boot (s : Ctl) (src : Nat) (j : Subj) (a b c d : Nat) : (s.raise src j a b c d).boot = s.boot := by unfold Ctl.raise; split <;> rfl
@[simp] theorem Ctl.raise_cir (s : Ctl) (src : Nat) (j : Subj) (a b c d : Nat) : (s.raise src j a b c d).cir = s.cir := by unfold Ctl.raise; split <;> rfl
@[simp] theorem Ctl.raise_i3c (s : Ctl) (src : Nat) (j : Subj) (a b c d : Nat) : (s.raise src j a b c d).i3c = s.i3c := by unfold Ctl.raise; split <;> rfl
@[simp] theorem Ctl.raise_jtag (s : Ctl) (src : Nat) (j : Subj) (a b c d : Nat) : (s.raise src j a b c d).jtag = s.jtag := by unfold Ctl.raise; split <;> rfl
@[simp] theorem Ctl.raise_opExcl (s : Ctl) (src : Nat) (j : Subj) (a b c d : Nat) : (s.raise src j a b c d).opExcl = s.opExcl := by unfold Ctl.raise; split <;> rfl
@[simp] theorem Ctl.raise_routeLow (s : Ctl) (src : Nat) (j : Subj) (a b c d : Nat) : (s.raise src j a b c d).routeLow = s.routeLow := by unfold Ctl.raise; split <;> rfl
@[simp] theorem Ctl.raise_flash (s : Ctl) (src : Nat) (j : Subj) (a b c d : Nat) : (s.raise src j a b c d).flash = s.flash := by unfold Ctl.raise; split <;> rfl
@[simp] theorem Ctl.raise_sent (s : Ctl) (src : Nat) (j : Subj) (a b c d : Nat) : (s.raise src j a b c d).sent = s.sent := by unfold Ctl.raise; split <;> rfl
@[simp] theorem Ctl.raise_freeN (s : Ctl) (src : Nat) (j : Subj) (a b c d : Nat) : (s.raise src j a b c d).freeN = s.freeN := by unfold Ctl.raise; split <;> rfl
@[simp] theorem Ctl.raise_word (s : Ctl) (src : Nat) (j : Subj) (a b c d : Nat) (q : Nat) : (s.raise src j a b c d).word q = s.word q := by unfold Ctl.raise; split <;> rfl
@[simp] theorem Ctl.raise_rd (s : Ctl) (src : Nat) (j : Subj) (a b c d : Nat) (g : FRef) : (s.raise src j a b c d).rd g = s.rd g := by unfold Ctl.raise; split <;> rfl
@[simp] theorem Ctl.raise_bit (s : Ctl) (src : Nat) (j : Subj) (a b c d : Nat) (g : FRef) : (s.raise src j a b c d).bit g = s.bit g := by unfold Ctl.raise; split <;> rfl
@[simp] theorem Ctl.raise_rdWord (s : Ctl) (src : Nat) (j : Subj) (a b c d : Nat) (q : Nat) : (s.raise src j a b c d).rdWord q = s.rdWord q := by unfold Ctl.raise; split <;> rfl

end Sys2Proof.Machine
end

