-- ==== Sys2Proof/Laws/Ops.lean ====
section
/-!
SUPPORT. What reading a register gives after each way of writing one, and what the lifting of a
change to a command answers.
-/

namespace Sys2Proof.Machine

/-! ## Words -/

theorem Ctl.word_setWord (s : Ctl) (a : Nat) (v : W64) (b : Nat) :
    (s.setWord a v).word b = if b = a then v else s.word b := by
  simp [Ctl.word, Ctl.setWord, tblGet_tblPut]

@[simp] theorem Ctl.word_setWord_same (s : Ctl) (a : Nat) (v : W64) : (s.setWord a v).word a = v := by
  simp [Ctl.word_setWord]

theorem Ctl.word_setWord_ne (s : Ctl) {a b : Nat} (v : W64) (h : b ≠ a) : (s.setWord a v).word b = s.word b := by
  simp [Ctl.word_setWord, h]

theorem Ctl.word_wr (s : Ctl) (f : FRef) (v b : Nat) :
    (s.wr f v).word b = if b = f.addr then setFld (s.word f.addr) f.lo f.w v else s.word b := by
  simp [Ctl.wr, Ctl.word_setWord]

theorem Ctl.word_wr_ne (s : Ctl) (f : FRef) (v : Nat) {b : Nat} (h : b ≠ f.addr) : (s.wr f v).word b = s.word b := by
  simp [Ctl.word_wr, h]

theorem Ctl.word_wrWord (s : Ctl) (a v b : Nat) :
    (s.wrWord a v).word b = if b = a then BitVec.ofNat 64 v else s.word b := by
  simp [Ctl.wrWord, Ctl.word_setWord]

theorem Ctl.word_zeroWords (s : Ctl) (a n b : Nat) :
    (s.zeroWords a n).word b = if a ≤ b ∧ b < a + 8 * n then resetWord s.fuse b else s.word b := by
  have := tblGet_filter (resetWord s.fuse) s.bar0 (fun i => !(decide (a ≤ i) && decide (i < a + 8 * n))) b
  simp only [Ctl.word, Ctl.zeroWords] at *
  rw [this]
  by_cases h1 : a ≤ b <;> by_cases h2 : b < a + 8 * n <;> simp [h1, h2]

/-! ## Fields -/

/-- Two fields have no bit in common. -/
def FRef.apart (f g : FRef) : Prop := f.addr ≠ g.addr ∨ f.lo + f.w ≤ g.lo ∨ g.lo + g.w ≤ f.lo

/-- A field that was written reads what was written, modulo its width. -/
theorem Ctl.rd_wr_same (s : Ctl) (f : FRef) (v : Nat) (h : f.lo + f.w ≤ 64) : (s.wr f v).rd f = v % 2 ^ f.w := by
  simp [Ctl.rd, Ctl.wr, getFld_setFld_same _ _ _ _ h]

/-- A field apart from the one written keeps its value. -/
theorem Ctl.rd_wr_apart (s : Ctl) (f g : FRef) (v : Nat) (h : f.apart g) : (s.wr f v).rd g = s.rd g := by
  by_cases ha : g.addr = f.addr
  · simp only [Ctl.rd, Ctl.wr, ha, Ctl.word_setWord_same]
    exact getFld_setFld_apart _ _ _ _ _ _ (h.resolve_left (fun hn => hn ha.symm))
  · simp only [Ctl.rd, Ctl.wr, Ctl.word_setWord_ne _ _ ha]

theorem Ctl.rd_wr_ne (s : Ctl) (f g : FRef) (v : Nat) (h : g.addr ≠ f.addr) : (s.wr f v).rd g = s.rd g :=
  s.rd_wr_apart f g v (Or.inl (Ne.symm h))

theorem Ctl.rd_setWord_ne (s : Ctl) (a : Nat) (v : W64) (g : FRef) (h : g.addr ≠ a) : (s.setWord a v).rd g = s.rd g := by
  simp [Ctl.rd, Ctl.word_setWord_ne _ _ h]

theorem Ctl.rd_lt (s : Ctl) (f : FRef) : s.rd f < 2 ^ f.w := getFld_lt _ _ _

theorem b2n_lt (b : Bool) : b2n b < 2 := by cases b <;> decide

/-- A one-bit field that was written is set exactly where it was written so. -/
theorem Ctl.bit_wrB_same (s : Ctl) (f : FRef) (b : Bool) (h : f.lo + f.w ≤ 64) (hw : f.w = 1) : (s.wrB f b).bit f = b := by
  rw [Ctl.bit, Ctl.wrB, Ctl.rd_wr_same _ _ _ h, hw]
  cases b <;> rfl

theorem Ctl.rd_wrB_same (s : Ctl) (f : FRef) (b : Bool) (h : f.lo + f.w ≤ 64) (hw : f.w = 1) : (s.wrB f b).rd f = b2n b := by
  rw [Ctl.wrB, Ctl.rd_wr_same _ _ _ h, hw]
  cases b <;> rfl

theorem Ctl.rd_wrB_apart (s : Ctl) (f g : FRef) (b : Bool) (h : f.apart g) : (s.wrB f b).rd g = s.rd g :=
  s.rd_wr_apart f g _ h

theorem Ctl.bit_wr_apart (s : Ctl) (f g : FRef) (v : Nat) (h : f.apart g) : (s.wr f v).bit g = s.bit g := by
  simp [Ctl.bit, Ctl.rd_wr_apart _ _ _ _ h]

theorem Ctl.bit_wrB_apart (s : Ctl) (f g : FRef) (b : Bool) (h : f.apart g) : (s.wrB f b).bit g = s.bit g :=
  s.bit_wr_apart f g _ h

/-- A saturating counter stops at all ones. -/
theorem Ctl.rd_sat_same (s : Ctl) (f : FRef) (k : Nat) (h : f.lo + f.w ≤ 64) :
    (s.sat f k).rd f = min (s.rd f + k) (2 ^ f.w - 1) := by
  rw [Ctl.sat, Ctl.rd_wr_same _ _ _ h, satAdd]
  exact Nat.mod_eq_of_lt (by have := Nat.two_pow_pos f.w; omega)

theorem Ctl.rd_sat_apart (s : Ctl) (f g : FRef) (k : Nat) (h : f.apart g) : (s.sat f k).rd g = s.rd g :=
  s.rd_wr_apart f g _ h

/-- A counter that wraps. -/
theorem Ctl.rd_inc_same (s : Ctl) (f : FRef) (k : Nat) (h : f.lo + f.w ≤ 64) :
    (s.inc f k).rd f = (s.rd f + k) % 2 ^ f.w := s.rd_wr_same f _ h

theorem Ctl.rd_inc_apart (s : Ctl) (f g : FRef) (k : Nat) (h : f.apart g) : (s.inc f k).rd g = s.rd g :=
  s.rd_wr_apart f g _ h

/-! ## Tables of units -/

@[simp] theorem Ctl.link_setLink_same (s : Ctl) (n : Nat) (l : LinkSt) : (s.setLink n l).link n = l := by
  simp [Ctl.link, Ctl.setLink]

theorem Ctl.link_setLink_ne (s : Ctl) {n m : Nat} (l : LinkSt) (h : m ≠ n) : (s.setLink n l).link m = s.link m := by
  simp [Ctl.link, Ctl.setLink, tblGet_tblPut, h]

@[simp] theorem Ctl.link_modLink_same (s : Ctl) (n : Nat) (f : LinkSt → LinkSt) : (s.modLink n f).link n = f (s.link n) := by
  simp [Ctl.modLink]

theorem Ctl.link_modLink_ne (s : Ctl) {n m : Nat} (f : LinkSt → LinkSt) (h : m ≠ n) : (s.modLink n f).link m = s.link m := by
  simp [Ctl.modLink, Ctl.link_setLink_ne _ _ h]

@[simp] theorem Ctl.setWord_link (s : Ctl) (a : Nat) (v : W64) (n : Nat) : (s.setWord a v).link n = s.link n := by rfl
@[simp] theorem Ctl.wr_link (s : Ctl) (f : FRef) (v n : Nat) : (s.wr f v).link n = s.link n := by rfl
@[simp] theorem Ctl.wrB_link (s : Ctl) (f : FRef) (b : Bool) (n : Nat) : (s.wrB f b).link n = s.link n := by rfl
@[simp] theorem Ctl.emit_sent (s : Ctl) (x : Sent) : (s.emit x).sent = x :: s.sent := by rfl

@[simp] theorem Ctl.pstOf_setPst_same (s : Ctl) (d : Nat) (p : PstDom) : (s.setPst d p).pstOf d = p := by
  simp [Ctl.pstOf, Ctl.setPst]
@[simp] theorem Ctl.pstOf_modPst_same (s : Ctl) (d : Nat) (f : PstDom → PstDom) : (s.modPst d f).pstOf d = f (s.pstOf d) := by
  simp [Ctl.modPst]
@[simp] theorem Ctl.engOf_setEng_same (s : Ctl) (n : Nat) (e : EngSt) : (s.setEng n e).engOf n = e := by
  simp [Ctl.engOf, Ctl.setEng]
@[simp] theorem Ctl.engOf_modEng_same (s : Ctl) (n : Nat) (f : EngSt → EngSt) : (s.modEng n f).engOf n = f (s.engOf n) := by
  simp [Ctl.modEng]
theorem Ctl.engOf_modEng_ne (s : Ctl) {n m : Nat} (f : EngSt → EngSt) (h : m ≠ n) : (s.modEng n f).engOf m = s.engOf m := by
  simp [Ctl.modEng, Ctl.setEng, Ctl.engOf, tblGet_tblPut, h]
@[simp] theorem Ctl.wr_engOf (s : Ctl) (f : FRef) (v n : Nat) : (s.wr f v).engOf n = s.engOf n := by rfl
@[simp] theorem Ctl.wr_stream (s : Ctl) (f : FRef) (v n t : Nat) : (s.wr f v).stream n t = s.stream n t := by rfl
@[simp] theorem Ctl.stream_setStream_same (s : Ctl) (n t : Nat) (x : StreamSt) : (s.setStream n t x).stream n t = x := by
  simp [Ctl.stream, Ctl.setStream]
@[simp] theorem Ctl.stream_modStream_same (s : Ctl) (n t : Nat) (f : StreamSt → StreamSt) :
    (s.modStream n t f).stream n t = f (s.stream n t) := by simp [Ctl.modStream]

/-! ## Answers -/

theorem State.ctlNext_eq (s : State) (f : Ctl → Ctl) : s.ctlNext f = .next { s with dev := s.dev.onCtl f } := by rfl
theorem State.devNext_eq (s : State) (f : Dev → Dev) : s.devNext f = .next { s with dev := f s.dev } := by rfl

end Sys2Proof.Machine
end

