-- ==== Sys2Proof/Laws/Engine.lean ====
section
/-!
SUPPORT. What issuing an instruction of an engine stream does: one lemma that turns an issue into its
body on the issued state, and what the issued state keeps.
-/

namespace Sys2Proof.Machine

@[simp] theorem State.withC_c (s : State) (c : Ctl) : (s.withC c).c = c := by rfl
@[simp] theorem State.withC_ctl (s : State) (c : Ctl) : (s.withC c).dev.ctl = c := by rfl
@[simp] theorem State.withC_ram (s : State) (c : Ctl) : (s.withC c).dev.ram = s.dev.ram := by rfl
@[simp] theorem State.withC_pending (s : State) (c : Ctl) : (s.withC c).pending = s.pending := by rfl

/-- A command that changes no memory answers the state with its change. -/
theorem State.ctlNext_withC (s : State) (f : Ctl → Ctl) : s.ctlNext f = .next (s.withC (f s.c)) := by rfl

/-- A command whose device change leaves the memories alone. -/
theorem State.devNext_withC (s : State) (F : Dev → Dev) (c : Ctl) (h : F s.dev = { ctl := c, ram := s.dev.ram }) :
    s.devNext F = .next (s.withC c) := by
  rw [State.devNext, h]; rfl

/-! ## Everything else -/

@[simp] theorem Ctl.others_wr (s : Ctl) (f : FRef) (v : Nat) : (s.wr f v).others = s.others := by rfl
@[simp] theorem Ctl.others_inc (s : Ctl) (f : FRef) (v : Nat) : (s.inc f v).others = s.others := by rfl
@[simp] theorem Ctl.others_setEng (s : Ctl) (n : Nat) (e : EngSt) : (s.setEng n e).others = s.others := by rfl
@[simp] theorem Ctl.others_modEng (s : Ctl) (n : Nat) (f : EngSt → EngSt) : (s.modEng n f).others = s.others := by rfl
@[simp] theorem Ctl.others_setStream (s : Ctl) (n t : Nat) (x : StreamSt) : (s.setStream n t x).others = s.others := by rfl
@[simp] theorem Ctl.others_modStream (s : Ctl) (n t : Nat) (f : StreamSt → StreamSt) : (s.modStream n t f).others = s.others := by rfl

@[simp] theorem Ctl.others_setSem (s : Ctl) (n i v : Nat) : (s.setSem n i v).others = s.others := by rfl

/-! ## Streams, semaphores and registers -/

theorem Ctl.stream_setStream_ne (s : Ctl) (n t : Nat) (x : StreamSt) (m u : Nat) (h : m ≠ n ∨ u ≠ t) :
    (s.setStream n t x).stream m u = s.stream m u := by
  by_cases hm : m = n
  · subst hm
    simp only [Ctl.stream, Ctl.setStream, Ctl.engOf_modEng_same]
    exact tblGet_tblPut_ne _ _ _ (h.resolve_left (fun k => k rfl))
  · simp only [Ctl.stream, Ctl.setStream, Ctl.engOf_modEng_ne _ _ hm]

theorem Ctl.engOf_setStream_same (s : Ctl) (n t : Nat) (x : StreamSt) :
    (s.setStream n t x).engOf n = { s.engOf n with streams := tblPut (fun _ => {}) (s.engOf n).streams t x } := by
  simp [Ctl.setStream]

theorem Ctl.engOf_setStream_ne (s : Ctl) (n t : Nat) (x : StreamSt) {m : Nat} (h : m ≠ n) :
    (s.setStream n t x).engOf m = s.engOf m := by simp [Ctl.setStream, Ctl.engOf_modEng_ne _ _ h]

@[simp] theorem Ctl.sem_setStream (s : Ctl) (n t : Nat) (x : StreamSt) (m i : Nat) :
    (s.setStream n t x).sem m i = s.sem m i := by
  by_cases h : m = n
  · subst h; simp [Ctl.sem, Ctl.engOf_setStream_same]
  · simp [Ctl.sem, Ctl.engOf_setStream_ne _ _ _ _ h]

theorem Ctl.sem_setSem (s : Ctl) (n i v m j : Nat) :
    (s.setSem n i v).sem m j = if m = n ∧ j = i then v else s.sem m j := by
  by_cases h : m = n
  · subst h; simp [Ctl.sem, Ctl.setSem, tblGet_tblPut]
  · simp [Ctl.sem, Ctl.setSem, Ctl.engOf_modEng_ne _ _ h, h]

@[simp] theorem Ctl.stream_setSem (s : Ctl) (n i v m u : Nat) : (s.setSem n i v).stream m u = s.stream m u := by
  by_cases h : m = n
  · subst h; simp [Ctl.stream, Ctl.setSem]
  · simp [Ctl.stream, Ctl.setSem, Ctl.engOf_modEng_ne _ _ h]

@[simp] theorem Ctl.rd_setSem (s : Ctl) (n i v : Nat) (f : FRef) : (s.setSem n i v).rd f = s.rd f := by rfl
@[simp] theorem Ctl.word_setSem (s : Ctl) (n i v a : Nat) : (s.setSem n i v).word a = s.word a := by rfl

theorem Ctl.engOf_setSem_same (s : Ctl) (n i v : Nat) :
    (s.setSem n i v).engOf n = { s.engOf n with sems := tblPut (fun _ => 0) (s.engOf n).sems i v } := by
  simp [Ctl.setSem]

theorem Ctl.engOf_setSem_ne (s : Ctl) (n i v : Nat) {m : Nat} (h : m ≠ n) : (s.setSem n i v).engOf m = s.engOf m := by
  simp [Ctl.setSem, Ctl.engOf_modEng_ne _ _ h]

/-! ## Registers of a stream -/

theorem Ctl.reg_setReg (s : Ctl) (n t i : Nat) (v : W64) (j : Nat) :
    (s.setReg n t i v).reg n t j = if j = i ∧ ¬ (t = 2 ∧ i = 0) then v else s.reg n t j := by
  unfold Ctl.setReg
  by_cases h : t = 2 ∧ i = 0
  · simp [h]
  · simp only [h, if_false, not_false_eq_true, and_true]
    by_cases hj : j = i
    · subst hj; simp [Ctl.reg, h]
    · simp [Ctl.reg, tblGet_tblPut, hj]

theorem Ctl.setReg_bar0 (s : Ctl) (n t i : Nat) (v : W64) : (s.setReg n t i v).bar0 = s.bar0 := by
  unfold Ctl.setReg; split <;> rfl
@[simp] theorem Ctl.setReg_word (s : Ctl) (n t i : Nat) (v : W64) (a : Nat) : (s.setReg n t i v).word a = s.word a := by
  unfold Ctl.setReg; split <;> rfl
@[simp] theorem Ctl.setReg_rd (s : Ctl) (n t i : Nat) (v : W64) (f : FRef) : (s.setReg n t i v).rd f = s.rd f := by
  unfold Ctl.setReg; split <;> rfl
@[simp] theorem Ctl.setReg_pcOf (s : Ctl) (n t i : Nat) (v : W64) (m u : Nat) : (s.setReg n t i v).pcOf m u = s.pcOf m u := by
  unfold Ctl.setReg; split <;> rfl
@[simp] theorem Ctl.setReg_sem (s : Ctl) (n t i : Nat) (v : W64) (m u : Nat) : (s.setReg n t i v).sem m u = s.sem m u := by
  unfold Ctl.setReg; split
  · rfl
  · simp [Ctl.modStream]
theorem Ctl.setReg_engOf_ne (s : Ctl) (n t i : Nat) (v : W64) {m : Nat} (h : m ≠ n) :
    (s.setReg n t i v).engOf m = s.engOf m := by
  unfold Ctl.setReg; split
  · rfl
  · simp [Ctl.modStream, Ctl.engOf_setStream_ne _ _ _ _ h]
theorem Ctl.setReg_stream_ne (s : Ctl) (n t i : Nat) (v : W64) {u : Nat} (h : u ≠ t) :
    (s.setReg n t i v).stream n u = s.stream n u := by
  unfold Ctl.setReg; split
  · rfl
  · exact s.stream_setStream_ne _ _ _ _ _ (Or.inr h)
theorem Ctl.setReg_engOf_same (s : Ctl) (n t i : Nat) (v : W64) :
    ∃ st, (s.setReg n t i v).engOf n = { s.engOf n with streams := st } := by
  unfold Ctl.setReg; split
  · exact ⟨_, rfl⟩
  · exact ⟨_, s.engOf_setStream_same _ _ _⟩
theorem Ctl.setReg_rest (s : Ctl) (n t i : Nat) (v : W64) :
    (s.setReg n t i v).others = s.others := by
  unfold Ctl.setReg; split
  · rfl
  · exact Ctl.others_modStream _ _ _ _

/-! ## Moving on -/

/-- The fields of SLC_ENG_PC of a stream. -/
theorem engPc_apart (n t : Nat) : (SLC_ENG_PC.PC n t).apart (SLC_ENG_PC.ICOUNT n t) ∧
    (SLC_ENG_PC.PC n t).apart (SLC_ENG_PC.STATE n t) ∧ (SLC_ENG_PC.ICOUNT n t).apart (SLC_ENG_PC.STATE n t) ∧
    (SLC_ENG_PC.ICOUNT n t).apart (SLC_ENG_PC.PC n t) :=
  ⟨.inr (.inl (Nat.le_of_ble_eq_true rfl)), .inr (.inl (Nat.le_of_ble_eq_true rfl)),
    .inr (.inr (Nat.le_of_ble_eq_true rfl)), .inr (.inr (Nat.le_of_ble_eq_true rfl))⟩

theorem Ctl.pcOf_setPc (s : Ctl) (n t v : Nat) : (s.setPc n t v).pcOf n t = v % 2 ^ 13 :=
  Ctl.rd_wr_same _ _ _ (by show 0 + 13 ≤ 64; decide)

theorem Ctl.rd_setPc (s : Ctl) (n t v : Nat) (f : FRef) (h : (SLC_ENG_PC.PC n t).apart f) :
    (s.setPc n t v).rd f = s.rd f := by
  unfold Ctl.setPc
  rw [Ctl.rd_wr_apart _ _ _ _ h]; rfl

theorem Ctl.word_setPc (s : Ctl) (n t v a : Nat) (h : a ≠ SLC_ENG_PC.addr n t) : (s.setPc n t v).word a = s.word a := by
  unfold Ctl.setPc
  rw [Ctl.word_wr_ne _ _ _ h]; rfl

@[simp] theorem Ctl.others_setPc (s : Ctl) (n t v : Nat) : (s.setPc n t v).others = s.others := by
  simp [Ctl.setPc]

theorem Ctl.stream_setPc_same (s : Ctl) (n t v : Nat) :
    (s.setPc n t v).stream n t = { s.stream n t with off := decide (regionLen t ≤ v) } := by simp [Ctl.setPc]

theorem Ctl.stream_setPc_ne (s : Ctl) (n t v : Nat) {u : Nat} (h : u ≠ t) : (s.setPc n t v).stream n u = s.stream n u := by
  unfold Ctl.setPc
  rw [Ctl.wr_stream]
  exact s.stream_setStream_ne _ _ _ _ _ (Or.inr h)

theorem Ctl.engOf_setPc_ne (s : Ctl) (n t v : Nat) {m : Nat} (h : m ≠ n) : (s.setPc n t v).engOf m = s.engOf m := by
  unfold Ctl.setPc
  rw [Ctl.wr_engOf]
  exact s.engOf_setStream_ne _ _ _ h

theorem Ctl.engOf_setPc_same (s : Ctl) (n t v : Nat) : ∃ st, (s.setPc n t v).engOf n = { s.engOf n with streams := st } := by
  unfold Ctl.setPc
  exact ⟨_, by rw [Ctl.wr_engOf]; exact s.engOf_setStream_same _ _ _⟩

theorem Ctl.sem_of_engOf {a b : Ctl} {n : Nat} {st : Tbl StreamSt} (h : a.engOf n = { b.engOf n with streams := st }) (i : Nat) :
    a.sem n i = b.sem n i := by simp [Ctl.sem, h]

theorem Ctl.reg_setPc (s : Ctl) (n t v i : Nat) : (s.setPc n t v).reg n t i = s.reg n t i := by
  simp [Ctl.reg, Ctl.stream_setPc_same]

/-! ## The state of a stream -/

theorem Ctl.engState_setEngState (s : Ctl) (n t v : Nat) (h : v < 8) : (s.setEngState n t v).engState n t = v := by
  unfold Ctl.setEngState Ctl.engState
  rw [Ctl.rd_wr_same _ _ _ (Nat.le_of_ble_eq_true rfl)]
  exact Nat.mod_eq_of_lt h

theorem Ctl.setEngState_word (s : Ctl) (n t v a : Nat) (h : a ≠ SLC_ENG_PC.addr n t) : (s.setEngState n t v).word a = s.word a := by
  unfold Ctl.setEngState
  exact Ctl.word_wr_ne _ _ _ h

theorem Ctl.setEngState_rd (s : Ctl) (n t v : Nat) (f : FRef) (h : (SLC_ENG_PC.STATE n t).apart f) :
    (s.setEngState n t v).rd f = s.rd f := by
  unfold Ctl.setEngState
  exact Ctl.rd_wr_apart _ _ _ _ h

@[simp] theorem Ctl.setEngState_stream (s : Ctl) (n t v m u : Nat) : (s.setEngState n t v).stream m u = s.stream m u := by
  unfold Ctl.setEngState; exact Ctl.wr_stream _ _ _ _ _
@[simp] theorem Ctl.setEngState_engOf (s : Ctl) (n t v m : Nat) : (s.setEngState n t v).engOf m = s.engOf m := by
  unfold Ctl.setEngState; exact Ctl.wr_engOf _ _ _ _
@[simp] theorem Ctl.others_setEngState (s : Ctl) (n t v : Nat) : (s.setEngState n t v).others = s.others := by
  unfold Ctl.setEngState; exact Ctl.others_wr _ _ _
@[simp] theorem Ctl.setEngState_reg (s : Ctl) (n t v m u i : Nat) : (s.setEngState n t v).reg m u i = s.reg m u i := by
  simp [Ctl.reg]
@[simp] theorem Ctl.setEngState_sem (s : Ctl) (n t v m i : Nat) : (s.setEngState n t v).sem m i = s.sem m i := by
  simp [Ctl.sem]

/-! ## Changing one stream -/

theorem Ctl.modStream_stream_ne (s : Ctl) (n t : Nat) (f : StreamSt → StreamSt) {m u : Nat} (h : m ≠ n ∨ u ≠ t) :
    (s.modStream n t f).stream m u = s.stream m u := by
  unfold Ctl.modStream; exact Ctl.stream_setStream_ne _ _ _ _ _ _ h
theorem Ctl.modStream_engOf_ne (s : Ctl) (n t : Nat) (f : StreamSt → StreamSt) {m : Nat} (h : m ≠ n) :
    (s.modStream n t f).engOf m = s.engOf m := by
  unfold Ctl.modStream; exact Ctl.engOf_setStream_ne _ _ _ _ h
theorem Ctl.modStream_engOf_same (s : Ctl) (n t : Nat) (f : StreamSt → StreamSt) :
    (s.modStream n t f).engOf n = { s.engOf n with streams := tblPut (fun _ => {}) (s.engOf n).streams t (f (s.stream n t)) } := by
  unfold Ctl.modStream; exact Ctl.engOf_setStream_same _ _ _ _
theorem Ctl.modStream_reg (s : Ctl) (n t : Nat) (f : StreamSt → StreamSt) (h : ∀ x, (f x).regs = x.regs) (i : Nat) :
    (s.modStream n t f).reg n t i = s.reg n t i := by
  simp [Ctl.reg, h]
@[simp] theorem Ctl.modStream_sem (s : Ctl) (n t : Nat) (f : StreamSt → StreamSt) (m i : Nat) :
    (s.modStream n t f).sem m i = s.sem m i := by
  unfold Ctl.modStream; exact Ctl.sem_setStream _ _ _ _ _ _

/-! ## The issued state -/

theorem Ctl.pass_others (s : Ctl) (n t w : Nat) (e : Bool) : (s.pass n t w e).others = s.others := by
  simp [Ctl.pass]

theorem Ctl.pass_word (s : Ctl) (n t w : Nat) (e : Bool) (a : Nat) (h : a ≠ SLC_ENG_PC.addr n t) :
    (s.pass n t w e).word a = s.word a := by
  unfold Ctl.pass
  rw [Ctl.word_setPc _ _ _ _ _ h, Ctl.setStream_word, Ctl.inc, Ctl.word_wr_ne _ _ _ h]

theorem Ctl.pass_pcOf (s : Ctl) (n t w : Nat) (e : Bool) :
    (s.pass n t w e).pcOf n t = (loopNext (s.stream n t).loops (s.pcOf n t)).1 % 2 ^ 13 := by
  unfold Ctl.pass
  rw [Ctl.pcOf_setPc]

theorem Ctl.pass_icount (s : Ctl) (n t w : Nat) (e : Bool) :
    (s.pass n t w e).rd (SLC_ENG_PC.ICOUNT n t) = (s.rd (SLC_ENG_PC.ICOUNT n t) + 1) % 2 ^ 32 := by
  unfold Ctl.pass
  rw [Ctl.rd_setPc _ _ _ _ _ (engPc_apart n t).1, Ctl.setStream_rd, Ctl.rd_inc_same _ _ _ (by show 32 + 32 ≤ 64; decide)]
  rfl

theorem Ctl.pass_state (s : Ctl) (n t w : Nat) (e : Bool) : (s.pass n t w e).engState n t = s.engState n t := by
  unfold Ctl.pass Ctl.engState
  rw [Ctl.rd_setPc _ _ _ _ _ (engPc_apart n t).2.1, Ctl.setStream_rd, Ctl.rd_inc_apart _ _ _ _ (engPc_apart n t).2.2.1]

theorem Ctl.pass_engOf_ne (s : Ctl) (n t w : Nat) (e : Bool) {m : Nat} (h : m ≠ n) : (s.pass n t w e).engOf m = s.engOf m := by
  unfold Ctl.pass
  rw [Ctl.engOf_setPc_ne _ _ _ _ h, Ctl.engOf_setStream_ne _ _ _ _ h]; rfl

theorem Ctl.pass_engOf_same (s : Ctl) (n t w : Nat) (e : Bool) :
    ∃ st, (s.pass n t w e).engOf n = { s.engOf n with streams := st } := by
  unfold Ctl.pass
  obtain ⟨st, h⟩ := Ctl.engOf_setPc_same _ n t (loopNext (s.stream n t).loops (s.pcOf n t)).1
  exact ⟨st, by rw [h, Ctl.engOf_setStream_same]; rfl⟩

theorem Ctl.pass_stream_ne (s : Ctl) (n t w : Nat) (e : Bool) {u : Nat} (h : u ≠ t) :
    (s.pass n t w e).stream n u = s.stream n u := by
  unfold Ctl.pass
  rw [Ctl.stream_setPc_ne _ _ _ _ h, Ctl.stream_setStream_ne _ _ _ _ _ _ (Or.inr h)]; rfl

/-- What moving on keeps of the stream itself. -/
theorem Ctl.pass_stream_same (s : Ctl) (n t w : Nat) (e : Bool) :
    ∃ o f, (s.pass n t w e).stream n t =
      { s.stream n t with
        loops := (loopNext (s.stream n t).loops (s.pcOf n t)).2, flight := (s.stream n t).flight ++ [f], woken := false, off := o } := by
  unfold Ctl.pass
  simp only [Ctl.stream_setPc_same, Ctl.stream_setStream_same]
  exact ⟨_, _, rfl⟩

theorem Ctl.pass_sem (s : Ctl) (n t w : Nat) (e : Bool) (i : Nat) : (s.pass n t w e).sem n i = s.sem n i := by
  obtain ⟨st, h⟩ := s.pass_engOf_same n t w e
  exact Ctl.sem_of_engOf h i

theorem Ctl.pass_reg (s : Ctl) (n t w : Nat) (e : Bool) (i : Nat) : (s.pass n t w e).reg n t i = s.reg n t i := by
  obtain ⟨o, f, h⟩ := s.pass_stream_same n t w e
  simp [Ctl.reg, h]

/-- The state with the WEN semaphore taken. -/
def Ctl.wenTaken (c : Ctl) (n t w : Nat) : Ctl :=
  if nbit w 14 && !(c.stream n t).woken then c.setSem n (nfld w 8 6) (c.sem n (nfld w 8 6) - 1) else c

theorem Ctl.issued_eq (c : Ctl) (n t w : Nat) (e : Bool) : c.issued n t w e = (c.wenTaken n t w).pass n t w e := by rfl

@[simp] theorem Ctl.wenTaken_stream (c : Ctl) (n t w m u : Nat) : (c.wenTaken n t w).stream m u = c.stream m u := by
  unfold Ctl.wenTaken; split <;> simp
@[simp] theorem Ctl.wenTaken_word (c : Ctl) (n t w a : Nat) : (c.wenTaken n t w).word a = c.word a := by
  unfold Ctl.wenTaken; split <;> simp
@[simp] theorem Ctl.wenTaken_rd (c : Ctl) (n t w : Nat) (f : FRef) : (c.wenTaken n t w).rd f = c.rd f := by
  unfold Ctl.wenTaken; split <;> simp
@[simp] theorem Ctl.wenTaken_pcOf (c : Ctl) (n t w m u : Nat) : (c.wenTaken n t w).pcOf m u = c.pcOf m u :=
  c.wenTaken_rd n t w _
theorem Ctl.wenTaken_others (c : Ctl) (n t w : Nat) : (c.wenTaken n t w).others = c.others := by
  unfold Ctl.wenTaken; split
  · exact Ctl.others_setSem _ _ _ _
  · rfl
theorem Ctl.wenTaken_engOf_ne (c : Ctl) (n t w : Nat) {m : Nat} (h : m ≠ n) : (c.wenTaken n t w).engOf m = c.engOf m := by
  unfold Ctl.wenTaken; split
  · exact c.engOf_setSem_ne _ _ _ h
  · rfl
theorem Ctl.wenTaken_engOf_same (c : Ctl) (n t w : Nat) : ∃ q, (c.wenTaken n t w).engOf n = { c.engOf n with sems := q } := by
  unfold Ctl.wenTaken; split
  · exact ⟨_, c.engOf_setSem_same _ _ _⟩
  · exact ⟨_, rfl⟩
theorem Ctl.wenTaken_sem (c : Ctl) (n t w i : Nat) : (c.wenTaken n t w).sem n i = c.semAfter n t w i := by
  unfold Ctl.wenTaken Ctl.semAfter
  by_cases h1 : nbit w 14 <;> by_cases h2 : (c.stream n t).woken <;> by_cases h3 : i = nfld w 8 6 <;>
    simp [h1, h2, h3, Ctl.sem_setSem]

@[simp] theorem Ctl.issued_reg (c : Ctl) (n t w : Nat) (e : Bool) (i : Nat) : (c.issued n t w e).reg n t i = c.reg n t i := by
  rw [Ctl.issued_eq, Ctl.pass_reg]; simp [Ctl.reg]

theorem Ctl.issued_rd (c : Ctl) (n t w : Nat) (e : Bool) (f : FRef) (h : f.addr ≠ SLC_ENG_PC.addr n t) :
    (c.issued n t w e).rd f = c.rd f := by
  simp [Ctl.rd, Ctl.issued_eq, Ctl.pass_word _ _ _ _ _ _ h]

theorem all_ite {α : Type} (f : α → Bool) (c : Prop) [Decidable c] (x y : Option α) (hx : x.all f = true) (hy : y.all f = true) :
    (if c then x else y).all f = true := by split <;> assumption

/-- Only the vector engine's formats have a PRED field. -/
theorem operands_noPred (t op : Nat) (h : t ≠ 1) : (operands t op).all (fun fs => !fs.contains (42, 3)) = true := by
  unfold operands
  split
  case h_11 =>
    split
    case h_1 => repeat' apply all_ite
                all_goals rfl
    case h_2 => split <;> rfl
    case h_3 => exact absurd rfl h
    case h_4 => split <;> rfl
    case h_5 => rfl
  all_goals (try rfl)
  all_goals exact all_ite _ _ _ _ rfl rfl
/-- An instruction that issues runs its body on the issued state; a body that answers false is a
program fault. -/
theorem Dev.issue_of_issues (d : Dev) (n t op w : Nat) (body : Nat → Dev → Bool × Dev) (h : Issues d.ctl n t op w)
    (hp : (operands t op).all (fun fs => !fs.contains (42, 3)) = true ∨ nfld w 42 3 ≤ 4) (hb : (body w (d.onCtl (fun c => c.issued n t w (op == 0x02)))).1 = true) :
    d.issue n t op body = (body w (d.onCtl (fun c => c.issued n t w (op == 0x02)))).2 := by
  obtain ⟨fs, h1, h2⟩ := h.clean
  have hw := h.wen
  unfold Dev.issue
  have ho' : operands t op = some fs := h1
  simp only [h.may, h.word, h.opcode, ho', h2]
  have hp' : (fs.contains (42, 3) && decide (4 < nfld w 42 3)) = false := by
    rcases hp with hp | hp
    · simp only [h1, Option.all_some, Bool.not_eq_true'] at hp
      rw [hp]; rfl
    · have : decide (4 < nfld w 42 3) = false := decide_eq_false (by omega)
      simp [this]
  have hc : (nbit w 14 && !(d.ctl.stream n t).woken && !d.ctl.semReady n t (nfld w 8 6) 1) = false := by
    cases h14 : nbit w 14 <;> cases hk : (d.ctl.stream n t).woken <;> simp_all
  have hd : (if (nbit w 14 && !(d.ctl.stream n t).woken) = true then
      d.onCtl (fun c => c.setSem n (nfld w 8 6) (c.sem n (nfld w 8 6) - 1)) else d).onCtl (fun c => c.pass n t w (op == 0x02)) =
      d.onCtl (fun c => c.issued n t w (op == 0x02)) := by
    cases hq : (nbit w 14 && !(d.ctl.stream n t).woken) <;> simp [Dev.onCtl, Ctl.issued, hq]
  simp only [hc, hp', hd, hb]
  simp [Dev.onCtl]

/-- Issuing an instruction whose body changes no memory. -/
theorem Dev.issueC (d : Dev) (n t op w : Nat) (f : Nat → Ctl → Bool × Ctl) (h : Issues d.ctl n t op w)
    (hp : (operands t op).all (fun fs => !fs.contains (42, 3)) = true ∨ nfld w 42 3 ≤ 4) (c : Ctl) (hb : f w (d.ctl.issued n t w (op == 0x02)) = (true, c)) :
    d.issue n t op (ctlBody f) = { ctl := c, ram := d.ram } := by
  have hb' : ctlBody f w (d.onCtl (fun c => c.issued n t w (op == 0x02))) = (true, { ctl := c, ram := d.ram }) := by
    simp only [ctlBody, Dev.onCtl, hb]
  rw [Dev.issue_of_issues _ _ _ _ _ _ h hp (by rw [hb']), hb']

/-- What an issued instruction's command answers, where its body answers true: the body's device. -/
theorem State.devNext_issue (s : State) (n t op w : Nat) (body : Nat → Dev → Bool × Dev) (h : Issues s.c n t op w)
    (hp : (operands t op).all (fun fs => !fs.contains (42, 3)) = true ∨ nfld w 42 3 ≤ 4) (d : Dev)
    (hb : body w { ctl := s.c.issued n t w (op == 0x02), ram := s.dev.ram } = (true, d)) :
    s.devNext (fun d => d.issue n t op body) = .next { s with dev := d } := by
  have hb' : body w (s.dev.onCtl (fun c => c.issued n t w (op == 0x02))) = (true, d) := hb
  show Host.Outcome.next { s with dev := s.dev.issue n t op body } = _
  rw [Dev.issue_of_issues _ _ _ _ _ _ h hp (by rw [hb']), hb']

/-- The same of an instruction whose body changes no memory. -/
theorem State.devNext_issueC (s : State) (n t op w : Nat) (f : Nat → Ctl → Bool × Ctl) (h : Issues s.c n t op w)
    (hp : (operands t op).all (fun fs => !fs.contains (42, 3)) = true ∨ nfld w 42 3 ≤ 4) (c : Ctl) (hb : f w (s.c.issued n t w (op == 0x02)) = (true, c)) :
    s.devNext (fun d => d.issue n t op (ctlBody f)) = .next (s.withC c) := by
  refine s.devNext_issue n t op w _ h hp { ctl := c, ram := s.dev.ram } ?_
  simp only [ctlBody, hb]

theorem Ctl.issued_engOf_same (c : Ctl) (n t w : Nat) (e : Bool) :
    ∃ st q, (c.issued n t w e).engOf n = { c.engOf n with streams := st, sems := q } := by
  obtain ⟨st, h2⟩ := Ctl.pass_engOf_same (c.wenTaken n t w) n t w e
  obtain ⟨q, h3⟩ := Ctl.wenTaken_engOf_same c n t w
  exact ⟨st, q, by rw [Ctl.issued_eq, h2, h3]⟩

theorem Ctl.issued_engOf_ne (c : Ctl) (n t w : Nat) (e : Bool) {m : Nat} (hm : m ≠ n) :
    (c.issued n t w e).engOf m = c.engOf m := by
  rw [Ctl.issued_eq, Ctl.pass_engOf_ne _ _ _ _ _ hm, Ctl.wenTaken_engOf_ne _ _ _ _ hm]

theorem Ctl.issued_stream_ne (c : Ctl) (n t w : Nat) (e : Bool) {k : Nat} (hk : k ≠ t) :
    (c.issued n t w e).stream n k = c.stream n k := by
  rw [Ctl.issued_eq, Ctl.pass_stream_ne _ _ _ _ _ hk, Ctl.wenTaken_stream]

theorem Ctl.issued_stream_same (c : Ctl) (n t w : Nat) (e : Bool) :
    ∃ o f, (c.issued n t w e).stream n t =
      { c.stream n t with
        loops := (loopNext (c.stream n t).loops (c.pcOf n t)).2, flight := (c.stream n t).flight ++ [f], woken := false, off := o } := by
  obtain ⟨o, f, h⟩ := Ctl.pass_stream_same (c.wenTaken n t w) n t w e
  exact ⟨o, f, by rw [Ctl.issued_eq, h, Ctl.wenTaken_stream, Ctl.wenTaken_pcOf]⟩

theorem Ctl.issued_word (c : Ctl) (n t w : Nat) (e : Bool) (a : Nat) (ha : a ≠ SLC_ENG_PC.addr n t) :
    (c.issued n t w e).word a = c.word a := by
  rw [Ctl.issued_eq, Ctl.pass_word _ _ _ _ _ _ ha, Ctl.wenTaken_word]

theorem Ctl.issued_pcOf (c : Ctl) (n t w : Nat) (e : Bool) :
    (c.issued n t w e).pcOf n t = (loopNext (c.stream n t).loops (c.pcOf n t)).1 % 2 ^ 13 := by
  rw [Ctl.issued_eq, Ctl.pass_pcOf, Ctl.wenTaken_stream, Ctl.wenTaken_pcOf]

theorem Ctl.issued_icount (c : Ctl) (n t w : Nat) (e : Bool) :
    (c.issued n t w e).rd (SLC_ENG_PC.ICOUNT n t) = (c.rd (SLC_ENG_PC.ICOUNT n t) + 1) % 2 ^ 32 := by
  rw [Ctl.issued_eq, Ctl.pass_icount, Ctl.wenTaken_rd]

theorem Ctl.issued_state (c : Ctl) (n t w : Nat) (e : Bool) : (c.issued n t w e).engState n t = c.engState n t := by
  rw [Ctl.issued_eq]
  exact (Ctl.pass_state _ _ _ _ _).trans (c.wenTaken_rd _ _ _ _)

theorem Ctl.issued_sem (c : Ctl) (n t w : Nat) (e : Bool) (i : Nat) : (c.issued n t w e).sem n i = c.semAfter n t w i := by
  rw [Ctl.issued_eq, Ctl.pass_sem, Ctl.wenTaken_sem]

theorem Ctl.issued_others (c : Ctl) (n t w : Nat) (e : Bool) : (c.issued n t w e).others = c.others := by
  rw [Ctl.issued_eq]
  exact (Ctl.pass_others _ _ _ _ _).trans (c.wenTaken_others _ _ _)

/-- The issued state is that of an instruction which changes nothing else. -/
theorem Ctl.issued_passed (s : State) (n t w : Nat) (e : Bool) : Passed s (s.withC (s.c.issued n t w e)) n t w := by
  obtain ⟨st, q, h⟩ := s.c.issued_engOf_same n t w e
  refine ⟨fun r => s.c.issued_reg _ _ _ _ _, ⟨s.c.issued_pcOf _ _ _ _, s.c.issued_icount _ _ _ _, s.c.issued_state _ _ _ _⟩,
    ⟨rfl, rfl, fun a => s.c.issued_word _ _ _ _ a, fun m => s.c.issued_engOf_ne _ _ _ _, fun k => s.c.issued_stream_ne _ _ _ _,
      s.c.issued_others _ _ _ _⟩, ⟨?_, ?_, ?_, ?_, ?_, ?_, ?_⟩, fun i => s.c.issued_sem _ _ _ _ _⟩ <;>
    simp only [State.withC_c] <;> rw [h]

/-- A change after the issue that is within the slice's engines and leaves the other streams alone. -/
theorem Passed.outside (s u v : State) (n t w : Nat) (h : Passed s u n t w) (hq : v.pending = u.pending)
    (hr : v.dev.ram = u.dev.ram) (hw : ∀ a, v.c.word a = u.c.word a) (hs : ∀ m, m ≠ n → v.c.engOf m = u.c.engOf m)
    (hk : ∀ k, k ≠ t → v.c.stream n k = u.c.stream n k) (ho : v.c.others = u.c.others) :
    MovedOn s v n t ∧ StreamFrame s v n t := by
  have hrd : ∀ f, v.c.rd f = u.c.rd f := fun f => by simp only [Ctl.rd, hw]
  exact ⟨⟨(hrd _).trans h.moved.pc, (hrd _).trans h.moved.icount, (hrd _).trans h.moved.state⟩,
    ⟨hq.trans h.frame.queue, hr.trans h.frame.ram, fun a ha => (hw a).trans (h.frame.words a ha),
      fun m hm => (hs m hm).trans (h.frame.slices m hm), fun k hkt => (hk k hkt).trans (h.frame.streams k hkt),
      ho.trans h.frame.rest⟩⟩

/-- A change after the issue that leaves all but the streams of the slice alone. -/
theorem Passed.after (s u v : State) (n t w : Nat) (h : Passed s u n t w) (hq : v.pending = u.pending)
    (hr : v.dev.ram = u.dev.ram) (hw : ∀ a, v.c.word a = u.c.word a) (hs : ∀ m, m ≠ n → v.c.engOf m = u.c.engOf m)
    (hk : ∀ k, k ≠ t → v.c.stream n k = u.c.stream n k) (ho : v.c.others = u.c.others)
    (he : ∃ st, v.c.engOf n = { u.c.engOf n with streams := st }) :
    MovedOn s v n t ∧ StreamFrame s v n t ∧ EngineFrame s v n ∧ SemsKept s v n t w := by
  obtain ⟨h1, h2⟩ := Passed.outside s u v n t w h hq hr hw hs hk ho
  obtain ⟨st, he⟩ := he
  have e := h.engine
  exact ⟨h1, h2, ⟨by rw [he]; exact e.dmem, by rw [he]; exact e.tiles, by rw [he]; exact e.accs, by rw [he]; exact e.vregs,
    by rw [he]; exact e.preds, by rw [he]; exact e.checks, by rw [he]; exact e.stop⟩,
    fun i => (Ctl.sem_of_engOf he i).trans (h.sems i)⟩

/-- An instruction whose body changes nothing has passed. -/
theorem State.devNext_passed (s : State) (n t op w : Nat) (body : Nat → Dev → Bool × Dev)
    (h : Issues s.c n t op w) (hp : (operands t op).all (fun fs => !fs.contains (42, 3)) = true ∨ nfld w 42 3 ≤ 4)
    (hb : body w { ctl := s.c.issued n t w (op == 0x02), ram := s.dev.ram } =
      (true, { ctl := s.c.issued n t w (op == 0x02), ram := s.dev.ram })) :
    ∃ u, s.devNext (fun d => d.issue n t op body) = .next u ∧ Passed s u n t w :=
  ⟨_, s.devNext_issue n t op w body h hp _ hb, Ctl.issued_passed s n t w _⟩

/-- Writing one register after the issue. -/
theorem Ctl.setReg_wrote (s : State) (n t w i : Nat) (v : W64) (e : Bool) :
    WroteReg s (s.withC ((s.c.issued n t w e).setReg n t i v)) n t w i v := by
  obtain ⟨h1, h2, h3, h4⟩ := Passed.after s _ (s.withC ((s.c.issued n t w e).setReg n t i v)) n t w
    (Ctl.issued_passed s n t w e) rfl rfl (fun a => Ctl.setReg_word _ _ _ _ _ _) (fun m hm => Ctl.setReg_engOf_ne _ _ _ _ _ hm)
    (fun k hk => Ctl.setReg_stream_ne _ _ _ _ _ hk) (Ctl.setReg_rest _ _ _ _ _) (Ctl.setReg_engOf_same _ _ _ _ _)
  refine ⟨fun r => ?_, h1, h2, h3, h4⟩
  rw [State.withC_c, Ctl.reg_setReg, Ctl.issued_reg]
  by_cases hr : r = i
  · subst hr; rfl
  · simp [hr]

/-- An instruction whose body writes one register has written it, and nothing else. -/
theorem State.devNext_wroteReg (s : State) (n t op w i : Nat) (v : W64) (f : Nat → Ctl → Bool × Ctl)
    (h : Issues s.c n t op w) (hp : (operands t op).all (fun fs => !fs.contains (42, 3)) = true ∨ nfld w 42 3 ≤ 4)
    (hb : f w (s.c.issued n t w (op == 0x02)) = (true, (s.c.issued n t w (op == 0x02)).setReg n t i v)) :
    ∃ u, s.devNext (fun d => d.issue n t op (ctlBody f)) = .next u ∧ WroteReg s u n t w i v :=
  ⟨_, s.devNext_issueC n t op w f h hp _ hb, Ctl.setReg_wrote s n t w i v _⟩

end Sys2Proof.Machine
end

