-- ==== Sys2Proof/Laws/Memory.lean ====
section
/-!
SUPPORT. The memories: every operation keeps their canonical form, and a byte reads as what was last
written to it.
-/

namespace Sys2Proof.Machine

/-! ## Canonical form -/

theorem Ram.wf_iff (r : Ram) :
    r.wf = true ↔ tblWf (fun _ => (0 : Byte)) r.dram = true ∧ tblWf (fun _ => (0 : Byte)) r.staging = true := by
  simp [Ram.wf]

theorem Ram.empty_wf : ({} : Ram).wf = true := by rfl

theorem Ram.setDramByte_wf (r : Ram) (a : Nat) (b : Byte) (h : r.wf = true) : (r.setDramByte a b).wf = true := by
  rw [Ram.wf_iff] at h ⊢
  exact ⟨tblWf_tblPut _ _ _ _ h.1, h.2⟩

theorem Ram.setDramBytes_wf (bs : List Byte) (r : Ram) (a : Nat) (h : r.wf = true) : (r.setDramBytes a bs).wf = true := by
  induction bs generalizing r a with
  | nil => exact h
  | cons b t ih => exact ih _ _ (r.setDramByte_wf a b h)

theorem Ram.setStageByte_wf (r : Ram) (n o : Nat) (b : Byte) (h : r.wf = true) : (r.setStageByte n o b).wf = true := by
  rw [Ram.wf_iff] at h ⊢
  exact ⟨h.1, tblWf_tblPut _ _ _ _ h.2⟩

theorem Ram.setStageBytes_wf (bs : List Byte) (r : Ram) (n o : Nat) (h : r.wf = true) : (r.setStageBytes n o bs).wf = true := by
  induction bs generalizing r o with
  | nil => exact h
  | cons b t ih => exact ih _ _ (r.setStageByte_wf n o b h)

theorem Ram.zeroDram_wf (r : Ram) (a b : Nat) (h : r.wf = true) : (r.zeroDram a b).wf = true := by
  rw [Ram.wf_iff] at h ⊢
  exact ⟨tblWf_filter _ _ _ h.1, h.2⟩

theorem Ram.zeroStaging_wf (r : Ram) (n a b : Nat) (h : r.wf = true) : (r.zeroStaging n a b).wf = true := by
  rw [Ram.wf_iff] at h ⊢
  exact ⟨h.1, tblWf_filter _ _ _ h.2⟩

/-! ## Reads after writes -/

theorem Ram.dramByte_setDramByte (r : Ram) (a x : Nat) (b : Byte) :
    (r.setDramByte a b).dramByte x = if x = a then b else r.dramByte x := tblGet_tblPut _ _ _ _ _

theorem Ram.dramByte_setDramBytes (bs : List Byte) (r : Ram) (a x : Nat) :
    (r.setDramBytes a bs).dramByte x = if a ≤ x ∧ x < a + bs.length then bs.getD (x - a) 0 else r.dramByte x := by
  induction bs generalizing r a with
  | nil => rw [if_neg (by simp only [List.length_nil]; omega)]; rfl
  | cons b t ih =>
    rw [Ram.setDramBytes, ih, Ram.dramByte_setDramByte]
    rcases Nat.lt_trichotomy x a with h | h | h
    · simp [show ¬ a + 1 ≤ x by omega, show ¬ a ≤ x by omega, show x ≠ a by omega]
    · subst h; simp <;> omega
    · obtain ⟨k, rfl⟩ : ∃ k, x = a + 1 + k := ⟨x - (a + 1), by omega⟩
      have e : a + 1 + k - a = k + 1 := by omega
      simp [e, show a + 1 + k ≠ a by omega, show a ≤ a + 1 + k by omega]
      by_cases hk : k < t.length
      · simp [show a + 1 + k < a + (t.length + 1) by omega, hk]
      · simp [show ¬ a + 1 + k < a + (t.length + 1) by omega, hk]

theorem Ram.stageByte_setStageByte (r : Ram) (n o m x : Nat) (b : Byte) :
    (r.setStageByte n o b).stageByte m x = if m * stagingBytes + x = n * stagingBytes + o then b else r.stageByte m x :=
  tblGet_tblPut _ _ _ _ _

/-- A write to staging leaves DRAM alone, and one to DRAM staging. -/
theorem Ram.dramByte_setStageBytes (bs : List Byte) (r : Ram) (n o x : Nat) : (r.setStageBytes n o bs).dramByte x = r.dramByte x := by
  induction bs generalizing r o with
  | nil => rfl
  | cons b t ih => rw [Ram.setStageBytes, ih]; rfl

theorem Ram.stageByte_setDramBytes (bs : List Byte) (r : Ram) (a n o : Nat) : (r.setDramBytes a bs).stageByte n o = r.stageByte n o := by
  induction bs generalizing r a with
  | nil => rfl
  | cons b t ih => rw [Ram.setDramBytes, ih]; rfl

theorem Ram.dramByte_zeroDram (r : Ram) (a b x : Nat) :
    (r.zeroDram a b).dramByte x = if a ≤ x ∧ x < b then 0 else r.dramByte x := by
  unfold Ram.zeroDram Ram.dramByte
  rw [tblGet_filter (fun _ => (0 : Byte)) r.dram (fun i => !(decide (a ≤ i) && decide (i < b)))]
  by_cases h : a ≤ x ∧ x < b
  · simp [h]
  · rw [if_neg h]
    by_cases ha : a ≤ x
    · simp [ha, show ¬ x < b from fun hb => h ⟨ha, hb⟩]
    · simp [ha]

end Sys2Proof.Machine
end

