-- ==== Sys2Proof/WellFormed.lean ====
section
/-!
DEFINITION. Well-formed commands: what the types of the operands leave open. `exec` is total and gives an
ill-formed command an effect too (most often none); these checks say which operands the rows' rules
give a meaning.
-/

namespace Sys2Proof

/-- Bytes of an access: some, and within its space. -/
def Access.ok (a : Access) : Bool :=
  decide (1 ≤ a.data.length) &&
    decide (a.addr + a.data.length ≤ (match a.bar with | .bar0 => 0x1000_0000 | .bar2 => 0x10_0000))

/-- A run of bytes at an offset within a window of `size` bytes. -/
def windowOk (off len size : Nat) : Bool := decide (1 ≤ len) && decide (off + len ≤ size)

/-- A read or write of a window: a read says how many bytes. -/
def accessOk (off : Nat) (write : Option (List Byte)) (n size : Nat) : Bool :=
  match write with
  | some bs => windowOk off bs.length size
  | none => windowOk off n size

/-- Verdicts on eight lanes. -/
def TrainObs.ok (o : TrainObs) : Bool :=
  decide (o.inverted < 256) && decide (o.adapted < 256) && decide (o.fillerOk < 256) && decide (o.deskewed < 256)

/-- A write at a hub has some bytes, within one half-granule. -/
def DramReq.ok (r : DramReq) : Bool :=
  match r.write with
  | some bs => decide (1 ≤ bs.length) && decide (r.addr % 64 + bs.length ≤ 64)
  | none => true

/-- Operands to which the row's rule gives a meaning. -/
def Instr.wf : Instr → Bool
  | .registerWrite a => a.ok
  | .scheduleWindowWrite _ _ off data => windowOk off.toNat data.length 0x10_0000
  | .routingTableWrite _ _ off data => windowOk off.toNat data.length 0x2_0000
  | .mgmtRouteWrite _ off data => windowOk off.toNat data.length 0x8000
  | .descriptorWindowWrite _ _ off data => windowOk off.toNat data.length 0x2_0000
  | .groupEntryWrite _ _ off data => windowOk off.toNat data.length 0x800
  | .tensorTableWrite _ _ off data => windowOk off.toNat data.length 0x8_0000
  | .programImageWrite _ _ off data => windowOk off.toNat data.length 0x8_0000
  | .debugWindowAccess _ _ off w n => accessOk off.toNat w n 0x10_0000
  | .domainApertureAccess _ off w n => accessOk off.toNat w n 0x40_0000
  | .stagingApertureAccess _ off w n => accessOk off.toNat w n 0x40_0000
  | .trainingFrame _ words obs => decide (words.length = 8) && obs.ok
  | .blockReceive _ lanes => decide (lanes.length = 8)
  | .capsRecord _ sentNs rxNs => decide (sentNs ≤ rxNs)
  | .dramAccess rq => rq.ok
  | .treeNodeComplete _ _ chunk level node => decide (chunk < 2 ^ 20) && decide (level ≤ 6) && decide (node < 32)
  | .lateLimitExpiry _ _ chunk => decide (chunk < 2 ^ 20)
  | .marginDone _ _ errors => decide (errors < 2 ^ 32)
  | .bufferRequest _ size => decide (1 ≤ size) && decide (size ≤ 1048576)
  | .bufferRelease _ _ _ buf => decide (buf < 1024)
  | .startUpStep _ bad => bad.all (fun k => decide (k < 32))
  | .extest cells => decide (cells.length = 87)
  | .samplePreload cells => decide (cells.length = 87)
  | .i3cPrivateWrite data => decide (data.length ≤ 1056)
  | .channelInterfaceLost _ chan => decide (chan < 16)
  | _ => true

end Sys2Proof
end

