-- ==== Sys2Proof/Tests/Slice0.lean ====
section
/-!
SUPPORT. The model's own tests: an ill-formed command for each check of WellFormed, one-step runs whose
expected results are worked out from the spec's tables, and for each statement with hypotheses states and
operands that meet them.
-/

open Sys2Proof Sys2Proof.Machine

namespace Sys2Proof.Tests

set_option maxRecDepth 20000

/-! ## Well-formed commands -/

theorem test_wf_accepts :
    Instr.wf (.registerWrite { addr := 0x10, data := [1, 2, 3, 4] }) = true ∧
    Instr.wf (.scheduleWindowWrite 0 5 0 [1]) = true ∧ Instr.wf (.i3cPrivateWrite []) = true ∧
    Instr.wf (.dramAccess { addr := 60, write := some [1, 2, 3, 4] }) = true ∧ Instr.wf .slotBoundary = true := by decide

theorem test_wf_refuses_accesses :
    Instr.wf (.registerWrite { addr := 0x10, data := [] }) = false ∧
    Instr.wf (.registerWrite { bar := .bar2, addr := 0xF_FFFF, data := [1, 2] }) = false ∧
    Instr.wf (.scheduleWindowWrite 0 5 0xF_FFFF [1, 2]) = false ∧ Instr.wf (.routingTableWrite 0 5 0x1_FFFF [1, 2]) = false ∧
    Instr.wf (.mgmtRouteWrite 0 0x7FFF [1, 2]) = false ∧ Instr.wf (.descriptorWindowWrite 0 5 0x1_FFFF [1, 2]) = false ∧
    Instr.wf (.groupEntryWrite 0 5 0x7FF [1, 2]) = false ∧ Instr.wf (.tensorTableWrite 0 5 0x7_FFFF [1, 2]) = false ∧
    Instr.wf (.programImageWrite 0 5 0x7_FFFF [1, 2]) = false ∧ Instr.wf (.debugWindowAccess 0 5 0xF_FFFF none 2) = false ∧
    Instr.wf (.domainApertureAccess 0 0x3F_FFFF (some [1, 2]) 0) = false ∧
    Instr.wf (.stagingApertureAccess 0 0x3F_FFFF none 2) = false := by decide

theorem test_wf_refuses_protocol :
    Instr.wf (.trainingFrame 0 [] {}) = false ∧
    Instr.wf (.trainingFrame 0 (List.replicate 8 0) { inverted := 256 }) = false ∧
    Instr.wf (.blockReceive 0 []) = false ∧ Instr.wf (.capsRecord 0 2 1) = false ∧
    Instr.wf (.dramAccess { addr := 63, write := some [1, 2] }) = false ∧
    Instr.wf (.treeNodeComplete 0 0 (2 ^ 20) 0 0) = false ∧ Instr.wf (.treeNodeComplete 0 0 0 7 0) = false ∧
    Instr.wf (.treeNodeComplete 0 0 0 0 32) = false ∧ Instr.wf (.lateLimitExpiry 0 0 (2 ^ 20)) = false ∧
    Instr.wf (.marginDone 0 0 (2 ^ 32)) = false ∧ Instr.wf (.bufferRequest 0 0) = false ∧
    Instr.wf (.bufferRequest 0 1048577) = false ∧ Instr.wf (.bufferRelease 0 0 0 1024) = false ∧
    Instr.wf (.startUpStep true [32]) = false ∧ Instr.wf (.extest []) = false ∧ Instr.wf (.samplePreload []) = false ∧
    Instr.wf (.i3cPrivateWrite (List.replicate 1057 0)) = false ∧ Instr.wf (.channelInterfaceLost 0 16) = false := by decide

/-! ## States -/

/-- The state of the model right after reset with some registers written. -/
def regs (l : List (FRef × Nat)) (c : Ctl) : Ctl := l.foldl (fun c e => c.wr e.1 e.2) c

def st (c : Ctl) : State := State.reset.withC c

/-- The state a command leaves. -/
def after (i : Instr) (s : State) : State :=
  match exec i s with
  | .next t => t
  | _ => s

/-- An instruction word: an opcode and operand fields by their lowest bit. -/
def wd (op : Nat) (l : List (Nat × Nat)) : Nat := l.foldl (fun a e => a + e.2 <<< e.1) op

/-- Slice 5 is ON and its stream `t` runs, with the instruction `w` at the start of its region and
some registers set; its binding gives it one group of 256 threads, and its program area and its domain's scratch are one MiB each. -/
def engC (t w : Nat) (rs : List (Nat × W64)) : Ctl :=
  let c := regs [(SLC_STATE.LIFECYCLE 5, 2), (SLC_ENG_PC.STATE 5 t, 1), (MEM_STAGE.PROG_MIB 5, 1),
    (MEM_DOM_PROG.SCRATCH_MIB 0, 1)] State.reset.c
  let c := (c.wrWord (imageAddr 5 0 + regionBase t) w).wrWord (bindingAddr 5 0 0) (2 ^ 32)
  rs.foldl (fun c e => c.setReg 5 t e.1 e.2) (c.modStream 5 t (fun x => { x with run := some ⟨0, 0, 0, false⟩, start := 3 }))

def engS (t w : Nat) (rs : List (Nat × W64) := []) : State := st (engC t w rs)

/-- `Issues` as a test. -/
def issuesB (c : Ctl) (n t op w : Nat) : Bool :=
  c.mayIssue n t && decide (c.nextWord n t = w) && decide (w % 256 = op) &&
    (match operands t op with | some fs => !strayBits w fs | none => false) &&
    (!nbit w 14 || (c.stream n t).woken || c.semReady n t (nfld w 8 6) 1)

theorem issues_of_test {c : Ctl} {n t op w : Nat} (h : issuesB c n t op w = true) : Issues c n t op w := by
  unfold issuesB at h
  simp only [Bool.and_eq_true, decide_eq_true_eq, Bool.or_eq_true, Bool.not_eq_true'] at h
  obtain ⟨⟨⟨⟨h1, h2⟩, h3⟩, h4⟩, h5⟩ := h
  refine ⟨h1, h2, h3, ?_, ?_⟩
  · split at h4
    · exact ⟨_, by assumption, by simpa using h4⟩
    · cases h4
  · intro a b
    rcases h5 with (h | h) | h
    · rw [a] at h; cases h
    · rw [b] at h; cases h
    · exact h

/-! ## Engine streams: an issuing instruction of every opcode, and results by Tables SLC-2 to SLC-7 -/

/-- Every pair of stream and opcode of Tables SLC-2 to SLC-7. -/
def opcodes : List (Nat × List Nat) :=
  [(0, [0x01, 0x02, 0x03, 0x04, 0x05, 0x06, 0x07, 0x08, 0x09, 0x0A, 0x50, 0x51, 0x52, 0x53, 0x54]),
   (1, [0x60, 0x61, 0x62, 0x63, 0x64, 0x65, 0x66, 0x67, 0x68, 0x69, 0x6A, 0x6B, 0x6C, 0x6D, 0x6E, 0x70, 0x71, 0x72, 0x73,
        0x74, 0x75, 0x76, 0x77, 0x78, 0x79, 0x7A, 0x7B, 0x7C, 0x7D, 0x7E]),
   (2, [0x01, 0x10, 0x11, 0x12, 0x13, 0x14, 0x15, 0x16, 0x17, 0x18, 0x19, 0x1A, 0x1B, 0x1C, 0x1D, 0x20, 0x21, 0x22, 0x23,
        0x24, 0x25, 0x26, 0x27, 0x28, 0x29, 0x2A, 0x2B, 0x2C, 0x2D, 0x2E, 0x2F, 0x30, 0x31, 0x32, 0x33, 0x34, 0x35, 0x36,
        0x37, 0x38, 0x39, 0x3A, 0x3B, 0x3C, 0x3D, 0x3E, 0x3F, 0x40, 0x41, 0x42, 0x43, 0x44, 0x45, 0x46, 0x47, 0x48, 0x49,
        0x4A, 0x4B, 0x4C]),
   (3, [0x01, 0x80, 0x81, 0x82, 0x83, 0x84, 0x85, 0x86])]

theorem witness_issues : ∀ p ∈ opcodes, ∀ op ∈ p.2, Issues (engS p.1 op).c 5 p.1 op op := by
  have h : opcodes.all (fun p => p.2.all (fun op => issuesB (engS p.1 op).c 5 p.1 op op)) = true := by decide
  intro p hp op ho
  exact issues_of_test (List.all_eq_true.mp (List.all_eq_true.mp h p hp) op ho)

/-- A word with WEN set whose semaphore holds one. -/
theorem witness_issues_wen : Issues (st ((engC 2 (wd 0x10 [(8, 7), (14, 1)]) []).setSem 5 7 1)).c 5 2 0x10 (wd 0x10 [(8, 7), (14, 1)]) :=
  issues_of_test (by decide)

/-- The R format at its edges: ADD wraps, a division by zero, the arithmetic shift, x0. -/
theorem test_scalar_r :
    (after (.addC 5) (engS 2 (wd 0x10 [(22, 3), (27, 1), (32, 2)]) [(1, -1), (2, 2)])).c.x 5 3 = 1 ∧
    (after (.subC 5) (engS 2 (wd 0x11 [(22, 3), (27, 1), (32, 2)]) [(1, 1), (2, 2)])).c.x 5 3 = -1 ∧
    (after (.mulhu 5) (engS 2 (wd 0x19 [(22, 3), (27, 1), (32, 2)]) [(1, -1), (2, 4)])).c.x 5 3 = 3 ∧
    (after (.divu 5) (engS 2 (wd 0x1A [(22, 3), (27, 1), (32, 2)]) [(1, 7)])).c.x 5 3 = -1 ∧
    (after (.remu 5) (engS 2 (wd 0x1B [(22, 3), (27, 1), (32, 2)]) [(1, 7)])).c.x 5 3 = 7 ∧
    (after (.sar 5) (engS 2 (wd 0x17 [(22, 3), (27, 1), (32, 2)]) [(1, -8), (2, 65)])).c.x 5 3 = -4 ∧
    (after (.slt 5) (engS 2 (wd 0x1C [(22, 3), (27, 1), (32, 2)]) [(1, -1), (2, 1)])).c.x 5 3 = 1 ∧
    (after (.sltu 5) (engS 2 (wd 0x1D [(22, 3), (27, 1), (32, 2)]) [(1, -1), (2, 1)])).c.x 5 3 = 0 ∧
    (after (.addC 5) (engS 2 (wd 0x10 [(22, 0), (27, 1), (32, 2)]) [(1, 5), (2, 2)])).c.x 5 0 = 0 := by decide

/-- The I format: the immediate is sign-extended, LUI keeps the lower half. -/
theorem test_scalar_i :
    (after (.addi 5) (engS 2 (wd 0x20 [(22, 3), (27, 1), (32, 0xFFFF_FFFF)]) [(1, 5)])).c.x 5 3 = 4 ∧
    (after (.li 5) (engS 2 (wd 0x26 [(22, 3), (32, 0x8000_0000)]))).c.x 5 3 = 0xFFFF_FFFF_8000_0000 ∧
    (after (.lui 5) (engS 2 (wd 0x27 [(22, 3), (32, 0x1234)]) [(3, 0x9_0000_0005)])).c.x 5 3 = 0x1234_0000_0005 ∧
    (after (.shri 5) (engS 2 (wd 0x25 [(22, 3), (27, 1), (32, 68)]) [(1, 0x100)])).c.x 5 3 = 0x10 := by decide

/-- FP32 results: 1.0 + 2.0, 3.0 * 2.0, 1.0 / 0, the square root of 4.0, FMA, I2F and F2I. -/
theorem test_scalar_fp :
    (after (.fadd 5) (engS 2 (wd 0x40 [(22, 3), (27, 1), (32, 2)]) [(1, 0x3F80_0000), (2, 0x4000_0000)])).c.x 5 3 = 0x4040_0000 ∧
    (after (.fmul 5) (engS 2 (wd 0x42 [(22, 3), (27, 1), (32, 2)]) [(1, 0x4040_0000), (2, 0x4000_0000)])).c.x 5 3 = 0x40C0_0000 ∧
    (after (.fdiv 5) (engS 2 (wd 0x43 [(22, 3), (27, 1), (32, 2)]) [(1, 0x3F80_0000)])).c.x 5 3 = 0x7F80_0000 ∧
    (after (.fsqrt 5) (engS 2 (wd 0x44 [(22, 3), (27, 1)]) [(1, 0x4080_0000)])).c.x 5 3 = 0x4000_0000 ∧
    (after (.i2f 5) (engS 2 (wd 0x48 [(22, 3), (27, 1)]) [(1, -2)])).c.x 5 3 = 0xC000_0000 ∧
    (after (.f2i 5) (engS 2 (wd 0x49 [(22, 3), (27, 1)]) [(1, 0xC020_0000)])).c.x 5 3 = -2 ∧
    (after (.flt 5) (engS 2 (wd 0x4B [(22, 3), (27, 1), (32, 2)]) [(1, 0xBF80_0000), (2, 0)])).c.x 5 3 = 1 := by decide

/-- A load and a store at the edges of the working memory and the last aligned address. -/
theorem test_scalar_memory :
    let s := engS 2 (wd 0x2D [(22, 3), (27, 1), (32, 2)]) [(1, 0x1_0000), (3, 0xABCD)]
    (after (.st16 5) s).c.dmemByte 5 0x1_0002 = 0xCD ∧ (after (.st16 5) s).c.dmemByte 5 0x1_0003 = 0xAB ∧
    (after (.st16 5) s).c.dmemByte 5 0x1_0004 = 0 ∧
    (after (.ld8 5) (st ((engC 2 (wd 0x28 [(22, 3), (27, 1)]) [(1, 0x3_FFFF)]).setDmem 5 0x3_FFFF [0xFE]))).c.x 5 3 = 0xFE := by
  decide

/-- The hypotheses of the memory statements at the first and last addresses. -/
theorem witness_scalar_memory :
    memAddr (engS 2 (wd 0x2B [(27, 1)]) [(1, 0x3_FFF8)]).c 5 (wd 0x2B [(27, 1)]) + 8 = 0x4_0000 ∧
    memAddr (engS 2 (wd 0x2F [(27, 1)]) [(1, 0x1_0000)]).c 5 (wd 0x2F [(27, 1)]) = 0x1_0000 ∧
    nbit (memAddr (engS 2 (wd 0x30 [(27, 1)]) [(1, 0x8090_0000_0000_0000)]).c 5 (wd 0x30 [(27, 1)])) 63 = true := by decide

/-- LDF and STF at the start of the domain's scratch window succeed. -/
theorem witness_scalar_window :
    (((engS 2 (wd 0x30 [(27, 1)]) [(1, 0x8090_0000_0000_0000)]).dev.onCtl (fun c => c.issued 5 2 (wd 0x30 [(27, 1)]) false)).engRead 5
      0x8090_0000_0000_0000 8).1 = some (List.replicate 8 0) ∧
    (((engS 2 (wd 0x31 [(27, 1)]) [(1, 0x8090_0000_0000_0000)]).dev.onCtl (fun c => c.issued 5 2 (wd 0x31 [(27, 1)]) false)).engWrite 5
      0x8090_0000_0000_0000 (toBytes 8 7)).1 = true := by decide

/-- Branches and jumps: taken backwards to 0, not taken, the last instruction of the region. -/
theorem test_scalar_control :
    (after (.beq 5) (engS 2 (wd 0x32 [(22, 1), (27, 2), (32, 8191)]) [(1, 4), (2, 4)])).c.pcOf 5 2 = 8191 ∧
    (after (.beq 5) (engS 2 (wd 0x32 [(22, 1), (27, 2), (32, 7)]) [(1, 4), (2, 5)])).c.pcOf 5 2 = 1 ∧
    (after (.jal 5) (engS 2 (wd 0x38 [(22, 3), (32, 9)]))).c.pcOf 5 2 = 9 ∧
    (after (.jal 5) (engS 2 (wd 0x38 [(22, 3), (32, 9)]))).c.x 5 3 = 1 ∧
    (after (.jalr 5) (engS 2 (wd 0x39 [(22, 3), (27, 1), (32, 0xFFFF_FFFF)]) [(1, 8192)])).c.pcOf 5 2 = 8191 := by decide

/-- RDSYS, RDSEM, MWAITR of a slot that has come and of one that has not, and POST. -/
theorem test_scalar_system :
    (after (.rdsys 5) (engS 2 (wd 0x3C [(22, 3), (32, 2)]))).c.x 5 3 = 5 ∧
    (after (.rdsem 5) (st ((engC 2 (wd 0x3F [(22, 3), (32, 63)]) []).setSem 5 63 9))).c.x 5 3 = 9 ∧
    (after (.mwaitr 5) (engS 2 (wd 0x3D [(27, 1)]) [(1, 0)])).c.engState 5 2 = Eng.RUNNING ∧
    (after (.mwaitr 5) (engS 2 (wd 0x3D [(27, 1)]) [(1, 1)])).c.engState 5 2 = Eng.WAIT_MER ∧
    ((after (.post 5) (engS 2 (wd 0x3A [(22, 3), (27, 1), (32, 2)]) [(1, 40), (2, 6), (3, 1)])).c.stream 5 1).queue =
      [⟨40, 0, 6, false⟩] := by decide

/-- The semaphores and waits of Table SLC-2, LAR's two halves, AADD, LOOP and END. -/
theorem test_common :
    (after (.swait 5 3) (st ((engC 3 (wd 0x03 [(22, 4), (28, 3)]) []).setSem 5 4 3))).c.sem 5 4 = 0 ∧
    (after (.swait 5 3) (st ((engC 3 (wd 0x03 [(22, 4), (28, 3)]) []).setSem 5 4 2))).c.engState 5 3 = Eng.WAIT_SEM ∧
    (after (.sadd 5 3) (engS 3 (wd 0x04 [(22, 4), (28, 0xFFFF_FFFF)]))).c.sem 5 4 = 0xFFFF_FFFF ∧
    (after (.lar 5 3) (engS 3 (wd 0x08 [(22, 4), (26, 1), (27, 0xFFFF_FFFF)]) [(4, 0x1_0000_0005)])).c.reg 5 3 4 = 0xFFFF_FFFF_0000_0005 ∧
    (after (.aadd 5 3) (engS 3 (wd 0x09 [(22, 4), (32, 0xFFFF_FFFF)]) [(4, 0)])).c.reg 5 3 4 = -1 ∧
    ((after (.loop 5 3) (engS 3 (wd 0x0A [(22, 1023)]))).c.stream 5 3).loops = [] ∧
    ((after (.loop 5 3) (engS 3 (wd 0x0A [(22, 2), (32, 3)]))).c.stream 5 3).loops = [⟨1, 2, 2⟩] ∧
    (after (.mwait 5 3) (engS 3 (wd 0x05 [(22, 0)]))).c.engState 5 3 = Eng.WAIT_MER ∧
    (after (.endC 5 3) (engS 3 0x02)).c.mayIssue 5 3 = false := by decide

/-- The branches of the statements on the common opcodes. -/
theorem witness_common :
    (((engC 3 (wd 0x03 [(22, 4), (28, 3)]) []).setSem 5 4 3).issued 5 3 (wd 0x03 [(22, 4), (28, 3)]) false).semReady 5 3 4 3 = true ∧
    (((engC 3 (wd 0x03 [(22, 4), (28, 3)]) []).setSem 5 4 2).issued 5 3 (wd 0x03 [(22, 4), (28, 3)]) false).semReady 5 3 4 3 = false ∧
    (engC 3 (wd 0x04 [(22, 4), (28, 0xFFFF_FFFF)]) []).semAfter 5 3 (wd 0x04 [(22, 4), (28, 0xFFFF_FFFF)]) 4 + 0xFFFF_FFFF < 2 ^ 32 ∧
    (((engC 3 0x07 []).modStream 5 3 (fun x => { x with sticky := true })).stream 5 3).sticky = true ∧
    (((engC 3 0x06 []).modStream 5 3 (fun x => { x with flight := [{}] })).stream 5 3).flight ≠ [] ∧
    (((engC 3 0x05 []).modStream 5 3 (fun x => { x with start := 0 })).stream 5 3).start ≤ (engC 3 0x05 []).now ∧
    (engC 3 0x0A []).pcOf 5 3 + 1023 < regionLen 3 := by decide

/-- An undefined opcode, and a stray bit, of a stream that may issue. -/
theorem witness_program_fault :
    (engC 3 0xFF []).mayIssue 5 3 = true ∧ operands 3 ((engC 3 0xFF []).nextWord 5 3 % 256) = none ∧
    strayBits ((engC 3 (wd 0x01 [(63, 1)]) []).nextWord 5 3) [] = true ∧
    (after (.nop 5 3) (engS 3 0xFF)).c.engState 5 3 = Eng.FENCED := by decide

/-- A start command waiting in a full-length queue, an instruction and an END to complete, a wait of each
kind that may pass, a watchdog that has expired, a stopped slice. -/
theorem witness_stream_life :
    let idle := ((engC 3 0 []).wr (SLC_ENG_PC.STATE 5 3) 0).modStream 5 3 (fun x => { x with run := none, queue := List.replicate 32 { arg := 4 } })
    let one := (engC 3 0 []).modStream 5 3 (fun x => { x with flight := [{ sen := some 2 }, { isEnd := true }] })
    let end_ := (engC 3 0 []).modStream 5 3 (fun x => { x with flight := [{ isEnd := true }] })
    let sem := ((engC 3 0 []).wr (SLC_ENG_PC.STATE 5 3) Eng.WAIT_SEM).modStream 5 3 (fun x => { x with wait := some (.sem 2 0) })
    let mer := ((engC 3 0 []).wr (SLC_ENG_PC.STATE 5 3) Eng.WAIT_MER).modStream 5 3 (fun x => { x with wait := some (.mer 0) })
    let late : Ctl := { engC 3 0 [] with mer := { slots := 65537 } }
    let halt := regs ((SLC_STOP_AT.STOPPED 5, 1) :: (List.range 4).map (fun k => (SLC_ENG_PC.STATE 5 k, Eng.HALTED))) (engC 3 0 [])
    (idle.sliceOn 5 = true ∧ idle.engState 5 3 = Eng.IDLE ∧ idle.stopped 5 = false ∧ idle.bit (SLC_STOP_AT.ARM 5) = false ∧
      (idle.stream 5 3).queue.length = 32 ∧ (after (.streamStart 5 3) (st idle)).c.reg 5 3 1 = 4) ∧
    ((one.stream 5 3).stopRun = false ∧ one.sem 5 2 + 1 < 2 ^ 32 ∧ (after (.instructionComplete 5 3) (st one)).c.sem 5 2 = 1) ∧
    (after (.instructionComplete 5 3) (st end_)).c.engState 5 3 = Eng.IDLE ∧
    (StreamWait.claim (.sem 2 0) = some (2, 0) ∧ sem.semReady 5 3 2 0 = true ∧ (after (.semaphoreWaitPass 5 3) (st sem)).c.engState 5 3 = Eng.RUNNING) ∧
    (mer.stopped 5 = false ∧ 0 ≤ mer.now ∧ (after (.meridianWaitPass 5 3) (st mer)).c.engState 5 3 = Eng.RUNNING) ∧
    ((late.binding 5 0 0).wdog < late.slots - (late.stream 5 3).since ∧ (after (.programWatchdog 5 3) (st late)).c.engState 5 3 = Eng.FENCED) ∧
    (halt.stopped 5 = true ∧ (List.range 4).all (fun k => halt.engState 5 k = Eng.HALTED) ∧ (after (.sliceHalt 5) (st halt)).c.bit (SLC_STOP_AT.HALTED 5) = true) := by
  decide

/-! ### The array, vector and stream engines -/

/-- What the array statements ask: CZERO's word, tiles of one format for MMA, rows of the program area. -/
theorem witness_array :
    tileFmts ((engC 0 0x53 []).tile 5 0 0) ((engC 0 0x53 []).tile 5 0 0) = some 0 ∧
    (let w := wd 0x50 [(26, 4), (31, 1), (35, 2)]
     ((engS 0 w).issuedDev 5 0 w).tileRows 5 0 0 (16 * (fmtOf 4).bits) 1).isSome = true ∧
    ((after (.czero 5) (st (((engC 0 (wd 0x52 [(22, 1), (23, 3)]) []).setAcc 5 1 3 [7])))).c.engOf 5).accs = [] := by
  decide

theorem test_vector :
    let two (op : Nat) : Ctl := ((engC 1 (wd op [(22, 3), (27, 1), (32, 2)]) []).setVreg 5 1 (List.replicate 256 0x3F80_0000)).setVreg 5 2 (List.replicate 256 0x4000_0000)
    ((after (.vadd 5) (st (two 0x64))).c.vreg 5 3).head? = some 0x4040_0000 ∧
    ((after (.vcmplt 5) (st (two 0x70))).c.pred 5 3).head? = some true ∧
    ((after (.vtid 5) (engS 1 (wd 0x73 [(22, 3)]))).c.vreg 5 3).getLast? = some 255 ∧
    ((after (.vbcast 5) (engS 1 (wd 0x62 [(22, 3), (27, 6)]) [(6, 0x1_0000_0009)])).c.vreg 5 3).head? = some 9 := by
  decide

/-- What the statements of vector memory and of the stream engine ask: accesses that succeed. -/
theorem witness_engine_memory :
    (let w := wd 0x7E [(22, 1), (26, 2)]
     (((engS 1 w [(1, 9)]).issuedDev 5 1 w).engWrite 5 0 (toBytes 4 9)).1 = true) ∧
    (let w := wd 0x60 [(22, 1)]
     vmFault w false = false ∧ (((engS 1 w).issuedDev 5 1 w).gather 5 0 (fmtOf 0).bits (List.zip (List.range 2) [true, true])).1.isSome = true ∧
      (((engS 1 w).issuedDev 5 1 w).scaleBytes 5 w 2).1.isSome = true) ∧
    (let w := wd 0x80 [(26, 1), (30, 2)]
     (((engS 3 w).issuedDev 5 3 w).copyRows 5 0 0 64 0 32 1).1 = true) ∧
    (let w := wd 0x83 [(26, 1), (30, 2)]
     (((engS 3 w).issuedDev 5 3 w).engRead 5 0 8).1 = some (List.replicate 8 0)) ∧
    (let w := wd 0x86 []
     (((engS 3 w).issuedDev 5 3 w).tree 5 w).1 = true) := by
  decide

theorem test_stream_engine :
    (let t := after (.fill 5) (engS 3 (wd 0x82 [(22, 1), (30, 2), (32, 0x0403_0200)]) [(1, 64), (2, 6)])
     t.dev.ram.stageBytes 5 64 8 = [0, 2, 3, 4, 0, 2, 0, 0]) ∧
    (let t := after (.ckget 5) (engS 3 (wd 0x84 [(22, 6), (25, 1)]) [(1, 64)])
     t.c.engState 5 3 = Eng.RUNNING) := by
  decide

/-! ## Pools, DRAM, windows -/

/-- The last event in flight. -/
def lastSrc (s : State) : Option Nat := (s.c.flt.inflight.getLast?).map (fun e => e.src)

/-- Buffers: the largest fits of classes, a holder and another owner, a waiter and a buffer past their
limits. -/
theorem witness_pools :
    let b : HeldBuf := { pool := 5, cls := 0, idx := 0, owner := 20 }
    let c : Ctl := { State.reset.c with pools := { held := [b] } }
    let w : Ctl := { State.reset.c with pools := { waiters := [(5, [{ owner := 20, size := 1 }])] }, mer := { slots := 1000000 } }
    let old : Ctl := { State.reset.c with pools := { held := [b] }, mer := { slots := 2 ^ 40 } }
    (ownerOk 20 = true ∧ ownerOk 258 = true ∧ ownerOk 23 = false ∧ fitClass 5 1 = some 0 ∧ fitClass 5 131072 = some 3 ∧ fitClass 64 8192 = some 0 ∧
      State.reset.c.rd (poolFree 5 0) ≠ 0 ∧ (after (.bufferRequest 20 1) State.reset).c.pools.held.length = 1) ∧
    (bufExists 5 0 0 = true ∧ c.waitersOf 5 = [] ∧ c.rd (poolFree 5 0) < 65535 ∧
      (after (.bufferRelease 20 5 0 0) (st c)).c.pools.held = [] ∧ lastSrc (after (.bufferRelease 21 5 0 0) (st c)) = some Src.POOL_OWNER) ∧
    ((w.waitersOf 5).find? (fun x => x.owner = 20 && w.elapsed x.since (w.rd POOL_CFG.WAIT_LIMIT)) = some { owner := 20, size := 1 } ∧
      (after (.poolStarved 20) (st w)).c.waitersOf 5 = []) ∧
    (old.elapsed 0 (old.rd POOL_CFG.AGE_LIMIT + 1) = true ∧ lastSrc (after (.poolLeak 20) (st old)) = some Src.POOL_LEAK) := by
  decide

/-- DRAM: the first and the last half-granule, a refresh window, the scrubber's last granule, a failing stack
and a relocation that has ended. -/
theorem witness_dram :
    let c := State.reset.c
    let r : Ctl := { c with mem := { refresh := some (0, 130) } }
    let f := c.setStackState 3 2
    (c.refreshing (dramSize - 64) = false ∧ c.daDropped (dramSize - 64) = false ∧ dramSize - 64 < dramSize ∧
      (after (.dramAccess ⟨dramSize - 64, some [7], .good⟩) State.reset).dev.ram.dramByte (dramSize - 64) = 7) ∧
    (after (.dramAccess ⟨64, none, .good⟩) State.reset).c.sent = [.hub 64 (List.replicate 64 0) false] ∧
    (r.refreshing 0 = true ∧ (after (.dramAccess ⟨0, none, .good⟩) (st r)).c.mem.held.length = 1) ∧
    (dramSize ≤ (dramSize / 256 - 1) * 256 + 256 ∧
      (after (.patrolScrub 0 .good) (st { c with mem := { scrubPos := dramSize / 256 - 1 } })).c.mem.scrubPos = 0) ∧
    (c.stackState 3 ≠ 1 ∧ lastSrc (after (.channelInterfaceLost 3 15) State.reset) = some (Src.STACK_FAIL 3)) ∧
    (f.stackState 3 = 2 ∧ rangesSize f.mem.used ≤ f.rd MEM_SPARES.RELOC_FRAMES ∧
      (after (.relocationDone 3) (st f)).c.stackState 3 = 3) := by
  decide

/-- A domain 2 that exists, with slice 5 in it, bank A live, a shard of one GiB and a MiB of scratch. -/
def domC : Ctl :=
  regs [(DOM_STATE.STATE 2, 2), (SLC_DOMAIN.ASSIGNED 5, 1), (SLC_DOMAIN.DOMAIN 5, 2), (MER_PHASE.VALID_A 2, 1),
    (MEM_DOM_SHARD.SIZE_GIB 2, 1), (MEM_DOM_PROG.SCRATCH_MIB 2, 1), (MER_PHASE.VALID_B 2, 1), (COL_SLICE.SCHED_LIMIT 5, 0)] State.reset.c

/-- Bank windows: the live bank and the other, no domain, a program region in use, the words behind a routing
bank. -/
theorem witness_bank_windows :
    let use := domC.modStream 5 0 (fun x => { x with queue := [{ bank := 1 }] })
    (oneAccess (BitVec.toNat (0x8_0000#20)) 8 ∧ State.reset.c.sliceDom 5 = none ∧ domC.sliceDom 5 = some 2 ∧ domC.created 2 = true ∧
      domC.bankLocked 2 0 = true ∧ domC.bankLocked 2 1 = false) ∧
    lastSrc (after (.scheduleWindowWrite 0 5 0 [1, 2, 3, 4]) (st domC)) = some Src.REG_REFUSED ∧
    ((after (.scheduleWindowWrite 0 5 0x8_0000 [1, 2, 3, 4]) (st domC)).c.rdWord 0x0158_0000 = 0x0403_0201 ∧
      (after (.scheduleWindowWrite 0 5 0x8_0000 [1, 2, 3, 4]) (st domC)).c.bankValid 2 1 = false) ∧
    ((BitVec.toNat (0x8178#17)) % 0x1_0000 < 0x8180 ∧ 0x8180 ≤ (BitVec.toNat (0x1_8180#17)) % 0x1_0000) ∧
    (domC.imageInUse 5 1 = false ∧ use.imageInUse 5 1 = true ∧ (BitVec.toNat (0x6_BFF8#19)) % 0x4_0000 < 0x2_C000) := by
  decide

/-- Table windows: a scheduled descriptor, an open one, the last word of one; group entries, the tensor
table under each state of the store; the three writes of a management route. -/
theorem witness_table_windows :
    let sch := domC.wr (COL_SLICE.SCHED_LIMIT 5) 1
    let opn := domC.wr (COL_DESC_STATUS.STATE 5 0) 1
    let on := domC.wr (PST_STATUS.STATE 2) 1
    let grp : Ctl := { opn with ops := [(5 * 512, {})] }
    (0 < sch.schedLimit 5 ∧ lastSrc (after (.descriptorWindowWrite 0 5 0x1_0000 [1, 2, 3, 4]) (st sch)) = some Src.REG_REFUSED) ∧
    (domC.schedLimit 5 ≤ 0 ∧ opn.opOpen (opKey 5 0) = true ∧ domC.opOpen (opKey 5 0) = false ∧
      (after (.descriptorWindowWrite 0 5 0x1_0000 [1, 2, 3, 4]) (st domC)).c.rdWord 0x060B_0000 = 0x0403_0201) ∧
    ((BitVec.toNat (0x1_003C#17)) % 64 + 4 = 64) ∧
    (grp.groupBusy 2 0 = true ∧ domC.groupBusy 2 0 = false ∧
      (after (.groupEntryWrite 0 2 0x7F8 [7, 0, 0, 0, 0, 0, 0, 0]) (st domC)).c.rdWord (0x0680_0000 + 2 * 0x800 + 0x7F8) = 3) ∧
    (domC.storeOff 2 = true ∧ on.storeOff 2 = false ∧
      (after (.tensorTableWrite 0 2 8 [9, 0, 0, 0]) (st domC)).c.rdWord (0x0800_0000 + 2 * 0x8_0000 + 8) = 9) ∧
    (let t := after (.mgmtRouteWrite 0 8 [0xFF, 0xFF, 0xFF, 0xFF]) State.reset
     t.c.rdWord 0x0580_0008 = 0 ∧ (after (.mgmtRouteWrite 0 12 [0, 0, 0, 0]) t).c.rdWord 0x0580_0008 = 0x7F3F) ∧
    (after (.hsetWordWrite 0 2 255 7 1) State.reset).c.bit ⟨hsetAddr 2 255 7, 32, 1⟩ = true := by
  decide

/-- Apertures: shut and open, a halted slice, a slice that runs, both halves of MER_NOW. -/
theorem witness_apertures :
    let o := regs [(MEM_APER_DOM.ENABLE 0, 1), (MEM_APER_DOM.DOMAIN 0, 2), (MEM_APER_STAGE.ENABLE 0, 1), (MEM_APER_STAGE.SLICE 0, 5)] domC
    let run := o.wr (SLC_STATE.LIFECYCLE 5) 2
    (domC.aperShut 0 0 = true ∧ o.aperShut 0 (9 * 2 ^ 52) = false ∧
      ((st o).dev.winWrite 2 (9 * 2 ^ 52) [1, 2, 3, 4]).1 = St.OK ∧ ((st o).dev.winRead 2 (9 * 2 ^ 52) 8).1 = St.OK) ∧
    (o.readableSlice 5 = true ∧ run.readableSlice 5 = false ∧ run.bit (MEM_APER_STAGE.ENABLE 0) = true ∧
      (after (.stagingApertureAccess 0 0 none 4) (st o)).c.sent = [.readData 0 0] ∧
      lastSrc (after (.debugWindowAccess 0 5 0 none 4) (st run)) = some Src.REG_REFUSED) ∧
    (let n := State.reset.c.wr MER_NOW.COUNT 0x5_0000_0009
     let t := after (.merNowRead 0 ⟨0, 0⟩ (some false)) (st n)
     t.c.sent = [.readData 0 9] ∧ (after (.merNowRead 0 ⟨0, 0⟩ (some true)) (t.withC (t.c.wr MER_NOW.COUNT 0))).c.sent.head? = some (.readData 0 5)) ∧
    (let q : Ctl := { State.reset.c with net := State.reset.c.net }
     q.stageArea 5 (33 * 2 ^ 20) = 3 ∧ q.stageArea 5 0 ≠ 3 ∧ (regs [(MEM_STAGE.PROG_MIB 5, 1)] q).stageArea 5 0 = 0) := by
  decide

/-! ## Meridian, swaps -/

def linkUpC (l : Nat) (c : Ctl) : Ctl := regs [(LNK_TRAIN.STATE l, LanSt.UP), (LNK_STATUS.UP l, 1)] c

/-- A SYNC packet from link 3: its words 0 to 3 and the count. -/
def syncPkt (w t1 t2 t3 count : Nat) : InPkt :=
  let body := toBytes 8 w ++ toBytes 8 t1 ++ toBytes 8 t2 ++ toBytes 8 t3 ++ toBytes 7 count
  { inp := 3, pkt := Pkt.form { typ := Typ.SYNC, vc := 6, srcDev := 77, hopLocal := true, payload := body } }

/-- Alignment: ALIGN_GO on the root, on a device with a neighbour at DEPTH 2, on one with none, and a second
one; the three kinds of SYNC packet, the answer with a small, a middle and a large offset; the interval. -/
theorem witness_alignment :
    let n : Neighbour := { link := 3, dev := 77, depth := 2, aligned := true }
    let up := linkUpC 3 State.reset.c
    let hear : Ctl := { up with mer := { neighbours := [n] } }
    let t := after (.alignGo 1 0x3F00) (st hear)
    let rx (x : InPkt) (c : Ctl) : Ctl := { c with mer := { c.mer with rx := [x] } }
    let slave : Ctl := { (up.wr MER_SYNC_STATUS.STATE 2).wr MER_SYNC_STATUS.PARENT 3 with
      mer := { asked := some (3, 0), goDone := true, counting := true } }
    let rsp (d : Nat) : Ctl := rx (syncPkt (2 + 2 ^ 9) 0 (1000 + d) (1000 + d) 0) slave
    let back (d : Nat) := after (.syncRsp 3 2000) (st (rsp d))
    (t.c.rd MER_SYNC_STATUS.PARENT = 3 ∧ t.c.rd MER_SYNC_STATUS.DEPTH = 3 ∧ t.c.mer.asked = some (3, 0) ∧
      bestParent (parentsOf hear [n] 0x3F) = some n ∧ hear.mer.goDone = false ∧ hear.aligned = false) ∧
    ((after (.alignGo 1 0x3F01) State.reset).c.mer.startNext = true ∧ parentsOf up [] 0x3F = [] ∧
      (after (.alignGo 1 0x5_0001) t).c.rd MER_CTRL.SYNC_INTERVAL = 5 ∧ t.c.mer.goDone = true) ∧
    (SyncIn (rx (syncPkt 1 9 0 0 0) up) 3 1 (syncPkt 1 9 0 0 0)) ∧
    (SyncIn (rsp 0) 3 2 (syncPkt (2 + 2 ^ 9) 0 1000 1000 0) ∧ (rsp 0).aligned = true ∧ (rsp 0).mer.asked = some (3, 0) ∧
      (back 0).c.rd MER_SYNC_STATUS.OFFSET = 0 ∧ (back 0).c.rd MER_SYNC_STATUS.LINK_DELAY = 48 ∧ (back 0).c.mer.slew = none) ∧
    ((back 100).c.mer.slew = some 976 ∧ (back 100).c.rd MER_SYNC_STATUS.OFFSET = 488 ∧ lastSrc (back 100) = some Src.MER_SLEW) ∧
    ((back 60000).c.syncState = 3 ∧ lastSrc (back 60000) = some Src.MER_LOST) ∧
    (SyncIn (rx (syncPkt (3 + 2 * 16 + 2 ^ 9) 0 0 0 0) hear) 3 3 (syncPkt (3 + 2 * 16 + 2 ^ 9) 0 0 0 0) ∧
      (after (.announce 3) (st (rx (syncPkt (3 + 2 * 16 + 2 ^ 9) 0 0 0 0)
        { (up.wr MER_CTRL.PARENT_PIN 63).wr MER_SYNC_STATUS.PARENT 63 with mer := { goDone := true } }))).c.rd MER_SYNC_STATUS.DEPTH = 3) ∧
    ((slave.elapsed 0 4096 = false) ∧ (let late : Ctl := { slave with mer := { slave.mer with slots := 2 ^ 28 } }
      late.aligned = true ∧ late.linkUp 3 = true ∧ late.elapsed 0 (2 ^ (12 + late.rd MER_CTRL.SYNC_INTERVAL)) = true ∧
      (after .syncIntervalExpiry (st late)).c.mer.lastSync = 2 ^ 28)) := by
  refine ⟨?_, ?_, ?_, ?_, ?_, ?_, ?_, ?_⟩
  · decide
  · decide
  · exact ⟨by decide, by decide, by decide⟩
  · exact ⟨⟨by decide, by decide, by decide⟩, by decide⟩
  · decide
  · decide
  · exact ⟨⟨by decide, by decide, by decide⟩, by decide⟩
  · decide

/-- Swaps: each refusal of an arming and an accepted one at the two ends of its window, disarming, a
wake, a swap that is due and one that is not. -/
theorem witness_bank_swaps :
    let c : Ctl := ((domC.wr (MER_PHASE_NEXT.KIND 2) 1).setBank 2 1 { kind := 1, period := 100 })
    let armed := after (.swapArm 1 2 4) (st c)
    let due : Ctl := { armed.c.wr MER_NOW.COUNT 3 with mer := { armed.c.mer with counting := true } }
    let sw := after (.phaseSwap 2) (st due)
    (c.armed 2 = false ∧ c.bankValid 2 1 = true ∧ c.draining 2 1 = false ∧ (c.domMer 2).checking = none ∧ c.bit (MER_SWAP_STATUS.WAKING 2) = false) ∧
    (c.leadOk 2 1 4 = true ∧ c.leadOk 2 1 3 = false ∧ c.leadOk 2 1 (2 ^ 31) = true ∧ c.leadOk 2 1 (2 ^ 31 + 1) = false) ∧
    (armed.c.armed 2 = true ∧ armed.c.rd (MER_SWAP_STATUS.LAST_STATUS 2) = St.OK ∧
      (after (.swapArm 1 2 9) armed).c.rd (MER_SWAP_STATUS.LAST_STATUS 2) = St.BUSY ∧
      (after (.phaseNextWrite 1 2 2) armed).c.rd (MER_SWAP_STATUS.LAST_STATUS 2) = St.BUSY) ∧
    ((after (.swapArm 1 2 3) (st c)).c.rd (MER_SWAP_STATUS.LAST_STATUS 2) = St.BAD_PARAM ∧
      (after (.swapArm 1 2 4) (st (c.wr (MER_PHASE_NEXT.KIND 2) 2))).c.rd (MER_SWAP_STATUS.LAST_STATUS 2) = St.BAD_PARAM ∧
      (after (.swapArm 1 2 4) (st (c.wr (MER_PHASE.VALID_B 2) 0))).c.rd (MER_SWAP_STATUS.LAST_STATUS 2) = St.DENIED) ∧
    ((after (.swapDisarm 1 2) armed).c.armed 2 = false ∧
      (after (.swapDisarm 1 2) (st (armed.c.wr (MER_SWAP_STATUS.WAKING 2) 1))).c.armed 2 = true) ∧
    (armed.c.rd (MER_SWAP_AT.SLOT 2) = 4 ∧ (after (.swapWakeStart 2) (st due)).c.bit (MER_SWAP_STATUS.WAKING 2) = true) ∧
    (c.swapDue 2 = false ∧ due.swapDue 2 = true ∧ sw.c.liveBank 2 = 1 ∧ sw.c.epoch 2 = 1 ∧ sw.c.rd (MER_PHASE.KIND 2) = 1 ∧
      sw.c.draining 2 0 = true ∧ sw.c.rd (MER_SWAP_STATUS.LAST_SWAP 2) = 4) := by
  decide

/-! ## Lanes -/

/-- Link 3 in a training state, each lane `i` with the state that `f i` gives. -/
def lanesC (stt : Nat) (k : LinkSt) (f : Nat → LaneSt) : Ctl :=
  let c := (State.reset.c.wr (LNK_TRAIN.STATE 3) stt).setLink 3 k
  lanes8.foldl (fun c i => c.setLane 3 i (f i)) c

/-- A control word with its CHECK. -/
def ctlWord (w : Nat) : W64 := BitVec.ofNat 64 (w + crc8Word w <<< 56)

def frameOf (f : Nat → Nat) : List W64 := lanes8.map (fun i => ctlWord (f i))

/-- Training: the second good frame of DETECT with and without a common rate, EQ, LOCK and ALIGN complete and
not, a wake's end, both bounds. -/
theorem witness_lane_training :
    let seen (w : Nat) (i : Nat) : LaneSt := { word := (ctlWord (w + i <<< 36 + 3 <<< 39)).toNat, same := 2 }
    let fr (w : Nat) := frameOf (fun i => w + i <<< 36 + 3 <<< 39)
    let stateAfter (c : Ctl) (w : Nat) (o : TrainObs) : Nat := (after (.trainingFrame 3 (fr w) o) (st c)).c.linkState 3
    let det (w : Nat) := lanesC LanSt.DETECT {} (seen w)
    let eq := lanesC LanSt.EQ { rate := 4 } (seen (2 + 2 ^ 34))
    let lock := lanesC LanSt.LOCK { rate := 4 } (fun i => { seen 3 i with filler := 4095 })
    let al (l : LinkSt) (stt : Nat) := lanesC stt l (seen (4 + 2 ^ 35))
    let late (c : Ctl) : Ctl := { c with mer := { slots := 6250 } }
    ((fr 0x71).length = 8 ∧ stateAfter (det 0x71) 0x71 {} = LanSt.EQ ∧ stateAfter (det 1) 1 {} = LanSt.FAILED ∧
      stateAfter (lanesC LanSt.DETECT {} (fun _ => {})) 0x71 {} = LanSt.DETECT) ∧
    (stateAfter eq (2 + 2 ^ 34) { adapted := 0xFF } = LanSt.LOCK ∧ stateAfter eq (2 + 2 ^ 34) { adapted := 0x7F } = LanSt.EQ) ∧
    (stateAfter lock 3 { fillerOk := 0xFF } = LanSt.ALIGN ∧ stateAfter lock 3 { fillerOk := 0xFE } = LanSt.LOCK) ∧
    (stateAfter (al { readyTx := 2 } LanSt.ALIGN) (4 + 2 ^ 35) { deskewed := 0xFF } = LanSt.CAPS ∧
      stateAfter (al { readyTx := 1 } LanSt.ALIGN) (4 + 2 ^ 35) { deskewed := 0xFF } = LanSt.ALIGN ∧
      stateAfter (al { readyTx := 2, fromIdle := true, rate := 4 } LanSt.WAKE) (4 + 2 ^ 35) { deskewed := 0xFF } = LanSt.UP) ∧
    (eq.elapsed 0 4688 = false ∧ (late eq).elapsed 0 4688 = true ∧ (after (.eqTimeout 3) (st ((late eq).wr (LNK_RATE.FALLBACK 3) 0))).c.rd (LNK_TRAIN.FAIL_CAUSE 3) = 2 ∧
      (let f := (late eq).wr (LNK_RATE.FALLBACK 3) 1
       (after (.eqTimeout 3) (st f)).c.linkState 3 = LanSt.DETECT ∧ ((after (.eqTimeout 3) (st f)).c.link 3).removed = 4)) ∧
    ((after (.trainTimeout 3) (st (late lock))).c.rd (LNK_TRAIN.FAIL_CAUSE 3) = 3 ∧
      (after (.trainTimeout 3) (st (late (al { hint := 4 } LanSt.ALIGN)))).c.rd (LNK_TRAIN.FAIL_CAUSE 3) = 4 ∧
      (after (.trainTimeout 3) (st (late (al {} LanSt.RETUNE)))).c.rd (LNK_TRAIN.FAIL_CAUSE 3) = 6 ∧
      lock.elapsed 0 6250 = false) := by
  decide

/-- Idle: an UP link in use and not, a link ready to idle, the two ends of a fast exit, a failed wake. -/
theorem witness_link_idle :
    let up := linkUpC 3 State.reset.c
    let hold := up.wr (LNK_CTRL.STAY_AWAKE 3) 1
    let due := up.setLink 3 { idleDue := true }
    let idle := up.wr (LNK_TRAIN.STATE 3) LanSt.IDLE
    let at' (n : Nat) : Ctl := { idle with mer := { slots := n } }
    (up.linkState 3 = LanSt.UP ∧ (up.linkInBanks 3 || up.heldAwake 3) = false ∧ (hold.linkInBanks 3 || hold.heldAwake 3) = true ∧
      (after (.idleEnter 3) (st up)).c.linkState 3 = LanSt.IDLE ∧ (after (.idleEnter 3) (st hold)).c.rd (LNK_TRAIN.IDLE_CONFLICTS 3) = 1) ∧
    (up.idleReady 3 = false ∧ due.idleReady 3 = true ∧ (after (.linkIdleEntry 3) (st due)).c.linkState 3 = LanSt.IDLE) ∧
    ((at' 31250).inSafe = false ∧ (after (.losDeassert 3 0) (st (at' 31250))).c.linkState 3 = LanSt.WAKE ∧
      (after (.losDeassert 3 0) (st (at' 31251))).c.linkState 3 = LanSt.RETUNE ∧ (after (.losDeassert 3 0) (st up)).c.linkState 3 = LanSt.UP) ∧
    ((after (.wakeFail 3) (st (up.wr (LNK_TRAIN.STATE 3) LanSt.WAKE))).c.linkState 3 = LanSt.RETUNE) := by
  decide

/-- Detectors: each flag's event and its absence, the two thresholds of FEC_SYM, the three ranges of an offset,
the sixteenth low scan. -/
theorem witness_lane_detectors :
    let up := regs [(LANE_STATUS.STATE 3 1, LanSt.UP), (LANE_STATUS.LOS 3 1, 0), (LANE_STATUS.CDR_LOL 3 1, 0), (LANE_STATUS.PLL_LOL 3 1, 0)]
      (linkUpC 3 State.reset.c)
    let ln (a : LaneSt) (n : Nat) : Ctl := { up.setLane 3 1 a with mer := { slots := n } }
    let big := fecTotal 0 / 100000 + 1
    (lastSrc (after (.losAssert 3 1) (st up)) = some (Src.LOS 3) ∧ lastSrc (after (.losAssert 3 1) (st (ln { word := 12 } 0))) = none ∧
      lastSrc (after (.cdrLol 3 1 true) (st up)) = some (Src.CDR_LOL 3) ∧ lastSrc (after (.pllLol 3 1 true) (st up)) = some (Src.PLL_LOL 3) ∧
      lastSrc (after (.pllLol 3 1 false) (st up)) = none) ∧
    ((ln {} 0).elapsed 0 65536 = false ∧ (ln {} 65536).elapsed 0 65536 = true ∧
      lastSrc (after (.fecSym 3 1) (st (ln { fecWin := big } 65536))) = some (Src.FEC_SYM 3) ∧
      lastSrc (after (.fecSym 3 1) (st (ln { fecWin := big - 1 } 65536))) = none ∧
      ((after (.fecSym 3 1) (st (ln { fecWin := big - 1, fecHeld := true } 65536))).c.lane 3 1).fecHeld = true ∧
      ((after (.fecSym 3 1) (st (ln { fecWin := 1, fecHeld := true } 65536))).c.lane 3 1).fecHeld = false) ∧
    ((after (.refTrack 3 1 21) (st up)).c.bit (LANE_STATUS.CDR_LOL 3 1) = true ∧ (after (.refTrack 3 1 20) (st up)).c.bit (LANE_STATUS.CDR_LOL 3 1) = false ∧
      lastSrc (after (.refTrack 3 1 (-11)) (st (ln { refSince := some 4 } 5))) = some (Src.REF_TRACK 3) ∧
      ((after (.refTrack 3 1 11) (st up)).c.lane 3 1).refSince = some 0 ∧ ((after (.refTrack 3 1 10) (st (ln { refSince := some 4 } 5))).c.lane 3 1).refSince = none) ∧
    ((ln { lowScans := 15 } 4095).elapsed 0 4096 = false ∧ (ln {} 4096).bit (LANE_MARGIN.BUSY 3 1) = false ∧
      lastSrc (after (.autoMarginScan 3 1 9 63) (st (ln { lowScans := 15 } 4096))) = some (Src.MARGIN_LOW 3) ∧
      lastSrc (after (.autoMarginScan 3 1 10 4) (st (ln { lowScans := 15 } 4096))) = none) := by
  decide

/-- Lane tests: a pattern selected with the link OFF and not, a checker in sync and not, each injection, a
manual scan. -/
theorem witness_lane_tests :
    let off := State.reset.c
    let on := off.wr (LNK_STATUS.LIFECYCLE 3) 2
    let test := (off.wr (LANE_PRBS_CFG.RX_PAT 3 1) 1).wr (LANE_STATUS.STATE 3 1) LanSt.TEST
    let sync := test.wr (LANE_PRBS_ERR.SYNC 3 1) 1
    let busy := off.wr (LANE_MARGIN.BUSY 3 1) 1
    (off.linkOff 3 = true ∧ on.linkOff 3 = false ∧ (after (.patternSelect 1 3 1 0x11) (st off)).c.laneState 3 1 = LanSt.TEST ∧
      (after (.patternSelect 1 3 1 0) (st test)).c.laneState 3 1 = LanSt.OFF ∧ lastSrc (after (.patternSelect 1 3 1 1) (st on)) = some Src.REG_REFUSED) ∧
    ((after (.prbsSync 3 1 [true]) (st sync)).c.rd (LANE_PRBS_ERR.ERRORS 3 1) = 1 ∧
      (after (.prbsSync 3 1 [false]) (st sync)).c.rd (LANE_PRBS_ERR.ERRORS 3 1) = 0 ∧
      (after (.prbsSync 3 1 [false]) (st (test.modLane 3 1 (fun a => { a with chkGood := 1023 })))).c.bit (LANE_PRBS_ERR.SYNC 3 1) = true ∧
      (after (.prbsSync 3 1 [false]) (st (test.modLane 3 1 (fun a => { a with chkGood := 1022 })))).c.bit (LANE_PRBS_ERR.SYNC 3 1) = false) ∧
    (getFld (0x11 : W64) 0 2 = 1 ∧ getFld (3 : W64) 0 2 = 3 ∧ (after (.injectGo 1 3 1 1) (st test)).c.rd (LANE_INJECT.INJECTED 3 1) = 1 ∧
      (after (.injectGo 1 3 1 3) (st test)).c.rd (LANE_INJECT.INJECTED 3 1) = 1 ∧ (after (.injectGo 1 3 1 3) (st off)).c.rd (LANE_INJECT.INJECTED 3 1) = 0 ∧
      lastSrc (after (.injectGo 1 3 1 3) (st on)) = some Src.REG_REFUSED ∧
      (after (.periodicInjection 3 1) (st (test.wr (LANE_INJECT.MODE 3 1) 2))).c.rd (LANE_INJECT.INJECTED 3 1) = 1) ∧
    (busy.bit (LANE_MARGIN.BUSY 3 1) = true ∧ (after (.marginGo 1 3 1 0) (st off)).c.bit (LANE_MARGIN.ABORTED 3 1) = true ∧
      (after (.marginGo 1 3 1 0) (st test)).c.bit (LANE_MARGIN.BUSY 3 1) = true ∧
      (after (.marginDone 3 1 (2 ^ 32)) (st busy)).c.rd (LANE_MARGIN.ERRORS 3 1) = 2 ^ 32 - 1) := by
  decide

/-! ## A block received -/

/-- Byte `j` of lane `i` where codeword 0 is `w` and the others are zero: position p of codeword 0 is byte
4p of lane p mod 8 (R90). -/
def blockLaneByte (w : List Nat) (i j : Nat) : Byte := if j % 4 = 0 ∧ j / 4 % 8 = i then BitVec.ofNat 8 (w.getD (j / 4) 0) else 0

def blockLanes (w : List Nat) : List (List Byte) := lanes8.map (fun i => (List.range 896).map (blockLaneByte w i))

def blockWord (w : List Nat) (c : Nat) : List Nat := if c = 0 then w else List.replicate 224 0

/-- The block's 6,464 bytes (R90). -/
def blockBytes (w : List Nat) : List Byte := (List.range 202).flatMap (fun p => (List.range 32).map (fun c => BitVec.ofNat 8 ((blockWord w c).getD p 0)))

/-- A good codeword whose four bytes, in a block's first flit, make its LCRC 0. -/
def goodWord : List Nat :=
  [0, 0, 204, 209, 30, 45] ++ List.replicate 196 0 ++
  [115, 39, 56, 194, 60, 173, 149, 204, 137, 249, 91, 204, 134, 16, 207, 69, 208, 85, 51, 32, 152, 189]

/-- A codeword with more than 11 errors: only its last syndrome is not zero. -/
def badWord : List Nat :=
  List.replicate 202 0 ++ [1, 44, 243, 13, 131, 49, 132, 194, 67, 214, 28, 89, 124, 82, 158, 244, 37, 236, 142, 82, 255, 89]

/-- Link 3 is UP, with its descramblers at the state that changes no bit. -/
def blockC : Ctl := (linkUpC 3 State.reset.c).setLink 3 { scr := [0, 0, 0, 0, 0, 0, 0, 0] }

theorem scramble_zero : ∀ bs, scrambleBytes 0 bs = (0, bs)
  | [] => rfl
  | b :: bs => by
    have h : ∀ b : Byte, scrambleByte 0 b = (0, b) := by decide +kernel
    rw [scrambleBytes, h]
    show (match scrambleBytes 0 bs with | (t, cs) => (t, b :: cs)) = _
    rw [scramble_zero bs]

theorem block_lanes (w : List Nat) (i : Nat) (hi : i < 8) : (blockLanes w).getD i [] = (List.range 896).map (blockLaneByte w i) := by
  have h : ∀ i < 8, lanes8[i]? = some i := by decide
  rw [blockLanes, List.getD_eq_getElem?_getD, List.getElem?_map, h i hi]
  rfl

theorem block_lane_byte (w : List Nat) (i j : Nat) (hi : i < 8) (hj : j < 896) : (((blockLanes w).getD i []).getD j 0) = blockLaneByte w i j := by
  rw [block_lanes w i hi, List.getD_eq_getElem?_getD, List.getElem?_map, List.getElem?_range hj]
  rfl

theorem block_codeword (w : List Nat) (hw : (List.range 224).map (fun p => (BitVec.ofNat 8 (w.getD p 0)).toNat) = w) (c : Nat) (hc : c < 32) :
    codeword (blockLanes w) c = blockWord w c := by
  have h : codeword (blockLanes w) c = (List.range 224).map (fun p => if c = 0 then (BitVec.ofNat 8 (w.getD p 0)).toNat else 0) := by
    unfold codeword
    apply List.map_congr_left
    intro p hp
    have := List.mem_range.mp hp
    refine (congrArg BitVec.toNat (block_lane_byte w _ _ (by omega) (by omega))).trans ?_
    unfold blockLaneByte
    by_cases h0 : c = 0
    · rw [if_pos (by omega), if_pos h0, show (4 * p + c / 8) / 4 = p by omega]
    · have hn : ¬ ((4 * p + c / 8) % 4 = 0 ∧ (4 * p + c / 8) / 4 % 8 = (c + p) % 8) := by
        rintro ⟨ha, hb⟩
        have h8 : c / 8 = 0 := by omega
        rw [h8, show (4 * p + 0) / 4 = p by omega] at hb
        omega
      rw [if_neg hn, if_neg h0]
      rfl
  rw [h]
  unfold blockWord
  split
  · exact hw
  · rfl

theorem gf_zero : ∀ n b, gfMulLoop n 0 b 0 = 0
  | 0, _ => rfl
  | n + 1, b => by rw [gfMulLoop, show gfX 0 = 0 from rfl, show (if b % 2 = 1 then 0 ^^^ 0 else 0) = 0 by split <;> rfl]; exact gf_zero n _

theorem horner_zero (x : Nat) : ∀ n, gfHorner x (List.replicate n 0) = 0
  | 0 => rfl
  | n + 1 => by rw [gfHorner, List.replicate_succ, List.foldl_cons, gfMul, gf_zero]; exact horner_zero x n

theorem block_zero : rsDecode (List.replicate 224 0) = some (List.replicate 224 0, []) := by
  unfold rsDecode
  have h : syndromes (List.replicate 224 0) = List.replicate 22 0 := by
    unfold syndromes
    rw [List.map_congr_left (fun j _ => horner_zero (gfExp j) 224)]
    rfl
  rw [h]
  rfl

theorem block_first : rsDecode goodWord = some (goodWord, []) := by decide +kernel

theorem block_wrong : rsDecode badWord = none := by decide +kernel

theorem block_decoded : (decodeBlock (blockLanes goodWord)).data = some (blockBytes goodWord) := by
  have h : (List.range 32).map (fun c => rsDecode (codeword (blockLanes goodWord) c)) = (List.range 32).map (fun c => some (blockWord goodWord c, [])) := by
    apply List.map_congr_left
    intro c hc
    rw [block_codeword goodWord (by decide +kernel) c (List.mem_range.mp hc)]
    unfold blockWord
    split
    · exact block_first
    · exact block_zero
  unfold decodeBlock
  simp only [h, List.filterMap_map, Function.comp_def, Option.map_some]
  simp [blockBytes, Function.comp_def]

theorem block_refused : (decodeBlock (blockLanes badWord)).data = none := by
  have h : (List.range 32).map (fun c => rsDecode (codeword (blockLanes badWord) c)) =
      (List.range 32).map (fun c => if c = 0 then none else some (List.replicate 224 0, [])) := by
    apply List.map_congr_left
    intro c hc
    rw [block_codeword badWord (by decide +kernel) c (List.mem_range.mp hc)]
    unfold blockWord
    split
    · exact block_wrong
    · exact block_zero
  unfold decodeBlock
  simp only [h]
  rfl

theorem block_lcrc : crc32c ((blockBytes goodWord).take 56 ++ (blockBytes goodWord).drop 64) = leAt (blockBytes goodWord) 56 4 := by decide +kernel

theorem block_unscrambled (w : List Nat) :
    lanes8.map (fun i => (scrambleBytes ([0, 0, 0, 0, 0, 0, 0, 0].getD i (scrSeed i)) ((blockLanes w).getD i [])).2) = blockLanes w := by
  have h : ∀ i ∈ lanes8, [0, 0, 0, 0, 0, 0, 0, 0].getD i (scrSeed i) = 0 := by decide
  have g : ∀ f : Nat → List Byte, lanes8.map (fun i => (lanes8.map f).getD i []) = lanes8.map f := fun _ => rfl
  rw [List.map_congr_left (fun i hi => by rw [h i hi, scramble_zero])]
  exact g _

theorem block_state : blockC.bit (LNK_TRAIN.REVERSED (3 : Nat)) = false ∧ (blockC.link 3).scr = [0, 0, 0, 0, 0, 0, 0, 0] := by decide

theorem block_data (w : List Nat) : blockData blockC 3 (blockLanes w) =
    match (decodeBlock (blockLanes w)).data with
    | some data => if crc32c (data.take 56 ++ data.drop 64) = leAt data 56 4 then some data else none
    | none => none := by
  unfold blockData
  have h1 := block_state.1
  generalize blockC.bit (LNK_TRAIN.REVERSED 3) = r at h1 ⊢
  subst h1
  rw [block_state.2]
  change (match (decodeBlock (lanes8.map (fun i => (scrambleBytes ([0, 0, 0, 0, 0, 0, 0, 0].getD i (scrSeed i)) ((blockLanes w).getD i [])).2))).data with
    | some data => if crc32c (data.take 56 ++ data.drop 64) = leAt data 56 4 then some data else none
    | none => none) = _
  rw [block_unscrambled]

/-- A block that the receiver accepts and one that it does not. -/
theorem witness_blocks : blockData blockC 3 (blockLanes goodWord) = some (blockBytes goodWord) ∧ blockData blockC 3 (blockLanes badWord) = none ∧
    (blockLanes goodWord).length = 8 ∧ blockC.linkState 3 = LanSt.UP ∧ (blockC.link 3).firstBlock = false := by
  refine ⟨?_, ?_, rfl, by decide, by decide⟩
  · rw [block_data, block_decoded]
    exact if_pos block_lcrc
  · rw [block_data, block_refused]

/-! ## Replay, capabilities, the switch -/

/-- Replay: a first and a last attempt, both bounds in time, a link to retrain at its time and before. -/
theorem witness_link_replay :
    let up := linkUpC 3 State.reset.c
    let b : TxBlock := { bseq := 65535, pkts := [{ typ := 1 }] }
    let one := up.setLink 3 { stored := [b] }
    let open' (n : Nat) (nak : Bool) := up.setLink 3 { stored := [b], episodeFirst := some 65535, attempts := n, nakState := nak }
    let again (n : Nat) : Ctl := { State.reset.c.setLink 3 { retrainAt := some 3125 } with mer := { slots := n } }
    (one.linkState 3 = LanSt.UP ∧ ((after (.replayTimeout 3) (st one)).c.link 3).attempts = 1 ∧
      (after (.replayTimeout 3) (st one)).c.sent = [.packet 3 { typ := 1 }] ∧ one.maxAttempts 3 = 8) ∧
    (((after (.replayTimeout 3) (st (open' 7 false))).c.link 3).attempts = 8 ∧
      (after (.replayTimeout 3) (st (open' 8 false))).c.rd (LNK_STATUS.DOWN_CAUSE 3) = 1) ∧
    ((after (.linkDown 3) (st (open' 1 false))).c.rd (LNK_STATUS.DOWN_CAUSE 3) = 2 ∧
      (after (.linkDown 3) (st (up.setLink 3 { nakState := true }))).c.rd (LNK_STATUS.DOWN_CAUSE 3) = 3 ∧
      (after (.linkDown 3) (st up)).c.linkState 3 = LanSt.UP) ∧
    ((after (.linkRetrain 3) (st (again 3125))).c.linkState 3 = LanSt.DETECT ∧ (after (.linkRetrain 3) (st (again 3124))).c.linkState 3 = LanSt.OFF) := by
  decide

/-- Capability exchange: a second equal record with and without four echoes, each failed check, a record
that differs, a timeout. -/
theorem witness_link_caps :
    let rec4 : Nat := 0x0100 + 77 <<< 16 + 4 <<< 36
    let ws (w0 : Nat) : List Nat := [w0, 0, 0, 0, 0, 0]
    let caps (w0 same cnt : Nat) : Ctl := (regs [(LNK_TRAIN.STATE 3, LanSt.CAPS), (LNK_CTRL.ROLE 3, 1)] State.reset.c).setLink 3
      { capsRx := ws w0, capsLast := [w0, 0, 0, 0, 0], capsSame := same, capsSeq := 9, rttCount := cnt, rttMin := 500 }
    let out (c : Ctl) (l : Fin 48) := (after (.capsRecord l 100 400) (st c)).c
    ((out (caps rec4 1 3) 3).linkState 3 = LanSt.UP ∧ (out (caps rec4 1 3) 3).rd (LNK_STATUS.RTT 3) = 300 ∧
      (out (caps rec4 1 2) 3).linkState 3 = LanSt.CAPS ∧ (out (caps rec4 0 3) 3).linkState 3 = LanSt.CAPS ∧ (caps rec4 1 3).capsCheck 3 rec4 = 0) ∧
    ((out (caps 0x0200 1 3) 3).rd (LNK_STATUS.CAPS_FAIL 3) = 1 ∧ (out (caps 0x0100 1 3) 3).rd (LNK_STATUS.CAPS_FAIL 3) = 2 ∧
      (out ((caps (0x0100 + 4 <<< 36) 1 3).wr SWX_CTRL.DEV_NUM 0) 3).rd (LNK_STATUS.CAPS_FAIL 3) = 3) ∧
    ((out State.reset.c 3).linkState 3 = LanSt.OFF ∧ (after (.capsTimeout 3) (st (caps 0 0 0))).c.rd (LNK_STATUS.CAPS_FAIL 3) = 4) := by
  decide

/-- A switch in operation with device number 5, domain 2 created with link 3. -/
def swxC : Ctl :=
  let c := regs [(SWX_CTRL.DEV_NUM, 5), (SWX_CTRL.DEV_SET, 1), (DOM_LINKS.LINKS 2, 8), (SLC_STATE.LIFECYCLE 5, 2)] (linkUpC 3 (linkUpC 4 domC))
  { c with sw := { go := true } }

/-- A packet at input `inp`. -/
def inC (inp : Nat) (p : Pkt) (c : Ctl) : Ctl := c.setInQ inp [{ pkt := p.form, inp := inp }]

/-- The ingress checks: before GO, a header that fails, an edge source, a domain, an epoch; each destination;
a packet that waits. -/
theorem witness_switch_ingress :
    let w : Pkt := { typ := Typ.WRITE, vc := 0, srcDev := 9, dstDev := 5, dstPort := 69, domain := 2, payload := [1] }
    let go (inp : Fin 113) (p : Pkt) (c : Ctl) := (after (.packetIngress inp) (st (inC inp p c))).c
    let out (c : Ctl) (l : Nat) : Nat := ((c.outSt l).q).length
    (State.reset.c.inQ 3 = [] ∧ State.reset.c.goPass { pkt := w, inp := 3 } = false ∧ (go 3 w State.reset.c).sw = {}) ∧
    ((go 3 { w with typ := 0x3F } swxC).rd (LNK_SCREEN.HDR_BAD 3) = 1 ∧ (go 3 { w with srcDev := 5, srcPort := 4 } (swxC.wr (LNK_CTRL.ROLE 3) 1)).rd (LNK_SCREEN.HDR_BAD 3) = 1 ∧
      (go 4 w swxC).rd SWX_DISCARD.DOMAIN = 1 ∧ (go 3 { w with epoch := 4 } swxC).rd (SWX_EPOCH.MISMATCH 2) = 1) ∧
    (((go 3 w swxC).rxQ 5).length = 1 ∧ ((go 3 { w with dstPort := 70 } swxC).rd (SWX_FLUSH.PACKETS 54)) = 1 ∧
      ((go 3 { w with dstPort := 128 } swxC).rxQ 64).length = 1 ∧ out (go 3 { w with dstPort := 4 } swxC) 4 = 1 ∧
      (go 3 { w with dstPort := 200 } swxC).rd SWX_DISCARD.UNROUTABLE = 1) ∧
    ((go 3 { typ := Typ.SYNC, vc := 6, hopLocal := true, payload := List.replicate 48 0 } swxC).mer.rx.length = 1) ∧
    (let full := swxC.setOut 4 { q := List.replicate 8 { pkt := { typ := Typ.WRITE, len := 480 }, inp := 53 } }
     out (go 53 { w with dstPort := 4 } full) 4 = 8 ∧ ((go 53 { w with dstPort := 4 } full).inQ 53).length = 1 ∧
       out (go 53 { w with dstPort := 4 } swxC) 4 = 1) := by
  decide

/-- A packet from link 3 for slice 5 passes every ingress check. -/
theorem witness_admitted :
    let p : Pkt := Pkt.form { typ := Typ.WRITE, vc := 0, srcDev := 9, dstDev := 5, dstPort := 69, domain := 2, payload := [1] }
    Admitted (inC 3 p swxC) 3 { pkt := p, inp := 3 } { pkt := p, inp := 3 } [] (some 0) :=
  ⟨by decide, by decide, by decide, by decide, by decide, by decide, by decide⟩

/-- The egress: a Zenith flit, an in-slot packet, a poisoned one, a link that is not UP; a domain that
drains, has drained and is stuck; GO with and without a device number. -/
theorem witness_switch_egress :
    let z : OutPkt := { pkt := { typ := Typ.ZENITH, vc := 5, len := 13 } }
    let x : OutPkt := { pkt := { typ := Typ.CONTRIB, vc := 2, len := 1 }, chkOk := false }
    let arb (o : OutSt) (c : Ctl) := (after (.outputArbitration 3) (st (c.setOut 3 o))).c.outSt 3
    let eg (o : OutSt) (c : Ctl) := (after (.egressStart 3 .good) (st (c.setOut 3 o))).c
    let rich := swxC.modLink 3 (fun k => { k with credits := List.replicate 8 100 })
    let drain : Ctl := { swxC.wr (SWX_EPOCH.DRAINING 2) 1 with mer := { slots := 5000 } }
    let held := drain.setOut 3 { q := [{ pkt := { typ := 1, domain := 2, epoch := 7, len := 1 } }] }
    ((arb { q := [z] } rich).zcur = some z ∧ (arb { q := [x], zcur := some z } rich).zcur = some z ∧ (arb { q := [x] } rich).cur = some x ∧
      rich.inSlotPick { q := [x] } = some x) ∧
    ((eg { zcur := some z, cur := some x } rich).sent.length = 1 ∧ (eg { cur := some x } rich).sent = [.packet 3 { x.pkt with poison := true }] ∧
      (eg { cur := some x } (rich.wr (LNK_STATUS.UP 3) 0)).sent = [] ∧ rich.replayFull 3 = false) ∧
    (swxC.drainDue 2 = false ∧ drain.drainDue 2 = true ∧ (after (.drainEnd 2) (st drain)).c.bit (SWX_EPOCH.DRAINING 2) = false ∧
      (after (.drainEnd 2) (st drain)).c.rd (SWX_EPOCH.DRAIN_SLOTS 2) = 5000) ∧
    (held.drainDue 2 = false ∧ (after (.drainStuck 2) (st held)).c.bit (SWX_EPOCH.DRAINING 2) = false ∧
      (after (.drainStuck 2) (st held)).c.rd (SWX_FLUSH.PACKETS 3) = 1 ∧ 0 + max 16 (held.rd SWX_CTRL.DRAIN_LIMIT) ≤ held.slots) ∧
    ((after (.swxGo 1 0x8000_0005) State.reset).c.sw.go = false ∧ (after (.swxGo 1 7) (st (State.reset.c.wr SWX_CTRL.DEV_SET 1))).c.sw.go = true ∧
      (after (.zenithClear 1 1) (st (swxC.wr SWX_ZENITH.BUSY 3))).c.rd SWX_ZENITH.BUSY = 0) := by
  decide

/-! ## Transport -/

/-- The device with a packet at the head of an endpoint's receive queue. -/
def rxC (e : Nat) (x : InPkt) (c : Ctl) : Ctl := c.setRxQ e [x]

/-- What an endpoint has offered to the switch: types and codes. -/
def offered (s : State) (inp : Nat) : List (Nat × Nat) := (s.c.inQ inp).map (fun x => (x.pkt.typ, x.pkt.code))

/-- Replies: a match, none, a poisoned one; a NACK with each outcome; a timeout; an entry that has expired. -/
theorem witness_replies :
    let req : Pkt := Pkt.form { typ := Typ.READ_REQ, vc := 0, stream := 7, alive := 3, opTag := 9, dstDev := 30, domain := 2 }
    let t : Txn := { ep := 5, req := req, hop := some 3 }
    let open' (t : Txn) : Ctl := { swxC with net := { txns := [t] } }
    let rsp (p : Pkt) : InPkt := { pkt := { p with stream := 7, alive := 3, opTag := 9 }, inp := 3 }
    let ok : InPkt := rsp { typ := Typ.READ_RSP, vc := 1 }
    let nk (c : Nat) (re : Bool) : InPkt := rsp { typ := Typ.NACK, vc := 1, code := c, reissue := re }
    let alt := (open' t).wrWord (devEntryAddr 2 0 30) (2 ^ 14 + 4 * 256 + 3)
    ((open' t).rxQ 5 = [] ∧ (open' t).txnOf 5 ok.pkt = some t ∧ ok.pkt.chkGood = true ∧
      (after (.readRsp (.slice 5)) (st (rxC 5 ok (open' t)))).c.net.done = [{ ep := 5, req := req, code := 0, data := [] }] ∧
      (after (.readRsp (.slice 5)) (st (rxC 5 ok swxC))).c.rd (LNK_SCREEN.DUPLICATE 3) = 1 ∧
      (after (.readRsp (.slice 5)) (st (rxC 5 { ok with pkt := { ok.pkt with poison := true } } (open' t)))).c.net.txns = [t]) ∧
    (((after (.nack (.slice 5)) (st (rxC 5 (nk St.BUSY false) (open' t)))).c.net.done.map (fun d => d.code)) = [St.BUSY] ∧
      (open' t).altEgress req = none ∧ lastSrc (after (.nack (.slice 5)) (st (rxC 5 (nk St.LINK_LOST false) (open' t)))) = some Src.REISSUE_FAIL ∧
      alt.altEgress req = some 4 ∧ ((after (.nack (.slice 5)) (st (rxC 5 (nk St.LINK_LOST false) alt))).c.net.txns.map (fun t => t.reissued)) = [true] ∧
      (let again := open' { t with reissued := true }
       (after (.nack (.slice 5)) (st (rxC 5 (nk St.LINK_LOST false) again))).c.net.txns.length = 1 ∧
         (after (.nack (.slice 5)) (st (rxC 5 (nk St.LINK_LOST true) again))).c.net.txns = [])) ∧
    (lastSrc (after (.e2eTimeout (.slice 5) 0) (st (open' t))) = some Src.E2E_TIMEOUT ∧ lastSrc (after (.e2eTimeout (.slice 5) 1) (st (open' t))) = none) ∧
    (let ent : Ctl := { swxC.setAlive 5 [{ dev := 9, port := 70, stream := 7 }] with mer := { slots := 65536 } }
     (after (.streamEntryExpiry (.slice 5) { dev := 9, port := 70, stream := 7 }) (st ent)).c.aliveOf 5 = []) := by
  decide

/-- The alive screen: a duplicate cached and not, a stale value, one ahead whose tail fails. -/
theorem witness_alive_screen :
    let p : Pkt := Pkt.form { typ := Typ.WRITE, vc := 0, srcDev := 9, srcPort := 70, stream := 7, alive := 100, ackReq := true, payload := [1] }
    let ent (h : Nat) : AliveEnt := { dev := 9, port := 70, stream := 7, h := h, seen := 1 }
    let c (h : Nat) : Ctl := rxC 5 { pkt := p, inp := 3 } (swxC.setAlive 5 [ent h])
    let hit : Ctl := { c 100 with net := { (c 100).net with cache := [(5, [{ dev := 9, port := 70, stream := 7, alive := 100, rsp := { typ := Typ.READ_RSP, vc := 1 } }])] } }
    (((c 100).aliveOf 5).find? (AliveEnt.is p) = some (ent 100) ∧ offered (after (.writeC (.slice 5)) (st (c 100))) 53 = [(Typ.NACK, St.DUPLICATE)] ∧
      offered (after (.writeC (.slice 5)) (st hit)) 53 = [(Typ.READ_RSP, St.OK)] ∧ p.isRequest = true) ∧
    (offered (after (.writeC (.slice 5)) (st (c 4196))) 53 = [(Typ.NACK, St.STALE)] ∧ ((c 4195).screen 5 { pkt := p, inp := 3 }).1 = .late) ∧
    (((c 65535).screen 5 { pkt := p, inp := 3 }).1 = .fresh ∧ ((c 32869).screen 5 { pkt := p, inp := 3 }).1 = .fresh ∧
      ((c 32868).screen 5 { pkt := p, inp := 3 }).1 = .stale) ∧
    (let bad := rxC 5 { pkt := { p with poison := true }, inp := 3 } (swxC.setAlive 5 [ent 99])
     bad.rxQ 5 ≠ [] ∧ ((after (.writeC (.slice 5)) (st bad)).c.aliveOf 5).map (fun a => a.h) = [100]) := by
  decide

/-- WRITE and READ_REQ: a byte placed and read back, refusals, a ticket. -/
theorem witness_memory_packets :
    let a9 : Nat := 9 * 2 ^ 52
    let w : Pkt := Pkt.form { typ := Typ.WRITE, vc := 0, srcDev := 9, srcPort := 70, stream := 7, alive := 1, ackReq := true, addr := a9, payload := [7] }
    let r : Pkt := Pkt.form { typ := Typ.READ_REQ, vc := 0, srcDev := 9, srcPort := 70, stream := 7, alive := 1, addr := a9, contrib := 1 }
    let x (p : Pkt) : InPkt := { pkt := p, inp := 3 }
    let c (p : Pkt) := rxC 5 (x p) swxC
    let wr (p : Pkt) := after (.writeC (.slice 5)) (st (c p))
    let rd (p : Pkt) := after (.readReq (.slice 5)) (st (c p))
    (((c w).setRxQ 5 []).screen 5 (x w)).1.accepted = true ∧ w.poison = false ∧ w.chkGood = true ∧
    ((wr w).dev.ram.dram.length = 1 ∧ offered (wr w) 53 = [(Typ.READ_RSP, St.OK)]) ∧
    (offered (wr { w with addr := 10 * 2 ^ 52 - 1 }) 53 = [(Typ.NACK, St.DENIED)] ∧ offered (wr { w with addr := 2 ^ 52 }) 53 = [(Typ.NACK, St.DENIED)]) ∧
    (offered (after (.writeC .control) (st (rxC 64 (x w) swxC))) 112 = [(Typ.NACK, St.DENIED)] ∧
      offered (after (.readReq .control) (st (rxC 64 (x r) swxC))) 112 = [(Typ.NACK, St.DENIED)]) ∧
    (offered (rd r) 53 = [(Typ.READ_RSP, St.OK)] ∧ offered (rd { r with contrib := 0 }) 53 = [(Typ.NACK, St.BAD_PARAM)] ∧
      offered (rd { r with contrib := 513 }) 53 = [(Typ.NACK, St.BAD_PARAM)] ∧ offered (rd { r with addr := colPage + 0x8000 }) 53 = [(Typ.NACK, St.NOT_FOUND)]) ∧
    (let home := regs [(COL_TICKET.HOME 2, 1), (COL_TICKET.HOME_SLICE 2, 5)] (c { r with addr := colPage + 0x8000 })
     offered (after (.readReq (.slice 5)) (st home)) 53 = [(Typ.READ_RSP, St.OK)] ∧
       (after (.readReq (.slice 5)) (st home)).c.rd (COL_TICKET.NEXT 2) = 1) := by
  decide

/-! ## Collective operations -/

/-- Operation 0 of slice 5 is open, with these descriptor words and this state beside them. -/
def opC (ws : List Nat) (o : OpSt) : Ctl :=
  let c := (List.range 8).foldl (fun c w => c.wrWord (liveDescAddr 5 0 w) (ws.getD w 0)) (swxC.wr (COL_DESC_STATUS.STATE 5 0) 1)
  c.setOp 2560 o

/-- Words of a descriptor over leaves 0 and 1, four FP32 elements a chunk, four chunks, WINDOW 2, LATE_LIMIT 8
and ticket 2^25 + 1: KIND, ring length and position. -/
def desc (kind ringN pos : Nat) (reform := false) : List Nat :=
  [kind + 2 ^ 4 + (b2n reform) <<< 8 + 2 <<< 24 + 4 <<< 32, 4 + ringN <<< 32 + pos <<< 44, 3 <<< 32, 8 <<< 48, 0, 0, 7 <<< 32, 2 ^ 25 + 1]

/-- A packet of operation 0 of slice 5. -/
def opPkt (typ vc : Nat) (p : Pkt) : Pkt :=
  Pkt.form { p with typ := typ, vc := vc, srcDev := 9, srcPort := 3, domain := 2, ticket := 2 ^ 25 + 1, stream := 7, alive := 1, opTag := 2560, dstPort := 69 }

def fourOnes : List Byte := (List.replicate 4 (toBytes 4 0x3F800000)).flatten

/-- The operation after an input, and what the slice answers. -/
def colAfter (p : Pkt) (c : Ctl) : State := after (if p.typ = Typ.MCAST then .mcast 5 else .contrib 5) (st (rxC 5 { pkt := p, inp := 3 } c))

/-- Table COL-4: each row, both kinds of operation. -/
theorem witness_collective_inputs :
    let d := desc 1 1 0
    let p := opPkt Typ.CONTRIB 2 { chunk := 0, contrib := 1, payload := fourOnes }
    let c := opC d {}
    let hold (c : Ctl) : Bool := c.alreadyHeld 2560 p
    let done := (c.wr (COL_DESC_STATUS.STATE 5 0) 3).wr (COL_DESC_STATUS.CODE 5 0) St.TIMEOUT
    let late := opC d { excluded := [(1, 0)], chunks := [(0, { summed := true })] }
    let win (w : List (Nat × Nat × Option Nat)) : Ctl :=
      (((opC d { sched := true, windows := w }).wrWord (entryAddr 5 0 0) (Act.ACCEPT <<< 24)).wrWord (entryAddr 5 0 0 + 8) (3 <<< 16)).wrWord
        (entryAddr 5 0 1) (Act.END <<< 24)
    let full := [0, 1, 2, 3].foldl (fun c k => c.wr (poolFree 5 k) 0) (win [])
    (c.opOpen 2560 = true ∧ hold c = false ∧ hold (colAfter p c).c = true ∧ offered (colAfter p done) 53 = [(Typ.NACK, St.TIMEOUT)] ∧
      offered (colAfter { p with ticket := 2 ^ 25 + 2 } c) 53 = [(Typ.NACK, St.NOT_FOUND)] ∧
      offered (colAfter { p with chunk := 4 } c) 53 = [(Typ.NACK, St.BAD_PARAM)] ∧ offered (colAfter { p with contrib := 2 } c) 53 = [(Typ.NACK, St.BAD_PARAM)]) ∧
    (offered (colAfter { p with chunk := 2 } c) 53 = [(Typ.NACK, St.BUSY)] ∧ offered (colAfter { p with chunk := 1 } c) 53 = [] ∧
      (colAfter p (c.place 2560 { pkt := p })).c.rd COL_STAT.DUP = 1 ∧ (colAfter p late).c.rd COL_STAT.LATE = 1) ∧
    ((win [(3, 0, none)]).windowKey 5 0 3 0 = some 0 ∧ hold (colAfter p (win [(3, 0, none)])).c = true ∧
      hold (colAfter p (win [])).c = false ∧ (colAfter p (win [])).c.pools.held.length = 1 ∧
      offered (colAfter p full) 53 = [(Typ.NACK, St.NO_SLOT)] ∧ (full.requestBuf 21 p.payload.length).1 = false) ∧
    (((rxC 5 { pkt := p, inp := 3 } c).screen 5 { pkt := p, inp := 3 }).1.accepted = true ∧ p.chkGood = true) ∧
    (offered (colAfter (opPkt Typ.MCAST 2 { chunk := 0, payload := fourOnes }) c) 53 = [(Typ.NACK, St.BAD_PARAM)]) ∧
    (let sb := c.wr (TWN_SLICE.STATE 5) Tws.STANDBY
     (colAfter p sb).c.rd TWN_COUNT.DISCARDED = 1 ∧
       offered (colAfter p { sb with tw := { nackDoms := [2] } }) 53 = [(Typ.NACK, St.LINK_LOST)]) := by
  decide

/-- The tree: a node with both children complete, a tree not free, the hop at the start and after it. -/
theorem witness_tree_and_hop :
    let leaf (v : Nat) : List Seg := [{ off := 0, data := [v, v, v, v] }]
    let one := 0x3F800000
    let two := 0x40000000
    let lv : Tbl (List Seg) := [(0, leaf one), (1, leaf one)]
    let sum : Tbl (Option (List Nat)) := [(32, some [two, two, two, two])]
    let node := opC (desc 1 1 0) { chunks := [(0, { leaves := lv })] }
    let start := opC (desc 1 3 1) { chunks := [(0, { leaves := lv, nodes := sum })] }
    let next := opC (desc 1 3 2) { chunks := [(0, { leaves := lv, nodes := sum, part := leaf one })] }
    let busy := { node.modOp 2560 (fun o => { o with sched := true }) with opCount := 1 }
    (node.nodeReady 2560 0 1 0 = some ([one, one, one, one], [one, one, one, one]) ∧ (st node).dev.treeFree 2560 0 = true ∧
      tblGet (fun _ => none) ((after (.treeNodeComplete 5 0 0 1 0) (st node)).c.chunkOf 2560 0).nodes 32 = some [two, two, two, two] ∧
      (st busy).dev.treeFree 2560 0 = false ∧ node.nodeReady 2560 0 1 1 = none) ∧
    ((start.opDesc 2560).owner 0 = 0 ∧ (st start).dev.edgeSum 2560 0 = some (some [two, two, two, two], false) ∧ (st start).dev.treeFree 2560 0 = true ∧
      ((after (.treeNodeComplete 5 0 0 6 0) (st start)).c.chunkOf 2560 0).outs.map (fun o => (o.kind, leAt o.bytes 0 4)) = [(0, two)]) ∧
    (segAll (leaf one) 4 = some [one, one, one, one] ∧
      ((after (.treeNodeComplete 5 0 0 6 0) (st next)).c.chunkOf 2560 0).outs.map (fun o => (o.kind, leAt o.bytes 0 4)) = [(0, 0x40400000)]) ∧
    ((node.chunkOf 2560 0).stuck = false ∧ (node.opDesc 2560).chunks = 4 ∧ (after (.treeNodeComplete 5 0 4 1 0) (st node)).c.ops = node.ops) := by
  decide

/-- ZENITH and CREDIT: a leaf taken, the last one answered, a credit that raises and one that does not. -/
theorem witness_zenith_and_credit :
    let d := desc 7 1 0
    let z (j : Nat) : Pkt := opPkt Typ.ZENITH 5 { chunk := 0, contrib := j, payload := fourOnes }
    let first := opC d {}
    let leaf : List Seg := [{ off := 0, data := List.replicate 4 0x3F800000 }]
    let both := opC d { chunks := [(0, { leaves := [(0, leaf), (1, leaf)], zsrc := [(0, some (9, 3, true)), (1, some (9, 4, true))] })] }
    let c := opC (desc 1 2 0) { succCredit := 1 }
    let cr (n : Nat) : InPkt := { pkt := opPkt Typ.CREDIT 1 { chunk := n }, inp := 3 }
    ((first.opDesc 2560).kind = 7 ∧ first.fieldsBad 2560 (z 1) = false ∧ (z 1).len = 1 ∧
      (first.opDesc 2560).ce * (fmtOf (first.opDesc 2560).inFmt).bits = 128 * (z 1).len ∧
      (after (.zenith 5) (st (rxC 5 { pkt := z 1, inp := 3 } first))).c.alreadyHeld 2560 (z 1) = true) ∧
    ((both.treeSum (both.strict 2) 2560 0 5 0).isSome = true ∧ both.present 2560 0 = [0, 1] ∧
      ((both.zenithChunk 2560 0).inQ 53).map (fun x => (x.pkt.typ, x.pkt.dstPort, leAt x.pkt.payload 0 4)) =
        [(Typ.ZENITH, 3, 0x40000000), (Typ.ZENITH, 4, 0x40000000)]) ∧
    (((after (.credit (.slice 5)) (st (rxC 5 (cr 3) c))).c.opOf 2560).succCredit = 3 ∧ ((after (.credit (.slice 5)) (st (rxC 5 (cr 0) c))).c.opOf 2560).succCredit = 1 ∧
      (after (.credit .control) (st (rxC 64 (cr 3) c))).c.rxQ 64 = []) := by
  decide

/-- Missing members: excluded under REFORM, abandoned without it or with a partial missing, too early. -/
theorem witness_missing_members :
    let leaf : List Seg := [{ off := 0, data := [1, 1, 1, 1] }]
    let c (d : List Nat) (n : Nat) : Ctl := { opC d { chunks := [(0, { leaves := [(0, leaf)], first := some 0 })] } with mer := { slots := n } }
    let go (d : List Nat) (n : Nat) := after (.lateLimitExpiry 5 0 0) (st (c d n))
    ((c (desc 1 1 0 true) 8).leafLate 2560 0 1 = true ∧ (c (desc 1 1 0 true) 7).leafLate 2560 0 1 = false ∧
      (c (desc 1 3 2 true) 8).partLate 2560 0 = true ∧
      (c (desc 1 1 0 true) 8).missingLeaves 2560 0 = [1] ∧ (c (desc 1 1 0 true) 8).missingPart 2560 0 = false ∧
      (go (desc 1 1 0 true) 8).c.bit (COL_DESC_STATUS.REFORMED 5 0) = true ∧ (go (desc 1 1 0 true) 7).c.bit (COL_DESC_STATUS.REFORMED 5 0) = false) ∧
    ((go (desc 1 1 0) 8).c.opState 2560 = 3 ∧ (c (desc 1 3 2 true) 8).missingPart 2560 0 = true ∧ (go (desc 1 3 2 true) 8).c.opState 2560 = 3 ∧
      (c (desc 1 1 0) 8).compared 5 = false) := by
  decide

/-! ## Mailboxes and management commands -/

/-- The bytes of a command (Table MGT-1). -/
def cmdBytes (op target dom flags : Nat) (params : List Byte) : List Byte :=
  toBytes 8 (1 + op <<< 16 + params.length <<< 32 + flags <<< 48) ++ toBytes 8 (7 + dom <<< 32) ++ toBytes 8 target ++ toBytes 8 0 ++ params

/-- The device runs with its firmware, and executes a command of a route. -/
def runC (route : Nat) (bs : List Byte) (c : Ctl) : Ctl :=
  { c.wr PWR_STATE.STATE Pwr.RUN with
    fw := { up := true, boxes := [(if route = 2 then i3cBox else 0, { minor := 3, feats := 0x3FF })],
            queue := [{ route := route, box := if route = 2 then i3cBox else 0, bytes := bs, taken := true }] } }

def theCmd (route : Nat) (bs : List Byte) : MgmtCmd := { route := route, box := if route = 2 then i3cBox else 0, bytes := bs, taken := true }

/-- The status of the last I3C reply. -/
def said (s : State) : Option Nat := s.c.sent.findSome? (fun x => match x with | .reply _ _ bs => some (leAt bs 6 1) | _ => none)

/-- Run one management command from I3C on a device. -/
def mg (i : Instr) (op target dom : Nat) (params : List Byte) (c : Ctl) (flags : Nat := 0) : State :=
  after i (st (runC 2 (cmdBytes op target dom flags params) c))

/-- Mailboxes: a doorbell by each route and while busy, a fabric command for each refusal, an expiry, each
check of an I3C command. -/
theorem witness_mailboxes :
    let run : Ctl := { swxC.wr PWR_STATE.STATE Pwr.RUN with fw := { up := true }, i3c := { addr := some 9 } }
    let fab (op : Nat) : Pkt := Pkt.form { typ := Typ.MGMT_CMD, vc := 6, srcDev := 9, srcPort := 3, stream := 7, alive := 1, payload := cmdBytes op 0 2 0 [] }
    let x (op : Nat) : InPkt := { pkt := fab op, inp := 3 }
    let box := 32 + 9 * 256 + 3
    let send (c : Ctl) : State := after .mgmtCmd (st (rxC 64 (x 0x20) c))
    let full : Ctl := { run with fw := { up := true, fabric := List.range 64 } }
    let five : Ctl := { run with fw := { up := true, fabric := [box], queue := List.replicate 5 { route := 1, box := box } } }
    let old : Ctl := { run with fw := { up := true, fabric := [box] }, mer := { slots := 65536 } }
    let i3c (bs : List Byte) (c : Ctl) := said (after (.i3cPrivateWrite bs) (st c))
    (lastSrc (after (.mbxDoorbellGo 1 0 32) (st run)) = some Src.REG_REFUSED ∧ (after (.mbxDoorbellGo 0 0 32) (st run)).c.bit (MBX_DOORBELL.DONE 0) = true ∧
      lastSrc (after (.mbxDoorbellGo 0 0 32) (st (run.wr (MBX_DOORBELL.BUSY 0) 1))) = some Src.REG_REFUSED) ∧
    (fabricBox (fab 0x20) = box ∧ ((run.setRxQ 64 []).screen 64 (x 0x20)).1.accepted = true ∧ offered (send full) 112 = [(Typ.NACK, St.NO_SLOT)] ∧
      offered (send five) 112 = [(Typ.NACK, St.BUSY)] ∧ (send run).c.fw.fabric = [box] ∧
      (send { run with fw := { up := true, fabric := [box] } }).c.rxQ 64 = []) ∧
    ((after (.mailboxExpiry { dev := 9, port := 3 }) (st old)).c.fw.fabric = [] ∧
      (after (.mailboxExpiry { dev := 9, port := 3 }) (st { old with mer := { slots := 65535 } })).c.fw.fabric = [box]) ∧
    (i3c [] { run with i3c := {} } = none ∧ i3c [1] run = some St.BAD_PARAM ∧ i3c ((cmdBytes 3 0 0 0 []).set 0 2) run = some St.BAD_VERSION ∧
      i3c (cmdBytes 3 0 0 0 []) { run with fw := { up := true, boxes := [(16, { cache := [(7, 0, [])] })] } } = some St.DUPLICATE ∧
      i3c (cmdBytes 0x20 0 0 0 []) (run.wr PWR_STATE.STATE Pwr.AUX) = some St.BUSY ∧ i3c (cmdBytes 0x99 0 0 0 []) run = some St.BAD_OPCODE ∧
      i3c (cmdBytes 0x40 0 0 0 []) run = some St.BAD_OPCODE ∧ i3c (cmdBytes 0x20 0 0 0 []) { run with fw := { up := true, boxes := [(16, { feats := 0 })] } } = some St.UNSUPPORTED ∧
      i3c (cmdBytes 0x20 0 0 0 []) (run.wr MBX_PERM.I3C 0) = some St.DENIED ∧ i3c (cmdBytes 0x03 0 0 0 []) run = none) ∧
    (let m := theCmd 0 (cmdBytes 3 0 0 0 [])
     (replyBytes 0 m {}).length ≤ 0x4000 ∧ (theCmd 2 []).route = 2) := by
  decide

/-- HELLO, GET_INFO, sensors and registers: an answer and each refusal. -/
theorem witness_mgmt_info :
    let hello (maj : Nat) : List Byte := toBytes 8 (maj + 0x0200) ++ toBytes 8 0x3FF
    let reg (a size count : Nat) : List Byte := toBytes 8 a ++ toBytes 4 size ++ toBytes 4 count
    let c := swxC
    ((runC 2 (cmdBytes 1 0 0 0 (hello 1)) c).running 0x01 = some (theCmd 2 (cmdBytes 1 0 0 0 (hello 1))) ∧
      said (mg .hello 1 0 0 (hello 1) c) = some St.OK ∧ said (mg .hello 1 0 0 (hello 2) c) = some St.BAD_VERSION ∧ said (mg .hello 1 0 0 [] c) = some St.BAD_PARAM) ∧
    (said (mg .getInfo 2 0 0 [] c) = some St.OK ∧ (runC 2 [] c).diesHeld = false) ∧
    (said (mg .sensorRead 3 0 0 [255, 0, 1, 0] c) = some St.OK ∧ said (mg .sensorRead 3 0 0 [255, 0, 2, 0] c) = some St.BAD_PARAM) ∧
    (said (mg .sensorWrite 4 0 0 [240, 0, 100, 0] c) = some St.OK ∧ said (mg .sensorWrite 4 0 0 [0, 0, 100, 0] c) = some St.BAD_PARAM ∧
      (after .sensorWrite (st (runC 0 (cmdBytes 4 0 0 0 [240, 0, 100, 0]) c))).c.rd (MBX_DOORBELL.STATUS 0) = St.DENIED) ∧
    (said (mg .regRead 0x10 0 0 (reg 0 8 1) c) = some St.OK ∧ said (mg .regRead 0x10 0 0 (reg 0 3 1) c) = some St.BAD_PARAM ∧
      ((theCmd 2 (cmdBytes 0x10 0 0 0 (reg 4 8 1))).access false = some (.bar0, 4, 8) ∧ accKind .bar0 4 8 true = .unsupported ∧
        said (mg .regRead 0x10 0 0 (reg 4 8 1) c) = some St.BAD_PARAM)) ∧
    (said (mg .regWrite 0x11 0 0 (reg SWX_CTRL.addr 8 1 ++ toBytes 8 0) c) = some St.OK ∧ said (mg .regWrite 0x11 0 0 (reg 0 8 1) c) = some St.BAD_PARAM ∧
      said (mg .regWrite 0x11 0 0 (reg 4 8 1 ++ toBytes 8 0) c) = some St.BAD_PARAM) := by
  decide

/-- Tables: each status of BANK_LOAD, TENSOR_LOAD, BANK_CHECK, DESC_OPEN and TICKET_TAKE. -/
theorem witness_mgmt_tables :
    let load (k obj n first : Nat) (body : List Byte) : List Byte := [BitVec.ofNat 8 k, BitVec.ofNat 8 obj, BitVec.ofNat 8 n, 0] ++ toBytes 4 first ++ body
    let w8 := toBytes 8 0x4003
    let c := swxC.wr (COL_TICKET.HOME 2) 1
    let bl (ps : List Byte) (dom : Nat) := said (mg .bankLoad 0x30 0 dom ps c)
    let words := (desc 1 1 0).flatMap (toBytes 8)
    let dyn := c.wrWord (groupAddr 2 0) 1
    (bl (load 1 1 0 4095 w8) 2 = some St.OK ∧ bl (load 1 1 0 4096 w8) 2 = some St.BAD_PARAM ∧ bl (load 1 9 0 0 w8) 2 = some St.BAD_PARAM ∧
      bl (load 1 1 0 0 w8) 3 = some St.DENIED ∧ bl (load 0 1 0 0 w8) 2 = some St.BUSY ∧ bl (load 1 4 5 32767 w8) 2 = some St.OK) ∧
    (said (mg .tensorLoad 0x32 16383 2 (List.replicate 32 1) c) = some St.OK ∧ said (mg .tensorLoad 0x32 16384 2 (List.replicate 32 1) c) = some St.BAD_PARAM ∧
      said (mg .tensorLoad 0x32 0 2 (List.replicate 32 1) (c.wr (PST_STATUS.STATE 2) 1)) = some St.BUSY) ∧
    (said (mg .bankCheck 0x31 0 2 [] c) = some St.BAD_PARAM ∧ (said (mg .bankCheck 0x31 0 2 (List.replicate 24 0) c)).isSome = true) ∧
    (said (mg .descOpen 0x40 5 2 [] dyn) = some St.BAD_PARAM ∧ said (mg .descOpen 0x40 6 2 words dyn) = some St.DENIED ∧
      said (mg .descOpen 0x40 5 2 words c) = some St.BAD_PARAM ∧
      said (mg .descOpen 0x40 5 2 ((((words.set 8 64).set 46 0x90).set 50 0x80).set 51 1) dyn) = some St.OK) ∧
    (said (mg .ticketTake 0x41 0 2 [] c) = some St.OK ∧ said (mg .ticketTake 0x41 0 3 [] c) = some St.NOT_FOUND) := by
  decide

/-! ## Members, firmware and boot -/

/-- Members: exclusion from an open operation and from later ones, replacement at once and held. -/
theorem witness_mgmt_members :
    let leaf : List Seg := [{ off := 0, data := [1, 1, 1, 1] }]
    let c := opC (desc 1 1 0 true) { chunks := [(0, { leaves := [(0, leaf)] })] }
    let ex (tag x : Nat) := mg .memberExclude 0x50 0 2 (toBytes 2 tag ++ toBytes 2 x) c
    let busy := c.wr (PST_STATUS.STATE 2) 1
    let rep (ps : List Byte) (c : Ctl) := mg .memberReplace 0x51 0 2 ps c
    let excl : Ctl := { c with opExcl := [(2, 4)] }
    let wait : Ctl := { excl with fw := { replaces := [{ d := 2, index := 4, link := 3 }] } }
    ((ex 0x7FFF 1).c.opExcl = [(2, 1)] ∧ ((ex 0x7FFF 1).c.opOf 2560).isExcluded 1 0 = true ∧ (c.opDesc 2560).cbase = 0 ∧
      said (ex 0x8000 1) = some St.BAD_PARAM ∧ said (ex 2560 4095) = some St.OK ∧ said (ex 2560 4096) = some St.BAD_PARAM) ∧
    (said (rep [4, 0, 48] c) = some St.BAD_PARAM ∧ (rep [4, 0, 47] busy).c.fw.replaces.length = 1 ∧ (rep [4, 0, 3] excl).c.opExcl = [] ∧
      busy.storeState 2 = 1 ∧ excl.storeState 2 = 0) ∧
    ((after (.memberReplaceEffect 2) (st wait)).c.opExcl = [] ∧ (after (.memberReplaceEffect 3) (st wait)).c.opExcl = [(2, 4)]) := by
  decide

/-- The flash with an image header in a slot (Table MGT-7): no payload, SVN `svn`, version `ver`. -/
def headerBytes (svn ver : Nat) : List Byte :=
  toBytes 4 0x31565355 ++ [1, 0, 0, 0] ++ toBytes 4 ver ++ toBytes 4 svn ++ List.replicate 8 0 ++ [0x32, 0x48] ++ List.replicate 486 0

def flashAt (a : Nat) (bs : List Byte) : Tbl Byte := (List.range bs.length).map (fun i => (a + i, bs.getD i 0))

theorem range_get (d : Nat → Byte) (a : Nat) (f : Nat → Byte) (i : Nat) : ∀ n s, s ≤ i → i < s + n →
    tblGet d ((List.range' s n).map (fun j => (a + j, f j))) (a + i) = f i
  | 0, s, h, g => by omega
  | n + 1, s, h, g => by
    rw [List.range'_succ, List.map_cons, tblGet]
    by_cases e : s = i
    · rw [if_pos (by omega), e]
    · rw [if_neg (by omega)]
      exact range_get d a f i n (s + 1) (by omega) (by omega)

theorem header_field (c : Ctl) (slot : Nat) (bs : List Byte) (h : c.flash = flashAt (imageBase slot) bs) (o n : Nat) (hn : o + n ≤ bs.length) :
    c.hdr slot o n = leAt bs o n := by
  unfold Ctl.hdr Ctl.flashBytes leAt
  congr 1
  apply List.ext_getElem
  · simp only [List.length_map, List.length_range, List.length_take, List.length_drop]
    omega
  · intro i h1 h2
    simp only [List.length_map, List.length_range] at h1
    simp only [List.getElem_map, List.getElem_range, List.getElem_take, List.getElem_drop, Ctl.flashByte, h, flashAt, Nat.add_assoc]
    rw [List.range_eq_range']
    refine (range_get (fun _ => 0xFF) _ (fun j => bs.getD j 0) (o + i) bs.length 0 (by omega) (by omega)).trans ?_
    rw [List.getD_eq_getElem?_getD, List.getElem?_eq_getElem (by omega)]
    rfl

/-- What a header must hold for its image to be good, but for the signature. -/
def headerFine (bs : List Byte) : Bool :=
  leAt bs 0 4 = 0x31565355 && leAt bs 4 2 = 1 && leAt bs 0x18 2 = 0x4832 && decide (leAt bs 6 2 = 0) && decide (leAt bs 0x1B 5 = 0) &&
    decide (leAt bs 0xB1 15 = 0) && decide (leAt bs 0x120 224 = 0) && decide (leAt bs 0x10 4 ≤ 16776704) && decide (leAt bs 0x1A 1 ≤ 0)

/-- An image with such a header is good where its signature verifies, which is the key's matter. -/
theorem image_good (s : Ctl) (slot : Nat) (bs : List Byte) (h : s.flash = flashAt (imageBase slot) bs) (hb : bs.length = 512) (hk : headerFine bs = true) :
    s.imageGood slot = Config.imageSigned s.fuse.revoked (s.imageBytes slot) := by
  unfold headerFine at hk
  simp only [Bool.and_eq_true, decide_eq_true_eq] at hk
  obtain ⟨⟨⟨⟨⟨⟨⟨⟨h0, h1⟩, h2⟩, h3⟩, h4⟩, h5⟩, h6⟩, h7⟩, h8⟩ := hk
  have f (o n : Nat) (hn : o + n ≤ 512) := header_field s slot bs h o n (by omega)
  simp only [Ctl.imageGood, f 0 4 (by decide), f 4 2 (by decide), f 0x18 2 (by decide), f 6 2 (by decide), f 0x1B 5 (by decide), f 0xB1 15 (by decide),
    f 0x120 224 (by decide), f 0x10 4 (by decide), f 0x1A 1 (by decide), h0, h1, h2, h3, h4, h5, h6, h7, Nat.le_zero.mp h8]
  simp

def imageC (slot ver : Nat) : Ctl := { swxC with flash := flashAt (imageBase slot) (headerBytes 0 ver) }

/-- The headers of two images, one newer, and an erased slot, which holds none. -/
theorem witness_images :
    (imageC 0 5).imageGood 0 = Config.imageSigned (imageC 0 5).fuse.revoked ((imageC 0 5).imageBytes 0) ∧
    (imageC 1 6).imageGood 1 = Config.imageSigned (imageC 1 6).fuse.revoked ((imageC 1 6).imageBytes 1) ∧
    (imageC 0 5).hdr 0 8 4 = 5 ∧ (imageC 1 6).hdr 1 8 4 = 6 ∧ swxC.fuse.svnMin = 0 ∧ swxC.imageValid 0 = false ∧ swxC.imageValid 1 = false :=
  ⟨image_good _ _ (headerBytes 0 5) rfl (by decide) (by decide), image_good _ _ (headerBytes 0 6) rfl (by decide) (by decide),
    by rw [header_field _ _ (headerBytes 0 5) rfl _ _ (by decide)]; decide, by rw [header_field _ _ (headerBytes 0 6) rfl _ _ (by decide)]; decide, by decide⟩

/-- Firmware: staging, a commit refused and accepted, resets, a watchdog, a restart's end, the boot ROM
without an image, confirmation, fallback, kicks, release and each start-up step. -/
theorem witness_firmware :
    let c := swxC
    let fs (t : Nat) (ps : List Byte) := mg .fwStage 0x70 t 0 ps c
    let run := runC 2 (cmdBytes 0x72 1 0 0 []) c
    let boot (stg : Nat) : Ctl := { (c.wr PWR_STATE.STATE Pwr.BOOT).wr GLB_STATE.STAGE stg with fw := { up := true } }
    let step (c : Ctl) (ok : Bool) (bad : List Nat) := (after (.startUpStep ok bad) (st c)).c
    let script : Ctl := { c with flash := flashAt configBase (toBytes 4 0x54435355 ++ toBytes 4 0 ++ toBytes 8 0) }
    (said (fs 1 (toBytes 8 0x3FFFF ++ [0x5A])) = some St.OK ∧ (fs 1 (toBytes 8 0x3FFFF ++ [0x5A])).c.flashByte 0x203_FFFF = 0x5A ∧
      said (fs 1 (toBytes 8 0x40000 ++ [1])) = some St.BAD_PARAM ∧ said (fs 2 (toBytes 8 0 ++ [1])) = some St.BAD_PARAM ∧ said (fs 0 (toBytes 8 0)) = some St.BAD_PARAM) ∧
    (said (mg .fwCommit 0x71 2 0 [] c) = some St.BAD_PARAM ∧ said (mg .fwCommit 0x71 0 0 [] c) = some St.BAD_PARAM ∧
      said (mg .fwCommit 0x71 1 0 [] (c.wr GLB_BOOT.CONFIRM 0) 1) = some St.DENIED ∧ script.scriptGood = true ∧ said (mg .fwCommit 0x71 1 0 [] script) = some St.OK) ∧
    ((mg .resetC 0x72 0 0 [] c).c.pwr = Pwr.BOOT ∧ (mg .resetC 0x72 1 0 [] c).c.bit CIR_STATUS.FW_RESTARTING = true ∧
      said (mg .resetC 0x72 2 0 [] c) = some St.BAD_PARAM ∧ (after .fwWatchdog (st run)).c.rd CIR_STATUS.FW_RESTARTS = 1 ∧
      said (after .restartComplete (after .resetC (st run))) = some St.OK) ∧
    ((after .bootRom (st { boot Stg.VERIFY with boot := { choose := true } })).c.stage = Stg.NO_IMAGE ∧ (after (.bootConfirm 0) (st c)).c.bit GLB_BOOT.CONFIRM = true ∧
      (after .bootFallback (st (boot Stg.VERIFY))).c.stage = Stg.NO_IMAGE ∧ lastSrc (after (.fwKick 1 0) (st c)) = some Src.REG_REFUSED ∧
      lastSrc (after (.fwKick 0 0) (st c)) = none) ∧
    (let cool := regs [(CIR_STATUS.REF_OK, 1), (CIR_SENSOR.VALID 48, 1), (CIR_SENSOR.VALUE 48, 200)] (boot Stg.RESET)
     (after (.controlDieRelease false) (st cool)).c.stage = Stg.VERIFY ∧ (after (.controlDieRelease false) (st (boot Stg.RESET))).c.stage = Stg.RESET) ∧
    ((step (boot 1) true []).stage = Stg.SELF_TEST ∧ (step ((boot 2).wr GLB_BOOT.CONFIRM 0) true []).stage = Stg.SELF_TEST ∧
      (step ((boot 2).wr GLB_BOOT.CONFIRM 1) true [30]).bit GLB_STATE.FAIL = true ∧ (step (boot 3) true []).stage = Stg.LINK_TRAIN ∧
      (step (boot 4) true []).stage = Stg.MER_ALIGN ∧ (step { (boot 4).wr SWX_CTRL.DEV_SET 0 with sw := {} } true []).bit GLB_STATE.FAIL = true ∧
      (step ((boot 5).wr MER_SYNC_STATUS.ROOT_CONFLICT 1) true []).bit GLB_STATE.FAIL = true ∧
      (step ((boot 5).wr MER_SYNC_STATUS.STATE 2) true []).stage = Stg.TWIN_HANDSHAKE ∧ (step (boot 6) true []).pwr = Pwr.RUN) := by
  decide

/-! ## Lifecycle -/

/-- A slice that leaves OFF creates its domain, whose allocation reads as zero. -/
theorem witness_creation :
    let c := (swxC.wr (SLC_STATE.LIFECYCLE 5) 0).wr (DOM_STATE.STATE 2) 0
    let v := ({ ctl := c, ram := { dram := [(0, 7)] } } : Dev).sliceLeavesOff 5
    (c.domOf 5 = 2 ∧ c.sliceEnableCheck 5 = St.OK ∧ c.created 2 = false ∧ c.shardRange 2 = (0, 2 ^ 30)) ∧
      v.ram.dramByte 0 = 0 ∧ v.ctl.sliceLife 5 = 1 ∧ v.ctl.rd (DOM_STATE.STATE 2) = 1 := by
  decide

/-- Slices and links: the four states under enable and disable, each refusal, and the transitions that follow. -/
theorem witness_lifecycle :
    let sl (n : Nat) : Ctl := swxC.wr (SLC_STATE.LIFECYCLE 5) n
    let lk (n : Nat) : Ctl := swxC.wr (LNK_STATUS.LIFECYCLE 3) n
    let en (c : Ctl) := (after (.slcCtrlEnable 0 5) (st c)).c.rd (SLC_STATE.LAST_STATUS 5)
    let dis (c : Ctl) := (after (.slcCtrlDisable 0 5) (st c)).c.rd (SLC_STATE.LAST_STATUS 5)
    let len (c : Ctl) := (after (.lnkLifeEnable 0 3) (st c)).c.rd (LNK_LIFE.LAST_STATUS 3)
    let ldis (c : Ctl) (f : Bool) := (after (.lnkLifeDisable 0 3 f) (st c)).c.rd (LNK_LIFE.LAST_STATUS 3)
    let used := (lk 2).setBank 2 0 { linkUse := 8 }
    let old (c : Ctl) : Ctl := { c with mer := { slots := 3125 } }
    ([en (sl 0), en (sl 1), en (sl 2), en (sl 3)] = [St.OK, St.OK, St.OK, St.ACCEPTED_DEFERRED] ∧
      [dis (sl 0), dis (sl 1), dis (sl 2), dis (sl 3)] = [St.OK, St.ACCEPTED_DEFERRED, St.OK, St.OK] ∧
      en ((sl 0).wr (SLC_DOMAIN.ASSIGNED 5) 0) = St.DENIED ∧ en ((sl 0).wr FLT_STATUS.SAFE 1) = St.DENIED) ∧
    ([len (lk 0), len (lk 1), len (lk 2), len (lk 3)] = [St.OK, St.OK, St.OK, St.ACCEPTED_DEFERRED] ∧
      [ldis (lk 0) false, ldis (lk 1) false, ldis (lk 2) false, ldis (lk 3) false] = [St.OK, St.ACCEPTED_DEFERRED, St.OK, St.OK] ∧
      len ((lk 0).wr (LANE_PRBS_CFG.TX_PAT 3 1) 1) = St.DENIED ∧ ldis used false = St.BUSY ∧ ldis used true = St.OK ∧ (lk 2).linkInBanks 3 = false ∧ (lk 2).twinOn = false) ∧
    (said (mg .sliceEnable 0x20 64 0 [] swxC) = some St.BAD_PARAM ∧ said (mg .sliceDisable 0x21 5 0 [] swxC) = some St.OK ∧
      said (mg .linkEnable 0x22 48 0 [] swxC) = some St.BAD_PARAM ∧ said (mg .linkDisable 0x23 3 0 [] used 1) = some St.OK) ∧
    (((after (.startingDone 5) (st (sl 1))).c.lifeOf 5).ready = true ∧ (after (.sliceReachesOff 5) (st (sl 3))).c.sliceLife 5 = 0 ∧
      (after (.sliceReachesOff 5) (st (sl 3))).c.rd (DOM_STATE.STATE 2) = 0 ∧ (after (.sliceReachesOff 5) (st (sl 2))).c.sliceLife 5 = 2 ∧
      lastSrc (after (.drainTimeout (.slice 5)) (st (old (sl 3)))) = some Src.DRAIN_TIMEOUT ∧ (after (.drainTimeout (.slice 5)) (st (sl 3))).c.sliceLife 5 = 3) ∧
    ((after (.linkReachesOff 3) (st (lk 3))).c.linkState 3 = LanSt.OFF ∧
      (after (.linkReachesOff 3) (st ((lk 3).modLink 3 (fun k => { k with stored := [{}] })))).c.linkState 3 = LanSt.UP ∧
      (after (.drainTimeout (.link 3)) (st (old (lk 3)))).c.flt.inflight.any (fun e => e.src = Src.DRAIN_TIMEOUT) = true) ∧
    (let z : State := { (st (swxC.wr (DOM_STATE.STATE 2) 1)) with dev := { ctl := swxC.wr (DOM_STATE.STATE 2) 1, ram := { dram := [(0, 7)] } } }
     (after (.zeroingDone 2) z).dev.ram.dram = [(0, 7)] ∧ (after (.zeroingDone 2) z).c.rd (DOM_STATE.STATE 2) = 2) := by
  decide

/-! ## Parameter store -/

/-- Domain 2 with a store of `ce` elements a chunk, one state word, two copies of the weights, in state `st`; its
tensor 0 holds a chunk and a half, with MOMENTUM. -/
def pstC (ce state : Nat) (p : PstDom := {}) : Ctl :=
  let c := regs [(PST_LAYOUT.CHUNK_ELEMS 2, ce), (PST_LAYOUT.RING_N 2, 1), (PST_LAYOUT.STATE_WORDS 2, 1), (PST_LAYOUT.ROLLBACK 2, 1),
    (PST_SHARD.LOCAL_CHUNKS 2, 2), (PST_SHARD.GRAD_SLOTS 2, 4), (MEM_DOM_PROG.GRAD_MIB 2, 1), (PST_STATUS.STATE 2, state),
    (PST_STEP.COMMITTED 2, 6)] domC
  ((((c.wrWord (tensorAddr 2 0 + 8) (ce + ce / 2)).wrWord (tensorAddr 2 0 + 16) (0xFFF1 <<< 48)).wrWord (tensorAddr 2 0 + 24) (1 <<< 11))).setPst 2 p

def chunk (k : Nat) : ChunkId := { t := 0, k := k, g := k }

/-- Both chunks placed by slice 5, both partials and the global sum of squares 4.0 there, tensor 0's factor not yet. -/
def placedAcc : StepAcc := { sumsq := [(0, some (0x40000000, 5)), (1, some (0x40000000, 5))], globals := [(0, some 0x40800000)], any := true }

/-- Both chunks updated in step 7. -/
def doneChunks : Tbl ChunkSt := [(0, { stamp := 7, prev := 6, cur := true }), (1, { stamp := 7, prev := 6, cur := true })]
def doneAcc : StepAcc := { placedAcc with factors := [(0, some 0x3F800000)] }

/-- GO on a store that is OFF, in each of its checks, and on one that is ON; PAUSE, RESOLVE with and without REVERT, and ROLLBACK. -/
theorem witness_store_control :
    let off := pstC 64 0
    let bad := off.wr (PST_LAYOUT.CHUNK_ELEMS 2) 65
    let small := off.wr (PST_SHARD.GRAD_SLOTS 2) 0
    let failed := pstC 64 4 { chunks := doneChunks, acc := doneAcc }
    let paused := (pstC 64 5 { chunks := [(0, { stamp := 6, prev := 5, cur := true })] }).wrB (PST_STEP.SHADOW_OK 2) true
    let status (s : State) : Nat := s.c.rd (PST_STATUS.LAST_STATUS 2)
    let go (c : Ctl) := after (.pstGo 0 2 1) (st c)
    (off.startCheck 2 = St.OK ∧ bad.startCheck 2 = St.BAD_PARAM ∧ small.startCheck 2 = St.OVERSUBSCRIBED ∧
      (pstC 64 1).startCheck 2 = St.BUSY ∧ nbit (BitVec.toNat (1#64)) 4 = false) ∧
    ((go off).c.storeState 2 = 1 ∧ (go off).c.rd (PST_STEP.COMMITTED 2) = 0 ∧ status (go bad) = St.BAD_PARAM ∧ (go bad).c.storeState 2 = 0) ∧
    ((after (.pause 0 2 2) (st (pstC 64 2))).c.pstOf 2 = { pauseDue := true } ∧ status (after (.pause 0 2 2) (st failed)) = St.DENIED) ∧
    ((after (.resolve 0 2 4) (st (pstC 64 5 { acc := { any := true } }))).c.storeState 2 = 2 ∧ (after (.resolve 0 2 4) (st (pstC 64 5))).c.storeState 2 = 1 ∧
      status (after (.resolve 0 2 12) (st paused)) = St.DENIED ∧ status (after (.resolve 0 2 4) (st (pstC 64 2))) = St.DENIED) ∧
    ((after (.resolve 0 2 12) (st failed)).c.chunkSt 2 0 = { stamp := 6, prev := 7 } ∧
      (after (.resolve 0 2 4) (st failed)).c.chunkSt 2 0 = { stamp := 7, prev := 6, cur := true } ∧ failed.stepNo 2 % 2 ^ 32 = 7 ∧
      status (after (.resolve 0 2 12) (st (failed.wr (PST_LAYOUT.ROLLBACK 2) 0))) = St.DENIED) ∧
    ((after (.rollback 0 2 16) (st paused)).c.rd (PST_STEP.COMMITTED 2) = 5 ∧ (after (.rollback 0 2 16) (st paused)).c.chunkSt 2 0 = { stamp := 5, prev := 6 } ∧
      (after (.rollback 0 2 16) (st paused)).c.rd (PST_STATUS.MOM_KEPT 2) = 1 ∧ status (after (.rollback 0 2 16) (st failed)) = St.DENIED) := by
  decide

/-- A pause at a step boundary in IDLE, RUNNING and PENDING, and a PENDING step at a later boundary. -/
theorem witness_pause :
    let p (done : Bool) (late : Bool) : PstDom :=
      { chunks := if done then doneChunks else [], acc := if done then doneAcc else placedAcc, pauseDue := true, pauseNow := late }
    let at_ (state : Nat) (done mark late : Bool) : Ctl := (pstC 64 state (p done late)).setDomMer 2 { mark := mark }
    let go (c : Ctl) := after (.pauseEffect 2) (st c)
    ((at_ 2 true true false).stepComplete 2 = true ∧ (at_ 2 true true false).mirrorAcked 2 = true ∧ (at_ 2 false true false).stepComplete 2 = false ∧
      (p true true).nxt.lost = false) ∧
    ((go (at_ 1 false true false)).c.storeState 2 = 5 ∧
      (go (at_ 2 true true false)).c.storeState 2 = 5 ∧ (go (at_ 2 true true false)).c.rd (PST_STEP.COMMITTED 2) = 7) ∧
    ((go (at_ 2 false true false)).c.storeState 2 = 3 ∧ (go (at_ 3 true false true)).c.storeState 2 = 5 ∧ (go (at_ 3 false true true)).c.storeState 2 = 4 ∧
      (go (at_ 3 false false true)).c.storeState 2 = 3 ∧ (go (at_ 2 true false false)).c.storeState 2 = 2) := by
  decide

/-- FACTOR_LATCH of a finite and of a non-finite sum under each mode; updates that end, fault or outlast their limit. -/
theorem witness_updates :
    let run (a : StepAcc) : Ctl := pstC 4 2 { acc := a, hset := [(3, 0x3F800000), (2, 0x3F800000 <<< 32)], busy := [(0, some (chunk 0))] }
    let inf : StepAcc := { placedAcc with globals := [(0, some 0x7F800000)] }
    let clip1 := (run placedAcc).wrWord (tensorAddr 2 0 + 24) (1 <<< 11 + 1 <<< 8)
    let factor (s : State) := tblGet (fun _ => none) (s.c.pstOf 2).acc.factors 0
    let r : RunUpd := { d := 2, job := chunk 0, chunks := [chunk 0] }
    let user : RunUpd := { r with user := true }
    let c (r : RunUpd) : Ctl := (run doneAcc).setUpd 5 { running := some r }
    let poisoned : Ctl := { c r with mem := { poison := [(0, true)] } }
    let ended : Ctl := (c user).setDmem 5 0x3_FFDC [1, 0, 0, 0]
    let late (r : RunUpd) : Ctl := { c r with mer := { slots := 65536 } };
    ((run placedAcc).clipQ 2 0 = some 0x40800000 ∧ factor (after (.factorLatch 2 0) (st (run placedAcc))) = some 0x3F800000 ∧
      factor (after (.factorLatch 2 0) (st clip1)) = some 0x3F000000 ∧ chunk 0 ∈ (run placedAcc).ownedOf 2 0 ∧
      (after (.factorLatch 2 0) (st (run placedAcc))).c.updOf 5 = { queue := [chunk 0, chunk 1] } ∧ (run {}).clipQ 2 0 = none) ∧
    (nonFinite 0x7F800000 = true ∧ (after (.factorLatch 2 0) (st (run inf))).c.storeState 2 = 4 ∧
      ((after (.factorLatch 2 0) (st ((run inf).wr (PST_LAYOUT.NONFINITE 2) 1))).c.pstOf 2).acc.skipped = [0] ∧
      (factor (after (.factorLatch 2 0) (st ((run inf).wr (PST_LAYOUT.NONFINITE 2) 2)))).isSome = true) ∧
    ((c r).compared 5 = false ∧ ((st (c r)).dev.readRecord 2 (chunk 0)).2.2.2 = false ∧ ((c r).tensor 2 0).prog = 0xFFF1 ∧
      (after (.updateComplete 5) (st (c r))).c.chunkSt 2 0 = { stamp := 7, cur := true } ∧ ((c r).updOf 5).running = some r ∧
      (after (.updateComplete 5) (st (c r))).c.gradFree 2 0 = true ∧ (c r).gradFree 2 0 = false) ∧
    (((st poisoned).dev.readRecord 2 (chunk 0)).2.2.2 = true ∧ (after (.updateComplete 5) (st poisoned)).c.chunkSt 2 0 = {} ∧
      (after (.updateComplete 5) (st poisoned)).c.storeState 2 = 4) ∧
    ((c user).ctxDone 5 = false ∧ ended.ctxDone 5 = true ∧ (after (.updateComplete 5) (st (c user))).c.updOf 5 = (c user).updOf 5 ∧
      (after (.updateComplete 5) (st ended)).c.chunkSt 2 0 = { stamp := 7, cur := true }) ∧
    ((late r).elapsed r.since 65536 = true ∧ (c r).elapsed r.since 65536 = false ∧ (after (.updateTimeout 5) (st (late r))).c.storeState 2 = 4 ∧
      (after (.updateTimeout 5) (st (late user))).c.engState 5 2 = Eng.FENCED) := by
  decide

/-! ## Twin -/

/-- A twin pair over link 3, whose far end is device 9; this device is side 0 in state `p`. -/
def twinC (p : Nat) : Ctl :=
  regs [(TWN_CTRL.LINK0, 3), (TWN_CTRL.LINK1, 63), (TWN_STATUS.PAIR, p), (TWN_STATUS.PRESENT, 1), (LNK_PARTNER.DEV 3, 9),
    (TWN_STATUS.TWIN_DEV, 9), (MER_SYNC_STATUS.STATE, 2), (TWN_CTRL.SIG_WAIT, 10), (TWN_CTRL.HB_LIMIT, 4), (MBX_PERM.FABRIC, 0xFF)] swxC

/-- The twin's records 1 to 6 as their four words. -/
def devRec (w0 a1 a2 a3 : Nat) : List Byte := toBytes 8 w0 ++ toBytes 8 a1 ++ toBytes 8 a2 ++ toBytes 8 a3

theorem witness_twin_pairing :
    let hs := twinC Pair.HANDSHAKE
    let sig := hs.rdWord GLB_DET_SIG.addr
    let hear (h : Hello) (c : Ctl) : Ctl := { c with tw := { c.tw with hello := some h } }
    let good : Hello := { dev := 9, side := 1, sig := sig }
    let pr (c : Ctl) := after .pairing (st c)
    let solo (c : Ctl) : Ctl := { c with tw := { c.tw with solo := true } }
    let late (c : Ctl) : Ctl := { c with mer := { c.mer with slots := 5 } }
    (hs.pair ≠ Pair.ABSENT ∧ (after (.twnGo 0 0) (st hs)).c.tw = hs.tw ∧ (after (.twnGo 0 0) (st (twinC Pair.ABSENT))).c.pair = Pair.HANDSHAKE ∧
      (twinC Pair.ABSENT).twinDev = some 9 ∧ State.reset.c.twinDev = none ∧ (after (.twnGo 0 0) (st (twinC Pair.UNPAIRED))).c.net.txns.length = 1) ∧
    ((hear good hs).twinLinks.any (hear good hs).linkUp = true ∧ (hear good hs).aligned = true ∧ (hear good hs).bit TWN_STATUS.PRESENT = true ∧
      (pr (hear good hs)).c.pair = Pair.PAIRED ∧ (pr (hear { good with solo := true } hs)).c.pair = Pair.RESILVER ∧
      (pr (hear good (twinC Pair.ABSENT))).c.pair = Pair.ABSENT ∧ (pr hs).c.pair = Pair.HANDSHAKE) ∧
    ((pr (hear { good with sig := sig + 1 } hs)).c.rd TWN_STATUS.CAUSE = 5 ∧ (pr (hear { good with side := 0 } hs)).c.rd TWN_STATUS.CAUSE = 6 ∧
      (pr (solo (hear { good with solo := true } (twinC Pair.SOLO)))).c.rd TWN_STATUS.CAUSE = 7 ∧
      (pr (solo (hear good (twinC Pair.SOLO)))).c.pair = Pair.RESILVER) ∧
    ((late (twinC Pair.PAIRED)).lossCause = 3 ∧ (twinC Pair.PAIRED).lossCause = 0 ∧
      (after .heartbeatTimeout (st (late (twinC Pair.PAIRED)))).c.pair = Pair.SOLO ∧
      ((late (twinC Pair.PAIRED)).wr (TWN_MODE.MODE 2) 1).bit (TWN_MODE.ACTING 2) = false ∧
      lastSrc (after .heartbeatTimeout (st ((late (twinC Pair.PAIRED)).wr (TWN_MODE.MODE 2) 1))) = some Src.MIRROR_HOLD) ∧
    ((after (.presenceLoss true) (st (twinC Pair.PAIRED))).c.tw.presMiss = 1) := by
  decide

/-- TWIN_RECORD from the twin, from another device, without permission and with a bad length; each KIND. -/
theorem witness_twin_records :
    let c := twinC Pair.PAIRED
    let own := { c with tw := { c.tw with hello := some {} } }
    let pkt (src : Nat) (bs : List Byte) : Pkt :=
      Pkt.form { typ := Typ.MGMT_CMD, vc := 6, srcDev := src, srcPort := 3, stream := 7, alive := 1, payload := cmdBytes 0x60 0 0 0 bs }
    let x (src : Nat) (bs : List Byte) : InPkt := { pkt := pkt src bs, inp := 3 }
    let go (c : Ctl) (src : Nat) (bs : List Byte) := after .twinRecord (st (rxC 64 (x src bs) c))
    let lost := devRec 3 2 0 0
    let dom (m : Nat) : List Byte := devRec 6 (2 + m <<< 6 + 1 <<< 7 + 1 <<< 8) (c.rdWord (MEM_DOM_SHARD.addr 2)) (c.rdWord (MEM_DOM_PROG.addr 2))
    (((rxC 64 (x 9 lost) c).rxQ 64 = [x 9 lost]) ∧ (((rxC 64 (x 9 lost) c).setRxQ 64 []).screen 64 (x 9 lost)).1.accepted = true ∧
      (pkt 9 lost).chkGood = true ∧ pktOpcode (pkt 9 lost) = 0x60 ∧ (pkt 9 lost).poison = false) ∧
    ((go own 9 lost).c.tw.lost = some 2 ∧ (go own 8 lost).c.tw.lost = none ∧ (go (own.wr MBX_PERM.FABRIC 0x7F) 9 lost).c.tw.lost = none ∧
      (go own 9 (lost ++ toBytes 8 0)).c.tw.lost = none ∧ (go (twinC Pair.SOLO) 9 (devRec 4 7 0 0)).c.tw.links = 7) ∧
    ((c.takeDevRec (devRec (1 + 9 <<< 16) 5 0 0)).tw.hello = some { dev := 9, sig := 5 } ∧ (c.takeDevRec (devRec 5 8 0 0)).tw.slices = 8 ∧
      (c.takeDevRec (dom 0)).tw.diff = [] ∧ (c.takeDevRec (dom 1)).tw.diff = [2] ∧ c.created 2 = true ∧ c.twinOn = true ∧
      (c.takeDevRec (devRec 7 0 0 0)).tw = c.tw) := by
  decide

/-- Slice records on what they belong to and before it; mirror writes; a re-run; a wait past its limit; FOLLOW. -/
theorem witness_twin_slices :
    let c := twinC Pair.PAIRED
    let h : HeldObj := { n := 5, d := 2, opTag := 2560, chunk := 1, ticket := 7, sig := 44, variant := 1, kind := 2 }
    let r : TwinRec := { kind := 1, opTag := 2560, chunk := 1, ticket := 7, value := 45, variant := 1 }
    let rp (r : TwinRec) : Pkt :=
      Pkt.form { typ := Typ.WRITE, vc := 0, srcDev := 9, srcPort := 69, stream := 0xFFFE, alive := 1, ackReq := true, addr := sliceRecAddr, payload := r.bytes }
    let rec' (r : TwinRec) : InPkt := { inp := 3, pkt := rp r }
    let held (h : HeldObj) : Ctl := { c with held := [h] }
    let mir (kind w1 : Nat) (bs : List Byte) : List Byte := toBytes 8 (kind <<< 48) ++ toBytes 8 w1 ++ bs
    let mq : Pkt := Pkt.form { typ := Typ.WRITE, vc := 7, srcDev := 9, srcPort := 69, stream := 0xFFFC, alive := 1, addr := mirrorAddr, payload := mir 3 9 [] }
    let mp : InPkt := { inp := 3, pkt := mq }
    let follow : Ctl := (c.wr (TWN_SLICE.STATE 5) Tws.FOLLOW).modTw (fun t => { t with follow := [(5, 16)] })
    let late (h : HeldObj) : Ctl := { held h with mer := { slots := 10 } }
    ((((rxC 5 (rec' r) (held h)).setRxQ 5 []).screen 5 (rec' r)).1.accepted = true ∧ isSliceRec 1 (rec' r).pkt = true ∧ (rec' r).pkt.chkGood = true ∧
      TwinRec.of r.bytes = r ∧ isSliceRec 3 (rec' { r with kind := 3 }).pkt = true ∧ isSliceRec 2 (rec' { r with kind := 2 }).pkt = true) ∧
    (h.meets 5 r = true ∧ ((after (.releaseRecord 5) (st (rxC 5 (rec' r) (held h)))).c.held.map (fun h => h.twin0)) = [some (45, false)] ∧
      (after (.releaseRecord 5) (st (rxC 5 (rec' r) c))).c.twinRecs.length = 1 ∧ (after (.exclRecord 5) (st (rxC 5 (rec' { r with kind := 2 }) c))).c.twinRecs.length = 1 ∧
      offered (after (.releaseRecord 5) (st (rxC 5 (rec' r) c))) 53 = [(Typ.READ_RSP, St.OK)]) ∧
    ((((rxC 5 mp follow).setRxQ 5 []).screen 5 mp).1.accepted = true ∧ follow.inSafe = false ∧
      (after (.mirrorWrite 5) (st (rxC 5 mp follow))).c.rd (PST_STEP.COMMITTED 2) = 9 ∧ (after (.mirrorWrite 5) (st (rxC 5 mp c))).c.rd (PST_STEP.COMMITTED 2) = 0) ∧
    (((st follow).dev.takeMirror 5 (mir 2 1 (toBytes 4 8 ++ toBytes 4 7 ++ toBytes 8 1))).ctl.chunkSt 2 1 = { stamp := 8, prev := 7, cur := true } ∧
      ((st (pstC 64 1)).dev.onCtl (fun c => c.wr (TWN_SLICE.STATE 5) Tws.STANDBY) |>.takeMirror 5 (mir 1 0 [1])).ctl.tw.collect = [(2, 0, [1])]) ∧
    (((held { h with attempt := 1 }).held.find? (fun h => decide (h.n = 5) && decide (h.attempt = 1))) = some { h with attempt := 1 } ∧
      ((after (.rerunDone 5) (st (held { h with attempt := 1 }))).c.held.map (fun h => (h.attempt, h.sig1))) = [(2, 44)]) ∧
    ((late h).elapsed h.since 10 = true ∧ ((after (.sigWaitExpiry 5) (st (late h))).c.held.map (fun h => h.left)) = [true] ∧
      (late { h with attempt := 2, twin0 := some (1, false) }).held.filter (fun x => x.n = 5) = [{ h with attempt := 2, twin0 := some (1, false) }] ∧
      (after (.sigWaitExpiry 5) (st (held h))).c.held = [h] ∧ ∀ k ∈ (late h).openOps 5, ∀ x ∈ ((late h).opOf k).chunks, x.2.exclSent.isSome = false) ∧
    ((follow.followOf 5 = 16 ∧ follow.sliceOn 5 = true) ∧ (after (.followExit 5) (st follow)).c.followOf 5 = 0 ∧
      (after (.followExit 5) (st (follow.modTw (fun t => { t with collect := [(2, 0, [])] })))).c.followOf 5 = 16) := by
  decide

/-- A takeover asked for and taken; a copy that ends at either side; a slice remapped to the lowest spare, to its die's
spare, and to none. -/
theorem witness_twin_recovery :
    let mirror := (twinC Pair.SOLO).wr (TWN_MODE.MODE 2) 1
    let due : Ctl := (pstC 64 3 { acc := doneAcc, chunks := doneChunks }).modTw (fun t => { t with takeover := [2] })
    let src : Silver := { d := 2, source := true, total := 7, byte := 7 }
    let dst : Silver := { d := 2, total := 7, done := 7 }
    let silver (l : List Silver) : Ctl := (twinC Pair.RESILVER).modTw (fun t => { t with silver := l, follow := [(5, 17)] })
    let gone (c : Ctl) : Ctl := (c.wr (SLC_STATE.LIFECYCLE 5) 0).modTw (fun t => { t with remap := [5] })
    let none' := { gone (twinC Pair.SOLO) with flt := { fenced := [16, 17] } }
    let known := (gone (twinC Pair.SOLO)).modTw (fun t => { t with spares := [(sliceDie State.reset.c 5, 17)] })
    let paired := (gone (twinC Pair.PAIRED)).modTw (fun t => { t with doms := [(2, some {})] });
    ((after (.takeoverRequest 0 2 0) (st mirror)).c.tw.takeover = [2] ∧ mirror.bit (TWN_MODE.ACTING 2) = false ∧
      (after (.takeoverRequest 0 2 0) (st (twinC Pair.SOLO))).c.tw.takeover = []) ∧
    (due.periodEdge 2 = true ∧ (after (.mirrorTakeover 2) (st due)).c.bit (TWN_MODE.ACTING 2) = true ∧
      (after (.mirrorTakeover 2) (st due)).c.storeState 2 = 2 ∧ (after (.mirrorTakeover 2) (st due)).c.chunkSt 2 1 = { stamp := 7, prev := 6, cur := true }) ∧
    ((silver [src]).recCount 2 = 0 ∧ (after (.resilverDone 2) (st (silver [src]))).c.pair = Pair.PAIRED ∧
      (after (.resilverDone 2) (st (silver [dst]))).c.followOf 5 = 16 ∧ (after (.resilverDone 2) (st (silver [{ src with byte := 6 }]))).c.pair = Pair.RESILVER ∧
      (after (.resilverDone 2) (st (silver [src, { src with d := 3, byte := 6 }]))).c.pair = Pair.RESILVER) ∧
    (sliceDie State.reset.c 5 = 1 ∧ sliceDie (after (.spareRemap 5) (st (gone (twinC Pair.SOLO)))).c 5 = 16 ∧
      (after (.spareRemap 5) (st (gone (twinC Pair.SOLO)))).c.tw.bare = [5] ∧ (after (.spareRemap 5) (st paired)).c.followOf 5 = 16 ∧
      lastSrc (after (.spareRemap 5) (st none')) = some Src.SPARE_NONE ∧ sliceDie (after (.spareRemap 5) (st known)).c 5 = 17) := by
  decide

/-! ## Fault registers, stops -/

theorem witness_fault_registers :
    let c := State.reset.c
    let lock := c.wr (FLT_ACTION.LOCK 3) 1
    let active := (c.wr (FLT_SRC.ACTIVE 3) 1).wr (FLT_SRC.ACTIVE 7) 1
    let only := c.wr (FLT_SRC.ACTIVE 3) 1
    let ring (h : Nat) := c.wr FLT_RING_HEAD.HEAD h
    let src (s : State) (k : Nat) := s.c.bit (FLT_SRC.ACTIVE k)
    let any (s : State) := s.c.bit FLT_STATUS.ANY_ACTIVE;
    ((srcSev Src.TWIN_LOST).isSome = true ∧ (srcSev 13).isSome = false ∧
      (after (.fltForce 0 (⟨Src.TWIN_LOST / 64, by decide⟩) (BitVec.ofNat 64 (2 ^ (Src.TWIN_LOST % 64)))) State.reset).c.flt.inflight.map (fun e => (e.src, e.forced)) =
        [(Src.TWIN_LOST, true)]) ∧
    (lastSrc (after (.fltActionWrite 0 3 0) (st lock)) = some Src.REG_REFUSED ∧ lastSrc (after (.fltActionWrite 0 3 0x6000) (st c)) = some Src.REG_REFUSED ∧
      (after (.fltActionWrite 0 3 0x1000C) (st c)).c.bit (FLT_ACTION.PIN 3) = true ∧ getFld (BitVec.ofNat 64 0x5FFF) 12 4 = 5) ∧
    (src (after (.clearSource 0 0x10003) (st active)) 3 = false ∧
      src (after (.clearSource 0 0x10003) (st active)) 7 = true ∧ any (after (.clearSource 0 0x10003) (st active)) = true ∧
      any (after (.clearSource 0 0x10003) (st only)) = false ∧ nbit (BitVec.toNat (0x10003#64)) 17 = false) ∧
    (src (after (.clearAll 0 0x20000) (st active)) 7 = false ∧ any (after (.clearAll 0 0x20000) (st active)) = false ∧ nbit (BitVec.toNat (0x20000#64)) 16 = false) ∧
    ((after (.clearFirst 0 0x40000) (st (c.wrWord FLT_NEXT.addr 5))).c.word FLT_NEXT.addr = 0 ∧ nbit (BitVec.toNat (0x40000#64)) 19 = false ∧
      (after (.clearDropped 0 0x80000) (st (c.wrWord FLT_DROPPED.addr 5))).c.word FLT_DROPPED.addr = 0 ∧ nbit (BitVec.toNat (0x80000#64)) 18 = false) ∧
    ((after (.ringTailWrite 0 0) (st (ring 256))).c.rd FLT_RING_TAIL.TAIL = 0 ∧ lastSrc (after (.ringTailWrite 0 0) (st (ring 257))) = some Src.REG_REFUSED) ∧
    ((after (.parityTest 0 2) State.reset).c.flt.parityTest = true ∧ (after (.chkCountClear 0 0) (st (c.wrWord FLT_CHK_COUNT.addr 9))).c.word FLT_CHK_COUNT.addr = 0) := by
  decide

theorem witness_stops_and_fences :
    let c := State.reset.c
    let idle := (c.modEng 5 (fun e => { e with idleFrom := some 3 })).wr (SLC_STOP_AT.STOPPED 5) 1
    let spent := c.wr MEM_SPARES.SPARES_LEFT 0
    let fencing : Ctl := { c with flt := { fencing := [4] } }
    let req : Ctl := { c with flt := { safeReq := some 7 } }
    let inSafe : Ctl := { req with flt := { req.flt with safeAt := some 0 } }
    let stop (b : Nat) : Ctl := { c with flt := { orderlyAt := some b, orderlySrc := 7 }, mer := { slots := 5 } }
    let busy (b : Nat) : Ctl := (stop b).setUpd 5 { running := some { d := 2, user := true } };
    ((after (.stopArm 0 5 (BitVec.ofNat 64 (9 + 2 ^ 32 + 2 ^ 34 + 7 * 2 ^ 40))) State.reset).c.rd (SLC_STOP_AT.COUNT 5) = 9 ∧
      ((after (.stopArm 0 5 (BitVec.ofNat 64 (9 + 2 ^ 32 + 2 ^ 34 + 7 * 2 ^ 40))) State.reset).c.stream 5 1).skip = some 7 ∧
      nbit (BitVec.toNat (BitVec.ofNat 64 (9 + 2 ^ 32 + 2 ^ 34 + 7 * 2 ^ 40))) 37 = false) ∧
    ((after (.resume 0 5 (BitVec.ofNat 64 (2 ^ 37))) (st idle)).c.bit (SLC_STOP_AT.STOPPED 5) = false ∧ nbit (BitVec.toNat (BitVec.ofNat 64 (2 ^ 37))) 34 = false ∧
      (idle.engOf 5).idleFrom.isSome = true ∧ c.engState 5 0 ≠ Eng.HALTED) ∧
    ((after (.memRetire 0 11) State.reset).c.mem.retired.length = 1 ∧ lastSrc (after (.memRetire 0 11) State.reset) = some (Src.FRAME_RETIRE 0) ∧
      spent.rd MEM_SPARES.SPARES_LEFT = 0 ∧ c.rd MEM_SPARES.SPARES_LEFT ≠ 0 ∧ lastSrc (after (.memRetire 0 11) (st spent)) = some (Src.FRAME_RETIRE 0) ∧
      (after (.memRetire 0 (BitVec.ofNat 64 spareFrame)) State.reset).c.mem.retired = []) ∧
    (4 ∈ fencing.flt.fencing ∧ (after (.dieFenced 4) (st fencing)).c.flt.fenced = [4] ∧ lastSrc (after (.dieFenceFail 4) (st fencing)) = some Src.DIE_FENCE_FAIL ∧
      5 ∉ fencing.flt.fencing) ∧
    ((after .safeEntry (st req)).c.inSafe = true ∧ req.flt.safeAt = none ∧ (after .safeEntry (st inSafe)).c.flt.safeReq = none) ∧
    ((List.range 64).filter (fun n => ((stop 5).updOf n).running.isSome) = [] ∧ (after .orderlyStopEnd (st (stop 5))).c.inSafe = true ∧
      (after .orderlyStopEnd (st (stop 6))).c.inSafe = false ∧ (after .orderlyStopEnd (st (busy 5))).c.inSafe = false ∧
      (let late : Ctl := { busy 5 with mer := { slots := 3129 } }
       (after .orderlyStopEnd (st late)).c.inSafe = true ∧ ((after .orderlyStopEnd (st late)).c.updOf 5).running = none)) := by
  decide

/-! ## Cirrus -/

/-- A sensor of a die, one of the device's own, one of the board; a fifth sample, and one at 115 degrees. -/
theorem witness_sensors :
    let c := State.reset.c.wr PWR_STATE.STATE Pwr.RUN
    let old (i : Nat) (l : List Int) : Ctl := { c with cir := { c.cir with hist := [(i, l)] } }
    let hot := old 3 [1840, 1840, 0, 0]
    (c.unpowered = false ∧ c.ownSample 81 = none ∧ (c.ownSample 96).isSome = true ∧
      (after (.sensorSample 3 none) (st c)).c.bit (CIR_SENSOR.FAIL 3) = true ∧ lastSrc (after (.sensorSample 3 none) (st c)) = some Src.SENSOR_FAIL ∧
      (after (.sensorSample 3 (some 0xFFFF#16)) (st c)).c.rd (CIR_SENSOR.RAW 3) = 0xFFFF ∧ (after (.sensorSample 240 (some 5)) (st c)).c.rd (CIR_SENSOR.RAW 240) = 0) ∧
    ((after (.sensorFail 48) (st c)).c.bit (CIR_SENSOR.FAIL 48) = true ∧ (after (.sensorFail 239) (st c)).c.bit (CIR_SENSOR.FAIL 239) = false) ∧
    ((after (.sensorRawWrite 240 9) (st c)).c.rd (CIR_SENSOR.RAW 240) = 9 ∧ (after (.sensorRawWrite 239 9) (st c)).c.rd (CIR_SENSOR.RAW 239) = 0) ∧
    (((9 : Int) :: tblGet (fun _ => []) (old 3 [1, 2, 3, 4]).cir.hist 3).take 5 = [9, 1, 2, 3, 4] ∧
      ((st (old 3 [1, 2, 3, 4])).dev.sample 3 9).ctl.rd (CIR_SENSOR.VALUE 3) = 3 ∧ ((st c).dev.sample 3 9).ctl.bit (CIR_SENSOR.VALID 3) = false) ∧
    (((st hot).dev.sample 3 1840).ctl.pwr = Pwr.SHUTDOWN ∧ ((st hot).dev.sample 3 1839).ctl.pwr = Pwr.RUN) := by
  decide

/-- Thresholds written and evaluated, a set point at and beyond its bounds, the reference, reasons to wake. -/
theorem witness_limits :
    let c := State.reset.c.wr PWR_STATE.STATE Pwr.RUN
    let thr (l : List (FRef × Nat)) : Ctl := regs ([(CIR_THRESH.DIR 2, 0), (CIR_THRESH.LEVEL 2, 100), (CIR_THRESH.HYST 2, 10), (CIR_THRESH.HOLD 2, 2)] ++ l) c
    let second (a : Nat) : Ctl := { thr [(CIR_THRESH.ACTION 2, a)] with cir := { c.cir with thr := [(2, { count := 1 })] } }
    let on := thr [(CIR_THRESH.ACTIVE 2, 1)]
    let below := thr [(CIR_THRESH.DIR 2, 1)]
    let one (first count : Nat) : List Byte := [BitVec.ofNat 8 first, BitVec.ofNat 8 count] ++ toBytes 6 0 ++ toBytes 8 0x800
    let vset (mv : Nat) := after (.pwrVsetWrite 0 2 (BitVec.ofNat 64 mv)) (st c)
    (lastSrc (after (.thresholdEntryWrite 1 2 0) (st c)) = some Src.REG_REFUSED ∧ (after (.thresholdEntryWrite 0 2 0x1F800) (st c)).c.rd (CIR_THRESH.ACTION 2) = 0 ∧
      (after (.thresholdEntryWrite 0 2 0x800) (st c)).c.bit (FLT_ACTION.PIN 914) = true ∧ getFld (BitVec.ofNat 64 0x800) 10 3 = 2 ∧
      (after (.thresholdEntryWrite 0 2 0x800) (st c)).c.rd (CIR_THRESH.HOLD 2) = 1) ∧
    ((runC 2 (cmdBytes 0x83 0 0 0 (one 47 1)) swxC).running 0x83 = some (theCmd 2 (cmdBytes 0x83 0 0 0 (one 47 1))) ∧
      said (mg .threshWrite 0x83 0 0 (one 47 1) swxC) = some St.OK ∧ said (mg .threshWrite 0x83 0 0 (one 48 1) swxC) = some St.BAD_PARAM) ∧
    (((thr []).thrEval 2 101).cir.thr = [(2, { count := 1 })] ∧ ((second 0).thrEval 2 101).bit (CIR_THRESH.ACTIVE 2) = true ∧
      ((second 0).thrEval 2 100).bit (CIR_THRESH.ACTIVE 2) = false ∧ (on.thrEval 2 90).bit (CIR_THRESH.ACTIVE 2) = false ∧
      (on.thrEval 2 91).bit (CIR_THRESH.ACTIVE 2) = true ∧ (below.thrEval 2 99).cir.thr = [(2, { count := 1 })] ∧
      ((second 3).thrEval 2 101).bit PWR_WAKE_REASON.CIRRUS = true ∧ ((second 4).thrEval 2 101).flt.due.length = 1 ∧
      ((second 5).thrEval 2 101).flt.safeReq = some 914 ∧ c.inSafe = false ∧ c.unpowered = false) ∧
    ((vset 649).c.rd (PWR_VSET.MV 2) = 650 ∧ lastSrc (vset 649) = some Src.VOLT_CLAMP ∧ (vset 650).c.flt = c.flt ∧ (vset 850).c.rd (PWR_VSET.MV 2) = 850 ∧
      (vset 851).c.rd (PWR_VSET.MV 2) = 850 ∧ lastSrc (after (.pwrVsetWrite 1 2 700) (st c)) = some Src.REG_REFUSED) ∧
    ((after .refOkSet (st c)).c.bit CIR_STATUS.REF_OK = true ∧ (linkUpC 3 c).linkUp 3 = true ∧
      (after .refLoss (st (linkUpC 3 c))).c.bit (LANE_STATUS.PLL_LOL 3 7) = true ∧ (after .refLoss (st c)).c.flt = c.flt) ∧
    (let w := (c.wr PWR_WAKE_REASON.FAULT 1).wr PWR_WAKE_REASON.WAKE_N 1
     (after (.wakeReasonClear 0 1) (st w)).c.bit PWR_WAKE_REASON.WAKE_N = false ∧ (after (.wakeReasonClear 0 2) (st w)).c.bit PWR_WAKE_REASON.WAKE_N = true ∧
       lastSrc (after (.wakeReasonClear 1 1) (st w)) = some Src.REG_REFUSED) := by
  decide

/-- The fabric stop: channels that differ up to the limit and at it, that agree again, both asserted, and a hold. -/
theorem witness_fabric_stop :
    let c : Ctl := { State.reset.c.wr PWR_STATE.STATE Pwr.RUN with cir := { hold := false } }
    let disc (n : Nat) : Ctl := (c.wr CIR_FSTOP_STATUS.DISC 1).wr CIR_FSTOP_STATUS.COUNT_US n
    let hold : Ctl := { c with cir := { hold := true } }
    let go (a b : Bool) (c : Ctl) := after (.fstopSample a b) (st c)
    ((go true false (disc 9998)).c.bit CIR_FSTOP_STATUS.DISC_FAULT = false ∧ (go true false (disc 9999)).c.bit CIR_FSTOP_STATUS.DISC_FAULT = true ∧
      c.bit CIR_FSTOP_STATUS.DISC_FAULT = false ∧ c.unpowered = false ∧ c.inSafe = false) ∧
    ((go false false (disc 9999)).c.rd CIR_FSTOP_STATUS.LAST_US = 9999 ∧ lastSrc (go false false (disc 9999)) = some Src.FSTOP_DISC ∧
      lastSrc (go false false (disc 10000)) = none) ∧
    ((go true true c).c.bit CIR_FSTOP_STATUS.STOPPED = true ∧ lastSrc (go true true c) = some Src.FSTOP_STOP) ∧
    ((go true false hold).c.bit GLB_STATE.FSTOP_HOLD = true ∧ (go false false hold).c.cir.hold = false) ∧
    ((after .fstopDiscFault (st (disc 10000))).c.bit CIR_FSTOP_STATUS.DISC_FAULT = true ∧ (after .fstopDiscFault (st (disc 9999))).c.flt = c.flt) := by
  decide

/-! ## Power states -/

/-- Supplies and resets: VIN_MAIN within, at and beyond its range; a die too hot for it; the host port. -/
theorem witness_supply_and_resets :
    let aux := regs [(CIR_STATUS.VAUX_OK, 1)] State.reset.c
    let run := regs [(PWR_STATE.STATE, Pwr.RUN), (CIR_STATUS.MAIN_OK, 1), (GLB_BOOT.NEXT, 1), (SLC_STATE.DIE 5, 17)] aux
    let warm (m : Nat) := regs [(CIR_SENSOR.VALID 3, 1), (CIR_SENSOR.MEDIAN 3, m)] aux
    let pwr (i : Instr) (c : Ctl) := (after i (st c)).c.pwr
    let out : Ctl := { run with host := { perst := false } }
    let due : Ctl := { regs [(PWR_WAKE_REASON.FAULT, 1), (PWR_STATE.HOST_D, 3)] run with cir := { State.reset.c.cir with again := true } };
    (pwr (.vinMainInRange 10800) aux = Pwr.BOOT ∧ pwr (.vinMainInRange 13200) aux = Pwr.BOOT ∧ pwr (.vinMainInRange 10799) aux = Pwr.AUX ∧
      pwr (.vinMainInRange 13201) aux = Pwr.AUX ∧ pwr (.vinMainInRange 12000) (warm 1600) = Pwr.AUX ∧ pwr (.vinMainInRange 12000) (warm 1599) = Pwr.BOOT ∧
      aux.bit CIR_STATUS.VAUX_OK = true ∧ aux.pwr = Pwr.AUX) ∧
    (run.pwr ≠ Pwr.AUX ∧ pwr .porstNAssert run = Pwr.AUX ∧ (after .porstNAssert (st run)).c.rd (SLC_STATE.DIE 5) = 17 ∧
      (after .vauxPowerUp (st run)).c.rd (SLC_STATE.DIE 5) = 1 ∧ (after .vinMainOvervoltage (st run)).c.boot.voltRec = true ∧
      (after .vinMainUndervoltage (st aux)).c.bit CIR_STATUS.MAIN_OK = false ∧ (after .vauxUndervoltage (st run)).c.bit CIR_STATUS.VAUX_OK = false) ∧
    ((after (.perstN true) (st due)).c.cir.again = true ∧ (after (.perstN true) (st run)).c.cir.again = false ∧ out.host.perst = false ∧ run.host.perst = true ∧
      (after .hostLinkTrainingStart (st out)).c.host.training = true ∧ (after .functionLevelReset (st due)).c.rd PWR_STATE.HOST_D = 0) ∧
    ((after .wakeNReassert (st due)).c.bit PWR_WAKE_REASON.WAKE_N = true ∧ due.host.connected = true ∧ due.host.training = false ∧
      (after .wakeNReassert (st { due with host := { training := true } })).c.bit PWR_WAKE_REASON.WAKE_N = false) := by
  decide

/-- SLEEP with every slice OFF and with one ON, a link that idles; WAKE within and after 2 ms of idle; the end of a wake; WAKE_HOST. -/
theorem witness_sleep_and_wake :
    let off := swxC.wr (SLC_STATE.LIFECYCLE 5) 0
    let slept (n : Nat) : Ctl :=
      let c := ((linkUpC 4 off).wr (LNK_TRAIN.STATE 3) LanSt.IDLE).wr PWR_STATE.STATE Pwr.SLEEP
      { c with mer := { slots := n } }
    let go (i : Instr) (op route : Nat) (c : Ctl) : Ctl :=
      (after i (st { c with fw := { up := true, boxes := [(16, { minor := 3 })], queue := [{ route := route, box := 16, bytes := cmdBytes op 0 0 0 [], taken := true }] } })).c
    let waking (l : Nat) : Ctl := { slept 0 with cir := { State.reset.c.cir with waking := some [l] } }
    let host := off.wr PWR_STATE.HOST_D 3;
    ((runC 2 (cmdBytes 0x80 0 0 0 []) off).running 0x80 = some (theCmd 2 (cmdBytes 0x80 0 0 0 [])) ∧ said (mg .sleep 0x80 0 0 [] off) = some St.OK ∧
      (mg .sleep 0x80 0 0 [] off).c.linkState 3 = LanSt.IDLE ∧ (mg .sleep 0x80 0 0 [] off).c.pwr = Pwr.SLEEP ∧ off.linkUp 3 = true ∧
      off.bit (LNK_CTRL.STAY_AWAKE 3) = false ∧ said (mg .sleep 0x80 0 0 [] swxC) = some St.BUSY) ∧
    ((go .wake 0x81 2 (slept 31250)).linkState 3 = LanSt.WAKE ∧ (go .wake 0x81 2 (slept 31251)).linkState 3 = LanSt.RETUNE ∧
      (slept 0).cir.waking = none ∧ (go .wake 0x81 2 (slept 0)).cir.waking = some [3] ∧ (go .wake 0x81 2 off).cir.waking = none) ∧
    ((after .wakeComplete (st (waking 4))).c.pwr = Pwr.RUN ∧ (after .wakeComplete (st (waking 3))).c.pwr = Pwr.SLEEP) ∧
    ((go .wakeHost 0x82 2 host).bit PWR_WAKE_REASON.WAKE_N = true ∧ (go .wakeHost 0x82 0 host).bit PWR_WAKE_REASON.MGMT = false ∧ host.host.training = false ∧
      (go .wakeHost 0x82 2 { host with host := { training := true } }).bit PWR_WAKE_REASON.WAKE_N = false) := by
  decide

/-! ## Register writes, ports -/

/-- A host write of bytes at an address. -/
def wrA (bar : Bar) (a : Nat) (bs : List Byte) : Access := { bar := bar, addr := a, data := bs }

/-- Normal, narrow and refused accesses; a field of each access type; a locked register; a burst; a mailbox. -/
theorem witness_register_writes :
    let c := State.reset.c
    let go (x : Access) (c : Ctl) := after (.registerWrite x) (st c)
    let bytes (n v : Nat) : List Byte := toBytes n v
    let a := LNK_CTRL.addr 3
    ((regAt (a / 8 * 8)).map (fun x => x.1) = some .LNK_CTRL ∧ RegId.LNK_CTRL ∉ ownRules ∧
      (go (wrA .bar0 a (bytes 8 (2 ^ (LNK_CTRL.STAY_AWAKE 3).lo))) c).c.bit (LNK_CTRL.STAY_AWAKE 3) = true) ∧
    (lastSrc (go (wrA .bar0 a [1]) c) = some Src.REG_NARROW ∧ lastSrc (go (wrA .bar0 (a + 1) [1, 2]) c) = some Src.REG_UNALIGNED ∧
      lastSrc (go (wrA .bar0 a (bytes 12 0)) c) = some Src.REG_UNALIGNED ∧ lastSrc (go (wrA .bar2 0xF_FFFC (bytes 8 0)) c) = some Src.REG_UNALIGNED ∧
      lastSrc (go { wrA .bar0 0x0100_0000 (bytes 8 0) with contiguous := false } c) = some Src.REG_UNALIGNED) ∧
    (regAt (DOM_ARITH.addr 3 / 8 * 8) = some (.DOM_ARITH, 3, 0) ∧ c.regLocked .DOM_ARITH 3 = false ∧
      (go (wrA .bar0 (DOM_ARITH.addr 3) (bytes 8 1)) c).c.rdWord (DOM_DET_SIG.addr 3) = 0x100000000000002) ∧
    (regAt 0x00FF_FFF8 = none ∧ lastSrc (go (wrA .bar0 0x00FF_FFF8 (bytes 8 0)) c) = some Src.REG_REFUSED) ∧
    (((winAt 0x0100_0000).1 = (winAt 0x0100_000F).1) ∧ (go (wrA .bar0 0x0100_0000 (bytes 16 (2 ^ 64 + 5))) domC).c.rdWord 0x0100_0008 = 0 ∧
      (match (winAt 0x0100_0000).1 with | .unused _ => false | _ => true) = true ∧ unit2 0x10 = unit2 0x1B) ∧
    (oneAccess 0x10 4 ∧ c.bit (MBX_DOORBELL.BUSY 0) = false ∧ (go (wrA .bar2 0x10 [1, 2, 3, 4]) c).c.byte2 0x12 = 3 ∧
      lastSrc (go (wrA .bar2 0x4000 [1, 2, 3, 4]) c) = some Src.REG_REFUSED ∧
      lastSrc (go (wrA .bar2 0x10 [1, 2, 3, 4]) (c.wr (MBX_DOORBELL.BUSY 0) 1)) = some Src.REG_REFUSED) := by
  decide

/-- The I3C target with and without an address; the TAP in AUX and with power. -/
theorem witness_board_ports :
    let c := State.reset.c
    let here : Ctl := { c with i3c := { addr := some 9 } }
    let cells := List.replicate 87 true
    let scan : Ctl := { c with jtag := { ir := 2, cells := cells } }
    let run := c.wr PWR_STATE.STATE Pwr.RUN;
    (c.i3c.addr = none ∧ here.i3c.addr.isSome = true ∧ (after (.entdaa 9) (st c)).c.i3c.addr = some 9 ∧ (after .rstdaa (st here)).c.i3c.addr = none ∧
      (after .getbcr (st here)).c.sent = [.i3c [0x06]]) ∧
    (c.pwr = Pwr.AUX ∧ run.pwr ≠ Pwr.AUX ∧ cells.length = 87 ∧ (after (.extest cells) (st c)).c.jtag = { ir := 0, cells := cells } ∧
      (after (.extest cells) (st run)).c.sent = [.jtag 0] ∧ (BitVec.toNat (0xFF#8)) ∉ [0x00, 0x01, 0x02, 0x04, 0x05]) ∧
    ((scan.setIr 0).scanDrive 4 = some (some true) ∧ (scan.setIr 5).scanDrive 4 = some none ∧ (scan.setIr 1).scanDrive 4 = none) := by
  decide

/-! ## The block as a whole -/

/-- The front of the queue is carried out, then the next; with none a cycle passes, not beyond the slot. -/
theorem witness_step :
    let q := { State.reset with pending := [.refOkSet, .rstdaa] }
    let one := match step q with | .next t => t | _ => q
    let idle (n : Nat) : Ctl := { State.reset.c with cyc := n }
    let tick (s : State) : State := match step s with | .next t => t | _ => s;
    one.c.bit CIR_STATUS.REF_OK = true ∧ one.pending = [.rstdaa] ∧ (tick one).pending = [] ∧
      (tick (st (idle 510))).c.cyc = 511 ∧ (tick (st (idle 511))).c.cyc = 511 ∧ (tick State.reset).pending = State.reset.pending := by
  decide

/-- `MemoryKept` has states to speak of: reset, and the state after a byte of DRAM is written. -/
theorem witness_memory_kept :
    State.reset.memWf ∧ (after (.dramAccess ⟨64, some [7], .good⟩) State.reset).memWf ∧
      (after (.dramAccess ⟨64, some [7], .good⟩) State.reset).dev.ram.dram ≠ [] ∧
      (after (.dramAccess ⟨64, some [0], .good⟩) (after (.dramAccess ⟨64, some [7], .good⟩) State.reset)).dev.ram.dram = [] := by
  unfold State.memWf
  decide

/-- The table gives no row any bits, so a word spells no command. -/
theorem test_no_words : decodeTableWord 64 0 = none ∧ State.reset.withFetchWord 64 0 = State.reset := by
  exact ⟨rfl, rfl⟩

end Sys2Proof.Tests
end

section
/-!
SUPPORT. What every command answers: a next state with the device changed and the queue handed on.
-/

namespace Sys2Proof.Machine

/-- The meaning of every command is a `State.ctlNext` or a `State.devNext`: on no path does an arm of the dispatch
fault, refuse or touch the queue (log entries 11, 47 and 66: a row that does not apply leaves the state as it is, and
nothing is gated by power). -/
theorem exec_eq_next_dev (c : Instr) (s : State) : ∃ d : Dev, exec c s = .next { s with dev := d } := by
  cases c <;> exact ⟨_, rfl⟩

/-- Settles O58: the next state differs from the one before in the device alone. -/
theorem everyCommandCompletes : Obligations.EveryCommandCompletes := by
  intro s c
  obtain ⟨d, hd⟩ := exec_eq_next_dev c s
  exact ⟨{ s with dev := d }, hd, rfl⟩

end Sys2Proof.Machine
end

section
/-!
SUPPORT. What a step does with the queue of commands (log entry 3).
-/

namespace Sys2Proof.Machine

/-- With a command waiting, the step is that command's meaning on the state that keeps the rest. -/
theorem step_of_pending_cons {s : State} {c : Instr} {rest : List Instr} (h : s.pending = c :: rest) :
    step s = exec c { s with pending := rest } := by
  simp only [step, h]

/-- With no command waiting, a core cycle passes. -/
theorem step_of_pending_nil {s : State} (h : s.pending = []) : step s = .next { s with dev := s.dev.onCtl Ctl.tick } := by
  simp only [step, h, State.ctlNext_eq]

/-- Settles O57: the two cases of the queue. -/
theorem stepRunsCommand : Obligations.StepRunsCommand := by
  intro s c
  exact ⟨step_of_pending_cons rfl, fun h => ⟨_, step_of_pending_nil h, h, rfl, rfl⟩⟩

end Sys2Proof.Machine
end

section
/-!
SUPPORT. Bytes of registers and windows: what a stored byte, a stored run of bytes and the clearing of
VALID leave in every byte.
-/

namespace Sys2Proof.Machine

/-- A byte on the bus is the register field of its 8 bits. -/
theorem Ctl.busByte_eq_rd (c : Ctl) (x : Nat) : c.busByte x = c.rd ⟨x / 8 * 8, 8 * (x % 8), 8⟩ := rfl

theorem Ctl.busByte_setByte (c : Ctl) (a : Nat) (b : Byte) (x : Nat) :
    (c.setByte a b).busByte x = if x = a then b.toNat else c.busByte x := by
  simp only [Ctl.busByte_eq_rd, Ctl.setByte]
  split
  · next h =>
    subst h
    rw [Ctl.rd_wr_same _ _ _ (by dsimp only; omega)]
    exact Nat.mod_eq_of_lt b.isLt
  · next h => exact Ctl.rd_wr_apart _ _ _ _ (by simp only [FRef.apart]; omega)

/-- A run of bytes stored at an address: each lies at its place, and every other byte is as it was. -/
theorem Ctl.busByte_setBytes (bs : List Byte) (c : Ctl) (a x : Nat) :
    (c.setBytes a bs).busByte x =
      if a ≤ x ∧ x < a + bs.length then (bs.getD (x - a) 0).toNat else c.busByte x := by
  induction bs generalizing c a with
  | nil => rw [if_neg (by simp only [List.length_nil]; omega)]; rfl
  | cons b bs ih =>
    rw [Ctl.setBytes, ih, Ctl.busByte_setByte]
    obtain h | rfl | h := Nat.lt_trichotomy x a
    · rw [if_neg (by omega), if_neg (by omega), if_neg (by omega)]
    · rw [if_neg (by omega), if_pos rfl, if_pos (by simp), Nat.sub_self]; rfl
    · have hx : x - a = x - (a + 1) + 1 := by omega
      simp only [hx, List.getD_cons_succ, List.length_cons, if_neg (Nat.ne_of_gt h)]
      exact ite_congr (propext (by omega)) (fun _ => rfl) (fun _ => rfl)

/-- Words below a run of stored bytes keep their value. -/
theorem Ctl.word_setBytes_below (bs : List Byte) (c : Ctl) {a w : Nat} (h : w < a / 8 * 8) :
    (c.setBytes a bs).word w = c.word w := by
  induction bs generalizing c a with
  | nil => rfl
  | cons b bs ih => rw [Ctl.setBytes, ih _ (by omega), Ctl.setByte, Ctl.word_wr_ne _ _ _ (by dsimp only; omega)]

theorem Ctl.busByte_congr {c e : Ctl} {x : Nat} (h : c.word (x / 8 * 8) = e.word (x / 8 * 8)) : c.busByte x = e.busByte x := by
  simp only [Ctl.busByte, h]

theorem Ctl.bankValid_congr {c e : Ctl} {d : Nat} (h : c.word (MER_PHASE.addr d) = e.word (MER_PHASE.addr d)) (k : Nat) :
    c.bankValid d k = e.bankValid d k := by
  have hA : c.bit (MER_PHASE.VALID_A d) = e.bit (MER_PHASE.VALID_A d) := congrArg (fun v => getFld v 6 1 != 0) h
  have hB : c.bit (MER_PHASE.VALID_B d) = e.bit (MER_PHASE.VALID_B d) := congrArg (fun v => getFld v 7 1 != 0) h
  simp only [Ctl.bankValid, hA, hB]

theorem Ctl.word_setBankValid_ne (c : Ctl) {d w : Nat} (k : Nat) (b : Bool) (h : w ≠ MER_PHASE.addr d) :
    (c.setBankValid d k b).word w = c.word w := by
  unfold Ctl.setBankValid
  split <;> exact Ctl.word_wr_ne _ _ _ h

theorem Ctl.bankValid_setBankValid_same (c : Ctl) (d k : Nat) (b : Bool) : (c.setBankValid d k b).bankValid d k = b := by
  unfold Ctl.setBankValid Ctl.bankValid
  split
  · exact Ctl.bit_wrB_same _ (MER_PHASE.VALID_A d) b (Nat.le_of_ble_eq_true rfl) rfl
  · exact Ctl.bit_wrB_same _ (MER_PHASE.VALID_B d) b (Nat.le_of_ble_eq_true rfl) rfl

/-- VALID of the domain's other bank stands in a bit of its own. -/
theorem Ctl.bankValid_setBankValid_other (c : Ctl) (d : Nat) {k : Nat} (b : Bool) (hk : k < 2) :
    (c.setBankValid d k b).bankValid d (1 - k) = c.bankValid d (1 - k) := by
  obtain rfl | rfl : k = 0 ∨ k = 1 := by omega
  · exact Ctl.bit_wrB_apart _ (MER_PHASE.VALID_A d) (MER_PHASE.VALID_B d) _ (.inr (.inl (Nat.le_refl 7)))
  · exact Ctl.bit_wrB_apart _ (MER_PHASE.VALID_B d) (MER_PHASE.VALID_A d) _ (.inr (.inr (Nat.le_refl 7)))

/-- MER_PHASE of a domain lies below the bulk windows. -/
theorem merPhase_addr_lt {d : Nat} (h : d < 64) : MER_PHASE.addr d < 0x0100_0000 := by
  simp only [MER_PHASE.addr]; omega

end Sys2Proof.Machine
end

section
/-!
SUPPORT. One aligned access of a bulk window (Table MAP-5): it reaches its window's own write.
-/

namespace Sys2Proof.Machine

/-- The window `w` holds the addresses of a burst unit: `z` bytes from `b` (Table MAP-5). -/
structure Win.Spans (w : Win) (b z : Nat) : Prop where
  at_offset : ∀ o, o < z → winAt (b + o) = (w, o)
  used : ∀ u, w ≠ .unused u
  bulk : 0x0100_0000 ≤ b
  top : b + z ≤ 0x1000_0000
  base_aligned : b % 8 = 0
  size_aligned : z % 8 = 0

/-- Burst units of one size follow each other: an address gives back its unit's number and its offset. -/
theorem unit_at_offset (f : Nat → Win) (b n : Nat) {z o : Nat} (h : o < z) :
    (f ((b + n * z + o - b) / z), (b + n * z + o - b) % z) = (f n, o) := by
  have hsub : b + n * z + o - b = o + n * z := by omega
  rw [hsub, Nat.add_mul_div_right _ _ (Nat.zero_lt_of_lt h), Nat.div_eq_of_lt h, Nat.zero_add, Nat.add_mul_mod_self_right,
    Nat.mod_eq_of_lt h]

theorem spans_sched (n : Fin 64) : (Win.sched n.val).Spans (0x0100_0000 + n.val * 0x10_0000) 0x10_0000 := by
  refine ⟨fun o ho => ?_, by simp, by omega, by omega, by omega, by omega⟩
  simp (disch := omega) only [winAt, if_pos]
  exact unit_at_offset Win.sched _ _ ho

theorem spans_routing (d : Fin 64) : (Win.routing d.val).Spans (0x0500_0000 + d.val * 0x2_0000) 0x2_0000 := by
  refine ⟨fun o ho => ?_, by simp, by omega, by omega, by omega, by omega⟩
  simp (disch := omega) only [winAt, if_pos, if_neg]
  exact unit_at_offset Win.routing _ _ ho

theorem spans_desc (n : Fin 64) : (Win.desc n.val).Spans (0x0600_0000 + n.val * 0x2_0000) 0x2_0000 := by
  refine ⟨fun o ho => ?_, by simp, by omega, by omega, by omega, by omega⟩
  simp (disch := omega) only [winAt, if_pos, if_neg]
  exact unit_at_offset Win.desc _ _ ho

theorem spans_ctlArea (d : Fin 64) : (Win.ctlArea d.val).Spans (0x0700_0000 + d.val * 0x4_0000) 0x4_0000 := by
  refine ⟨fun o ho => ?_, by simp, by omega, by omega, by omega, by omega⟩
  simp (disch := omega) only [winAt, if_pos, if_neg]
  exact unit_at_offset Win.ctlArea _ _ ho

theorem spans_image (n : Fin 64) : (Win.image n.val).Spans (0x0A00_0000 + n.val * 0x8_0000) 0x8_0000 := by
  refine ⟨fun o ho => ?_, by simp, by omega, by omega, by omega, by omega⟩
  simp (disch := omega) only [winAt, if_pos, if_neg]
  exact unit_at_offset Win.image _ _ ho

/-- One aligned access of 4 or 8 bytes of a used window is a single one (Table MGT-6). -/
theorem Win.Spans.accKind_single {w : Win} {b z o n : Nat} (h : w.Spans b z) (ho : o < z) (hn : oneAccess o n) :
    accKind .bar0 (b + o) n true = .single := by
  obtain ⟨hat, hused, hbulk, htop, hb, hz⟩ := h
  obtain ⟨hsize, halign⟩ := hn
  have hmod : (b + o) % n = 0 := by obtain rfl | rfl := hsize <;> omega
  have hfit : o + (n - 1) < z := by obtain rfl | rfl := hsize <;> omega
  have hlast : (winAt (b + o + n - 1)).1 = w := by
    rw [show b + o + n - 1 = b + (o + (n - 1)) by omega, hat _ hfit]
  have hfirst : (winAt (b + o)).1 = w := by rw [hat o ho]
  have h4 : (b + o) % 4 = 0 ∧ n % 4 = 0 ∧ 0 < n ∧ n ≠ 1 ∧ n ≠ 2 := by obtain rfl | rfl := hsize <;> omega
  obtain ⟨ha4, hn4, hpos, h1, h2⟩ := h4
  have hrange : ¬ (n = 0 ∨ 0x1000_0000 < b + o + n) := by omega
  have hlow : ¬ (b + o < 0x0100_0000) := by omega
  simp only [accKind, hlast, hfirst, hmod, hrange, hlow, ha4, hn4, hpos, h1, h2]
  cases w with
  | unused u => exact absurd rfl (hused u)
  | _ => simp [hsize]

/-- A write of one aligned access of a used window is the window's own write. -/
theorem Win.Spans.busWrite_eq {w : Win} {b z o : Nat} {bs : List Byte} (h : w.Spans b z) (ho : o < z)
    (hn : oneAccess o bs.length) (d : Dev) (rt : Nat) : (d.busWrite rt .bar0 (b + o) bs).2 = d.winPut rt (b + o) bs := by
  have hbulk : 0x0100_0000 ≤ b + o := Nat.le_add_right_of_le h.bulk
  simp only [Dev.busWrite, h.accKind_single ho hn, Dev.piecePut, if_pos hbulk]

end Sys2Proof.Machine
end

section
/-!
SUPPORT. The one rule of a bank's write (R25, R47, R294): refused DENIED, refused BUSY, or stored with
VALID of the bank cleared.
-/

namespace Sys2Proof.Machine

/-- A logged refusal raises REG_REFUSED and changes nothing else. -/
theorem refused_refuse (s : State) (rt a n st : Nat) :
    Refused s { s with dev := s.dev.refuse rt a n st } rt a n st where
  words := Ctl.raise_word _ _ _ _ _ _ _
  ram := rfl
  queue := rfl
  event := ⟨_, rfl, rfl, rfl, rfl, rfl, rfl⟩

theorem Ctl.bankGate_of_locked {c : Ctl} {d k : Nat} (hc : c.created d = true) (hl : c.bankLocked d k = true) :
    c.bankGate (some d) k = St.BUSY := by
  simp [Ctl.bankGate, hc, hl]

theorem Ctl.bankGate_of_free {c : Ctl} {d k : Nat} (hc : c.created d = true) (hl : c.bankLocked d k = false) :
    c.bankGate (some d) k = St.OK := by
  simp [Ctl.bankGate, hc, hl]

theorem Ctl.bankGate_of_no_domain {c : Ctl} {dom : Option Nat} {k : Nat}
    (h : dom = none ∨ ∃ d, dom = some d ∧ c.created d = false) : c.bankGate dom k = St.DENIED := by
  obtain rfl | ⟨d, rfl, hc⟩ := h
  · rfl
  · simp [Ctl.bankGate, hc]

theorem Dev.bankPut_of_refused {d : Dev} {rt k a st : Nat} {dom : Option Nat} {bs : List Byte}
    (h : d.ctl.bankGate dom k = st) (hst : st ≠ St.OK) : d.bankPut rt dom k a bs = d.refuse rt a bs.length st := by
  subst h
  exact if_pos hst

theorem Dev.bankPut_of_ok {d : Dev} {rt k a m : Nat} {bs : List Byte} (h : d.ctl.bankGate (some m) k = St.OK) :
    d.bankPut rt (some m) k a bs = d.onCtl (fun c => c.bankStore m k a bs) := if_neg (not_not_intro h)

/-- The bytes of an accepted write lie at their address, and outside them only MER_PHASE changes. -/
theorem Ctl.stored_bankStore (s : State) {d a : Nat} (k : Nat) (bs : List Byte) (hd : d < 64) (ha : 0x0100_0000 ≤ a) :
    Stored s { s with dev := s.dev.onCtl (fun c => c.bankStore d k a bs) } a bs (some (MER_PHASE.addr d)) := by
  have hphase := merPhase_addr_lt hd
  have hbyte (x : Nat) (h : x / 8 * 8 ≠ MER_PHASE.addr d) : (s.c.bankStore d k a bs).busByte x = (s.c.setBytes a bs).busByte x :=
    Ctl.busByte_congr (Ctl.word_setBankValid_ne _ k false h)
  refine ⟨fun i hi => ?_, fun x hx hk => ?_, rfl, rfl⟩
  · have h := hbyte (a + i) (by omega)
    rwa [Ctl.busByte_setBytes, if_pos (by omega), Nat.add_sub_cancel_left] at h
  · have h := hbyte x (fun e => hk (congrArg some e.symm))
    rwa [Ctl.busByte_setBytes, if_neg (by omega)] at h

theorem Ctl.bankValid_bankStore_same (c : Ctl) (d k a : Nat) (bs : List Byte) : (c.bankStore d k a bs).bankValid d k = false :=
  Ctl.bankValid_setBankValid_same _ d k false

theorem Ctl.bankValid_bankStore_other (c : Ctl) {d k a : Nat} (bs : List Byte) (hd : d < 64) (hk : k < 2)
    (ha : 0x0100_0000 ≤ a) : (c.bankStore d k a bs).bankValid d (1 - k) = c.bankValid d (1 - k) := by
  have hphase := merPhase_addr_lt hd
  calc (c.bankStore d k a bs).bankValid d (1 - k)
      = (c.setBytes a bs).bankValid d (1 - k) := Ctl.bankValid_setBankValid_other _ d false hk
    _ = c.bankValid d (1 - k) := Ctl.bankValid_congr (Ctl.word_setBytes_below bs c (by omega)) _

theorem Ctl.sliceDom_lt {c : Ctl} {n d : Nat} (h : c.sliceDom n = some d) : d < 64 := by
  unfold Ctl.sliceDom at h
  split at h
  · obtain rfl := Option.some.inj h
    exact Ctl.rd_lt c (SLC_DOMAIN.DOMAIN n)
  · cases h

/-- Two devices with the same registers and windows, events in flight and memories: they can differ in
what no access of a bank's window speaks of. -/
structure Dev.SameBus (d e : Dev) : Prop where
  word : ∀ x, e.ctl.word x = d.ctl.word x
  inflight : e.ctl.flt.inflight = d.ctl.flt.inflight
  ram : e.ram = d.ram

theorem Dev.SameBus.refl (d : Dev) : Dev.SameBus d d := ⟨fun _ => rfl, rfl, rfl⟩

theorem Dev.SameBus.refused {s : State} {d e : Dev} {rt a n st : Nat} (he : Dev.SameBus d e)
    (h : Refused s { s with dev := d } rt a n st) : Refused s { s with dev := e } rt a n st := by
  obtain ⟨hwords, hram, hqueue, hevent⟩ := h
  exact ⟨fun x => (he.word x).trans (hwords x), he.ram.trans hram, hqueue, by rwa [he.inflight]⟩

theorem Dev.SameBus.stored {s : State} {d e : Dev} {a : Nat} {bs : List Byte} {keep : Option Nat} (he : Dev.SameBus d e)
    (h : Stored s { s with dev := d } a bs keep) : Stored s { s with dev := e } a bs keep := by
  obtain ⟨hbytes, hrest, hram, hqueue⟩ := h
  have hbyte (x : Nat) : e.ctl.busByte x = d.ctl.busByte x := Ctl.busByte_congr (he.word _)
  exact ⟨fun i hi => (hbyte _).trans (hbytes i hi), fun x hx hk => (hbyte x).trans (hrest x hx hk), he.ram.trans hram, hqueue⟩

/-- A routing-table word is written as the bank's rule says; beyond it only parity marks change. -/
theorem Dev.routePut_sameBus (d : Dev) (rt dom k a : Nat) (bs : List Byte) :
    Dev.SameBus (d.bankPut rt (some dom) k a bs) (d.routePut rt dom k a bs) := by
  by_cases h : d.ctl.bankGate (some dom) k = St.OK
  · simp only [Dev.routePut, if_pos h]
    exact ⟨fun _ => rfl, rfl, rfl⟩
  · simp only [Dev.routePut, if_neg h]
    exact .refl _

/-- A command whose meaning, seen from the bus, is a bank's write follows the rule. -/
theorem bankWrite_of_bankPut {s : State} {i : Instr} {rt k a : Nat} {dom : Option Nat} {bs : List Byte} {e : Dev}
    (hd : ∀ d, dom = some d → d < 64) (hk : k < 2) (ha : 0x0100_0000 ≤ a)
    (he : Dev.SameBus (s.dev.bankPut rt dom k a bs) e) (hx : exec i s = .next { s with dev := e }) :
    BankWrite s i rt dom k a bs := by
  refine ⟨_, hx, fun hno => ?_, fun d hdom hc => ⟨fun hl => ?_, fun hl => ?_⟩⟩
  · rw [Dev.bankPut_of_refused (Ctl.bankGate_of_no_domain hno) (by decide)] at he
    exact he.refused (refused_refuse s rt a bs.length St.DENIED)
  · subst hdom
    rw [Dev.bankPut_of_refused (Ctl.bankGate_of_locked hc hl) (by decide)] at he
    exact he.refused (refused_refuse s rt a bs.length St.BUSY)
  · subst hdom
    rw [Dev.bankPut_of_ok (Ctl.bankGate_of_free hc hl)] at he
    have hvalid (j : Nat) : e.ctl.bankValid d j = (s.c.bankStore d k a bs).bankValid d j := Ctl.bankValid_congr (he.word _) j
    exact ⟨he.stored (Ctl.stored_bankStore s k bs (hd d rfl) ha),
      (hvalid k).trans (Ctl.bankValid_bankStore_same _ d k a bs),
      (hvalid (1 - k)).trans (Ctl.bankValid_bankStore_other _ bs (hd d rfl) hk ha)⟩

end Sys2Proof.Machine
end

section
/-!
SUPPORT. The windows that hold banks: each one's write in terms of the bank's rule (R47, R128, R183,
R203, R259, R262).
-/

namespace Sys2Proof.Machine

/-! ## The write of each window -/

theorem Win.Spans.winPut_sched {n b z o : Nat} (h : (Win.sched n).Spans b z) (ho : o < z) (d : Dev) (rt : Nat) (bs : List Byte) :
    d.winPut rt (b + o) bs = d.bankPut rt (d.ctl.sliceDom n) (o / 0x8_0000) (b + o) bs := by
  simp only [Dev.winPut, h.at_offset o ho]

theorem Win.Spans.winPut_routing {m b z o : Nat} (h : (Win.routing m).Spans b z) (ho : o < z) (d : Dev) (rt : Nat) (bs : List Byte) :
    d.winPut rt (b + o) bs = if o % 0x1_0000 < 0x8180 then d.routePut rt m (o / 0x1_0000) (b + o) bs else d := by
  simp only [Dev.winPut, h.at_offset o ho]

/-- The templates of a slice are the lower half of its descriptor window. -/
theorem Win.Spans.winPut_template {n b z o : Nat} (h : (Win.desc n).Spans b z) (hz : 0x1_0000 ≤ z) (ho : o < 0x1_0000)
    (d : Dev) (rt : Nat) (bs : List Byte) :
    d.winPut rt (b + o) bs = d.bankPut rt (d.ctl.sliceDom n) (o / 0x8000) (b + o) bs := by
  simp only [Dev.winPut, h.at_offset o (by omega), Dev.descPut, if_pos ho]

/-- The bank of an output format word, by its offset and by its index: four words of bank A and four of bank B,
then two and two (R203). -/
theorem outputFormat_bank {w : Nat} (hw : w < 12) :
    (if 0x100 + 8 * w < 0x120 then 0 else if 0x100 + 8 * w < 0x140 then 1 else if 0x100 + 8 * w < 0x150 then 0 else 1) =
      (if w < 4 ∨ (8 ≤ w ∧ w < 10) then 0 else 1) := by
  obtain h | h | h | h : w < 4 ∨ (4 ≤ w ∧ w < 8) ∨ (8 ≤ w ∧ w < 10) ∨ 10 ≤ w := by omega
  · rw [if_pos (by omega), if_pos (by omega)]
  · rw [if_neg (by omega), if_pos (by omega), if_neg (by omega)]
  · rw [if_neg (by omega), if_neg (by omega), if_pos (by omega), if_pos (by omega)]
  · rw [if_neg (by omega), if_neg (by omega), if_neg (by omega), if_neg (by omega)]

/-- Output format words stand at 0x100 of a domain's control area (R203). -/
theorem Win.Spans.winPut_outputFormat {m b z w : Nat} (h : (Win.ctlArea m).Spans b z) (hz : 0x160 ≤ z) (hw : w < 12)
    (d : Dev) (rt : Nat) (bs : List Byte) :
    d.winPut rt (b + (0x100 + 8 * w)) bs =
      d.bankPut rt (some m) (if w < 4 ∨ (8 ≤ w ∧ w < 10) then 0 else 1) (b + (0x100 + 8 * w)) bs := by
  have hin : 0x100 ≤ 0x100 + 8 * w ∧ 0x100 + 8 * w < 0x160 := by omega
  simp only [Dev.winPut, h.at_offset _ (show 0x100 + 8 * w < z by omega), Dev.ctlPut, if_pos hin, outputFormat_bank hw]

theorem Win.Spans.winPut_image {n b z o : Nat} (h : (Win.image n).Spans b z) (ho : o < z) (d : Dev) (rt : Nat) (bs : List Byte) :
    d.winPut rt (b + o) bs = d.imagePut rt n o (b + o) bs := by
  simp only [Dev.winPut, h.at_offset o ho]

/-- A program region no stream uses follows the bank's rule alone. -/
theorem Dev.imagePut_of_not_inUse {d : Dev} {rt n o a : Nat} {bs : List Byte} (ho : o % 0x4_0000 < 0x2_C000)
    (h : d.ctl.imageInUse n (o / 0x4_0000) = false) :
    d.imagePut rt n o a bs = d.bankPut rt (d.ctl.sliceDom n) (o / 0x4_0000) a bs := by
  simp [Dev.imagePut, Nat.not_le_of_lt ho, h]

/-- A program region a stream uses is refused BUSY, whatever the bank is otherwise doing (R262). -/
theorem Dev.imagePut_of_inUse {d : Dev} {rt n o a m : Nat} {bs : List Byte} (ho : o % 0x4_0000 < 0x2_C000)
    (hdom : d.ctl.sliceDom n = some m) (hc : d.ctl.created m = true) (h : d.ctl.imageInUse n (o / 0x4_0000) = true) :
    d.imagePut rt n o a bs = d.refuse rt a bs.length St.BUSY := by
  cases hl : d.ctl.bankLocked m (o / 0x4_0000) with
  | true =>
    have hgate := Ctl.bankGate_of_locked hc hl
    simp only [Dev.imagePut, Nat.not_le_of_lt ho, hdom, hgate, h, Dev.bankPut_of_refused hgate (by decide)]
    rfl
  | false => simp [Dev.imagePut, Nat.not_le_of_lt ho, hdom, Ctl.bankGate_of_free hc hl, h]

/-! ## The commands -/

section
variable (s : State) (rt : Route) (n : Fin 64) {data : List Byte}

theorem bankWrite_scheduleWindow {off : BitVec 20} (h : oneAccess off.toNat data.length) :
    BankWrite s (.scheduleWindowWrite rt n off data) rt.val (s.c.sliceDom n.val) (off.toNat / 0x8_0000)
      (0x0100_0000 + n.val * 0x10_0000 + off.toNat) data := by
  have ho : off.toNat < 0x10_0000 := off.isLt
  refine bankWrite_of_bankPut (fun _ => Ctl.sliceDom_lt) (by omega) (by omega) (.refl _) ?_
  rw [exec_scheduleWindowWrite, execScheduleWindowWrite, State.devNext_eq, (spans_sched n).busWrite_eq ho h,
    (spans_sched n).winPut_sched ho]

/-- The write of a routing bank's window: words beyond the table's are dropped (R128). -/
theorem exec_routingTableWrite_eq {off : BitVec 17} (h : oneAccess off.toNat data.length) :
    exec (.routingTableWrite rt n off data) s = s.devNext (fun d =>
      if off.toNat % 0x1_0000 < 0x8180 then
        d.routePut rt.val n.val (off.toNat / 0x1_0000) (0x0500_0000 + n.val * 0x2_0000 + off.toNat) data
      else d) := by
  have ho : off.toNat < 0x2_0000 := off.isLt
  rw [exec_routingTableWrite, execRoutingTableWrite, State.devNext_eq, State.devNext_eq, (spans_routing n).busWrite_eq ho h,
    (spans_routing n).winPut_routing ho]

theorem bankWrite_routingTable {off : BitVec 17} (h : oneAccess off.toNat data.length) (hin : off.toNat % 0x1_0000 < 0x8180) :
    BankWrite s (.routingTableWrite rt n off data) rt.val (some n.val) (off.toNat / 0x1_0000)
      (0x0500_0000 + n.val * 0x2_0000 + off.toNat) data := by
  have ho : off.toNat < 0x2_0000 := off.isLt
  refine bankWrite_of_bankPut (fun d hd => Option.some.inj hd ▸ n.isLt) (by omega) (by omega) (Dev.routePut_sameBus ..) ?_
  rw [exec_routingTableWrite_eq s rt n h, State.devNext_eq, if_pos hin]

theorem routingTable_rest_dropped {off : BitVec 17} (h : oneAccess off.toNat data.length) (hout : 0x8180 ≤ off.toNat % 0x1_0000) :
    exec (.routingTableWrite rt n off data) s = .next s := by
  rw [exec_routingTableWrite_eq s rt n h, State.devNext_eq, if_neg (Nat.not_lt_of_le hout)]

theorem bankWrite_templates {off : BitVec 17} (h : oneAccess off.toNat data.length) (hin : off.toNat < 0x1_0000) :
    BankWrite s (.descriptorWindowWrite rt n off data) rt.val (s.c.sliceDom n.val) (off.toNat / 0x8000)
      (0x0600_0000 + n.val * 0x2_0000 + off.toNat) data := by
  refine bankWrite_of_bankPut (fun _ => Ctl.sliceDom_lt) (by omega) (by omega) (.refl _) ?_
  rw [exec_descriptorWindowWrite, execDescriptorWindowWrite, State.devNext_eq, (spans_desc n).busWrite_eq off.isLt h,
    (spans_desc n).winPut_template (by decide) hin]

theorem bankWrite_outputFormat (w : Fin 12) (v : W64) :
    BankWrite s (.outputFormatWrite rt n w v) rt.val (some n.val) (if w.val < 4 ∨ (8 ≤ w.val ∧ w.val < 10) then 0 else 1)
      (0x0700_0000 + n.val * 0x4_0000 + 0x100 + 8 * w.val) (toBytes 8 v.toNat) := by
  refine bankWrite_of_bankPut (fun d hd => Option.some.inj hd ▸ n.isLt) (by split <;> decide) (by omega) (.refl _) ?_
  have hlen : (toBytes 8 v.toNat).length = 8 := rfl
  have h : oneAccess (0x100 + 8 * w.val) (toBytes 8 v.toNat).length := by rw [hlen]; omega
  rw [exec_outputFormatWrite, execOutputFormatWrite, State.devNext_eq, Nat.add_assoc (_ + _),
    (spans_ctlArea n).busWrite_eq (by omega) h, (spans_ctlArea n).winPut_outputFormat (by decide) w.isLt]

/-- The write of a program image's window. -/
theorem exec_programImageWrite_eq {off : BitVec 19} (h : oneAccess off.toNat data.length) :
    exec (.programImageWrite rt n off data) s = s.devNext (fun d =>
      d.imagePut rt.val n.val off.toNat (0x0A00_0000 + n.val * 0x8_0000 + off.toNat) data) := by
  rw [exec_programImageWrite, execProgramImageWrite, State.devNext_eq, State.devNext_eq, (spans_image n).busWrite_eq off.isLt h,
    (spans_image n).winPut_image off.isLt]

theorem bankWrite_programImage {off : BitVec 19} (h : oneAccess off.toNat data.length) (hin : off.toNat % 0x4_0000 < 0x2_C000)
    (hfree : s.c.imageInUse n.val (off.toNat / 0x4_0000) = false) :
    BankWrite s (.programImageWrite rt n off data) rt.val (s.c.sliceDom n.val) (off.toNat / 0x4_0000)
      (0x0A00_0000 + n.val * 0x8_0000 + off.toNat) data := by
  have ho : off.toNat < 0x8_0000 := off.isLt
  refine bankWrite_of_bankPut (fun _ => Ctl.sliceDom_lt) (by omega) (by omega) (.refl _) ?_
  rw [exec_programImageWrite_eq s rt n h, State.devNext_eq, Dev.imagePut_of_not_inUse hin hfree]

theorem programImage_inUse_refused {off : BitVec 19} {d : Nat} (h : oneAccess off.toNat data.length)
    (hin : off.toNat % 0x4_0000 < 0x2_C000) (hdom : s.c.sliceDom n.val = some d) (hc : s.c.created d = true)
    (huse : s.c.imageInUse n.val (off.toNat / 0x4_0000) = true) :
    ∃ u, exec (.programImageWrite rt n off data) s = .next u ∧
      Refused s u rt.val (0x0A00_0000 + n.val * 0x8_0000 + off.toNat) data.length St.BUSY := by
  refine ⟨_, ?_, refused_refuse s rt.val _ data.length St.BUSY⟩
  rw [exec_programImageWrite_eq s rt n h, State.devNext_eq, Dev.imagePut_of_inUse hin hdom hc huse]

end

/-- Settles O18: each window's write is the bank's write at its address. -/
theorem bankWindows : Obligations.BankWindows := by
  intro s rt n data
  exact ⟨fun _ h => bankWrite_scheduleWindow s rt n h, fun _ h hin => bankWrite_routingTable s rt n h hin,
    fun _ h hout => routingTable_rest_dropped s rt n h hout, fun _ h hin => bankWrite_templates s rt n h hin,
    fun w v => bankWrite_outputFormat s rt n w v, fun _ h hin hfree => bankWrite_programImage s rt n h hin hfree,
    fun _ _ h hin hdom hc huse => programImage_inUse_refused s rt n h hin hdom hc huse⟩

end Sys2Proof.Machine
end
